-- ==== Sys2Proof/Word.lean ====
section
/-!
DEFINITION. The word types of the model: what the manual treats as bits (00 R6, 07 R163, R167).
-/
namespace Sys2Proof

/-- A byte of a memory. -/
abbrev Byte := BitVec 8
/-- A control-space register (R6). -/
abbrev Word := BitVec 32
/-- A general or binary64 register of Irtum (R163, R164). -/
abbrev Dword := BitVec 64

end Sys2Proof
end

