-- ==== Sys2Proof/Machine/Types.lean ====
section
/-!
DEFINITION. The pieces of State, block by block, as plain data. State.lean puts them together.
-/
namespace Sys2Proof.Machine

/-- A sparse memory: (address, byte) pairs, addresses strictly rising, no entry equal to the zero that an unlisted
address reads as (assumption 7). -/
abbrev Mem := List Host.Cell

/-! ### The network model (02 R34 to R41) -/

/-- A node entry (R34). -/
structure MNode where
  id : Nat
  kind : Nat
  side : Bool
  fixed : Bool
  pFixed : Int
  pMin : Int
  pMax : Int
  pInit : Int
  tInit : Int
  pTagValid : Bool
  pTag : Nat
  deriving DecidableEq, Repr, Inhabited

/-- A branch entry (R35). -/
structure MBranch where
  id : Nat
  toN : Nat
  fromN : Nat
  kind : Nat
  enabled : Bool
  oneWay : Bool
  attach : Nat
  resis : Int
  dpStatic : Int
  qInit : Int
  qMax : Int
  volume : Int
  ua : Int
  tAmb : Int
  plugsMax : Nat
  qLin : Int
  deriving DecidableEq, Repr, Inhabited

/-- A pump entry (R37). -/
structure MPump where
  id : Nat
  speedTag : Nat
  branch : Nat
  h0 : Int
  h1 : Int
  h2 : Int
  sMin : Int
  sMax : Int
  deriving DecidableEq, Repr, Inhabited

/-- A valve entry (R38). -/
structure MValve where
  id : Nat
  posTag : Nat
  branch : Nat
  kv : List Int
  deriving DecidableEq, Repr, Inhabited

/-- A store entry (R39). -/
structure MStore where
  id : Nat
  cold : Nat
  hot : Nat
  socTag : Nat
  branch : Nat
  capacity : Int
  socMin : Int
  socMax : Int
  chgMax : Int
  disMax : Int
  loss : Int
  etaChg : Int
  etaDis : Int
  tColdTag : Nat
  tHotTag : Nat
  flowTag : Nat
  deriving DecidableEq, Repr, Inhabited

/-- A plant entry (R40). -/
structure MPlant where
  id : Nat
  cooling : Bool
  kind : Nat
  ret : Nat
  sup : Nat
  heatTag : Nat
  branch : Nat
  heatMin : Int
  heatMax : Int
  rampUp : Int
  rampDown : Int
  tSupMin : Int
  tSupMax : Int
  flowTag : Nat
  tSupTag : Nat
  elecRatio : Int
  priceIndex : Nat
  deriving DecidableEq, Repr, Inhabited

/-- A substation entry (R41). -/
structure MSub where
  id : Nat
  hasSession : Bool
  session : Nat
  ret : Nat
  sup : Nat
  branch : Nat
  qDefault : Int
  tRetDefault : Int
  dpMin : Int
  staleCycles : Nat
  deriving DecidableEq, Repr, Inhabited

/-- A validated model image (R29 to R41). -/
structure Model where
  serial : Nat
  rho : Nat
  cp : Int
  hs : Nat
  exps : List Int
  nodes : List MNode
  branches : List MBranch
  pumps : List MPump
  valves : List MValve
  stores : List MStore
  plants : List MPlant
  subs : List MSub
  deriving DecidableEq, Repr

/-! ### Irtum cores and scans (07, 08, 09, 10) -/

/-- The registers of a scan that a checkpoint or a save area keeps (R221, R244). -/
structure RegCtx where
  g : Vector Dword 32
  d : Vector Dword 16
  pc : Dword
  flg : Word
  deriving DecidableEq, Repr

/-- A core: cores 0 to 3 are the scan cores, 4 and 5 the system cores (R2, R163 to R166). -/
structure Core where
  ctx : RegCtx
  stat : Word
  epc : Dword
  ecause : Word
  eaddr : Dword
  vbase : Dword
  sstat : Word
  /-- The task whose scan the core runs now. -/
  running : Option Nat
  /-- An IDLEW waits for an interrupt (R207). -/
  waiting : Bool
  deriving DecidableEq, Repr

/-- One line of the undo log with its bytes before the store (R176). -/
structure UndoEntry where
  line : Nat
  old : List Byte
  deriving DecidableEq, Repr

/-- One line of the scan output buffer with the bytes stored (R176). -/
structure BufLine where
  line : Nat
  cells : List Host.Cell
  deriving DecidableEq, Repr

/-- One captured engine call (R224). -/
structure Call where
  ticket : Nat
  engine : Nat
  fn : Nat
  body : List Byte
  deriving DecidableEq, Repr

/-- A checkpoint (R221): the registers and the marks. -/
structure Ckpt where
  ctx : RegCtx
  ticket : Nat
  undoMark : Nat
  bufMark : Nat
  callMark : Nat
  deriving DecidableEq, Repr

/-- A fault that a scan met: CODE, DETAIL and address (R253 to R256). -/
structure ScanFault where
  code : Nat
  detail : Nat
  addr : Nat
  deriving DecidableEq, Repr

/-- One entry of the force table (R257). -/
structure Force where
  enable : Bool
  kind : Nat
  target : Nat
  value : Nat
  deriving DecidableEq, Repr

/-- A node record of committed state (R80). -/
structure NodeRec where
  p : Int
  t : Int
  flags : Nat
  imbal : Int
  deriving DecidableEq, Repr

/-- A branch record of committed state (R80). -/
structure BranchRec where
  q : Int
  tOut : Int
  dp : Int
  flags : Nat
  deriving DecidableEq, Repr

/-- A result of the NSA: the header of R79 and the records of R80. -/
structure NetState where
  jobTag : Nat
  refuse : Nat
  outcome : Nat
  flags : Nat
  nodesUnmapped : Nat
  nodesMapped : Nat
  pivotCount : Nat
  branchesUnmapped : Nat
  cgDone : Nat
  newtonDone : Nat
  pivotLast : Nat
  pivotFirst : Nat
  resLaw : Int
  resMass : Int
  cycle : Nat
  ht : Nat
  hs : Nat
  elapsed : Nat
  nodes : List NodeRec
  branches : List BranchRec
  deriving DecidableEq, Repr

/-- A decision table and its dispatch index (R111, R112). -/
structure DecTable where
  index : Nat
  values : List Int
  deriving DecidableEq, Repr

/-- The view of the engines that a task freezes at its period start (R234). -/
structure EngineView where
  state : Option NetState
  dec : Option DecTable
  /-- Thermal demand, thermal missing flag and electric demand, by channel (R153). -/
  demThermal : List (Nat × Int)
  demMissing : List Nat
  demElectric : List (Nat × Int)
  /-- LPE_LOOP_OUT, LPE_LOOP_STAT, LPE_GROUP_OUT and LPE_GROUP_STAT, where not zero. -/
  loops : List (Nat × Nat × Nat)
  groups : List (Nat × Nat × Nat)
  exps : List Int
  modelSerial : Nat
  nodeIds : List Nat
  branchIds : List Nat
  hasModel : Bool
  deriving DecidableEq, Repr

/-- A scan in progress (R246): its period, logs, checkpoint and frozen views. -/
structure Scan where
  period : Nat
  pstart : Nat
  /-- Periods the scan has run beyond its own (R249). -/
  late : Nat
  /-- Whether the scan has begun to execute, and its registers while it does not hold a core (R244). -/
  begun : Bool
  saved : RegCtx
  undo : List UndoEntry
  buf : List BufLine
  calls : List Call
  ticket : Nat
  ckpt : Ckpt
  info : Nat
  faulted : Option ScanFault
  frozenIn : Mem
  frozenOut : Mem
  frozenShared : Mem
  frozenForces : List (Nat × Force)
  view : EngineView
  deriving DecidableEq, Repr

/-- A completion record (R230), the data its post writes, and when it may be posted. -/
structure PostItem where
  ticket : Nat
  engine : Nat
  fn : Nat
  status : Nat
  code : Nat
  data : Nat
  /-- First period index (records of calls) or TB1 time in ns (DONE of a study) at which it may be posted. -/
  duePeriod : Nat
  dueTime : Nat
  isStudy : Bool
  /-- Bytes written at a mailbox offset by the post (R229). -/
  dest : Nat
  bytes : List Byte
  /-- The session whose record of the latest closed snapshot the post writes (R317). -/
  read : Option Nat
  /-- Bytes that enter the user region with a study's DONE post (R232). -/
  userOff : Nat
  userBytes : List Byte
  deriving DecidableEq, Repr

/-- What a task keeps between scans (R225, R227, R246, R252, R262). -/
structure Task where
  scan : Option Scan
  /-- Bytes of the task's output tags committed at its latest SCANEND (R179). -/
  image : Mem
  committed : Bool
  /-- A commit waits for emission at the next period start (R25). -/
  pendEmit : Bool
  pendShared : List Host.Cell
  pendCalls : List Call
  /-- The count after the last committed call (R225). -/
  tickets : Nat
  posts : List PostItem
  /-- INFO bits of the task's next scan (R166). -/
  nextInfo : Nat
  /-- The first commit of the task since the restart has been emitted (R264, R411). -/
  emitted : Bool
  pidx : Nat
  deriving DecidableEq, Repr

/-! ### The program image (10 R237 to R242) -/

/-- A task record (R237). -/
structure TaskRec where
  entry : Nat
  task : Nat
  core : Nat
  prio : Nat
  halt : Bool
  ovrMax : Nat
  period : Nat
  deriving DecidableEq, Repr

/-- An instance directory entry with its INIT word (R238, R239). -/
structure InstRec where
  id : Nat
  hash : Nat
  addr : Nat
  kind : Nat
  size : Nat
  init : Nat
  deriving DecidableEq, Repr

/-- A tag entry (R240). -/
structure TagRec where
  tag : Nat
  typ : Nat
  qn : Nat
  out : Bool
  owner : Nat
  off : Nat
  deriving DecidableEq, Repr

/-- A field of a CAN or Modbus frame bound to a tag (R242). -/
structure FieldBind where
  tag : Nat
  isReq : Bool
  bitpos : Nat
  width : Nat
  msbFirst : Bool
  deriving DecidableEq, Repr

/-- A CAN_RX record (R242). -/
structure CanRxRec where
  bind : FieldBind
  ch : Nat
  ide : Bool
  xl : Bool
  vcid : Nat
  matchVcid : Bool
  id : Nat
  mask : Nat
  ageTag : Nat
  deriving DecidableEq, Repr

/-- A CAN_TX record (R242). -/
structure CanTxRec where
  ch : Nat
  ide : Bool
  fdf : Bool
  brs : Bool
  xl : Bool
  onChange : Bool
  task : Nat
  len : Nat
  id : Nat
  sdt : Nat
  vcid : Nat
  sec : Bool
  af : Nat
  fields : List FieldBind
  deriving DecidableEq, Repr

/-- An MB_POLL record (R242). -/
structure MbPollRec where
  uart : Nat
  task : Nat
  slave : Nat
  fc : Nat
  start : Nat
  qty : Nat
  ageTag : Nat
  fields : List FieldBind
  deriving DecidableEq, Repr

/-- A record of the I/O map (R242). -/
inductive IoRec where
  | di (tag k source : Nat)
  | dout (tag ch : Nat)
  | time (tag tb : Nat)
  | ses (tag session word : Nat)
  | canRx (r : CanRxRec)
  | canTx (r : CanTxRec)
  | mbPoll (r : MbPollRec)
  | diFilter (w0 w1 w2 w3 : Nat)
  | gates (bits : Nat)
  deriving DecidableEq, Repr

/-- An entry of the CHKUNITS section (R239). -/
structure ChkUnitRec where
  unit : Nat
  cfg : Nat
  poly : Nat
  init : Nat
  xor : Nat
  exp : Nat
  deriving DecidableEq, Repr

/-- A parsed program image payload (R239). -/
structure Program where
  serial : Nat
  codeLen : Nat
  constLen : Nat
  consts : Mem
  retLen : Nat
  nonretLen : Nat
  tasks : List TaskRec
  /-- Owner of each declared page, in ascending address: a task, or 0xFE for SHARED. -/
  pages : List (Nat × Nat)
  insts : List InstRec
  tags : List TagRec
  netMs : Nat
  dispMult : Nat
  canRecover : List Nat
  projectId : Nat
  iomap : List IoRec
  chkUnits : List ChkUnitRec
  deriving DecidableEq, Repr

/-! ### Solver state (03, 04) -/

/-- The boundary values of a closed snapshot (R20, R42, R43), by index of the element they belong to. -/
structure Snapshot where
  cycle : Nat
  hs : Nat
  /-- TB1 time of the instant in ns. -/
  time : Nat
  subQ : List Int
  subT : List Int
  subDef : List Bool
  speed : List Int
  pos : List Int
  plantQ : List Int
  plantT : List Int
  storeQ : List Int
  storeCold : List Int
  storeHot : List Int
  storeSoc : List Int
  /-- P_TAG value of each node, 0 where none is bound. -/
  nodeP : List Int
  deriving DecidableEq, Repr

/-- One row of a factor, by node index: D, its reciprocal, and the L entries by column node (R72). -/
structure FactorRow where
  node : Nat
  d : Int
  dinv : Int
  ls : List (Nat × Int)
  deriving DecidableEq, Repr

/-- A kept factor (R73) and the structure hash it was made under. -/
structure Factor where
  hs : Nat
  rows : List FactorRow
  deriving DecidableEq, Repr

/-- A plug: its fraction in Q2.30 and its temperature (R75). -/
abbrev Plug := Int × Int

/-- The state a job starts from: pressures, temperatures, flows and outlet temperatures by index of the active model,
with the counts of a mapping by identifier (R50, R85). -/
structure BaseState where
  p : List Int
  t : List Int
  q : List Int
  tOut : List Int
  /-- Nodes mapped and unmapped and branches unmapped; none when it maps by index. -/
  byId : Option (Nat × Nat × Nat)
  /-- A value clamped when it was mapped (R85). -/
  sat : Bool
  deriving DecidableEq, Repr

/-- How far a job has come: completed Newton steps, and how far the step after them has: 0 nothing, 1 branch pass and
assembly, 2 factorisation and `its` CG iterations, 3 all of CG; 4 with every step complete and `its` groups of 512
branches of the thermal pass (R82). -/
structure StopPoint where
  steps : Nat
  phase : Nat
  its : Nat
  deriving DecidableEq, Repr

/-- A job in progress with what has happened to it (R58, R81, R82). -/
structure Job where
  kind : Nat
  desc : List Nat
  /-- TB1 time from which ELAPSED counts, in ns. -/
  start : Nat
  stop : Option StopPoint
  /-- The thermal pass was discarded, after so many of its groups. -/
  thermSkip : Bool
  thermDone : Nat
  /-- Newton steps whose factorisation was abandoned, with the factor kept then (R73). -/
  abandoned : List (Nat × Option Factor)
  retried : Bool
  /-- What the job starts from and works on. -/
  snap : Snapshot
  inServ : List Bool
  isolated : List Bool
  ht : Nat
  cycle : Nat
  /-- Ticket and task of a study's call. -/
  ticket : Nat
  task : Nat
  /-- Start values of a ply and of a study. -/
  base : BaseState
  plugs : List (List Plug)
  /-- A warm-start vector's bytes, for a study (R84). -/
  vector : List Byte
  /-- The model of a study and of a dispatch job: the one active when it was accepted or started. -/
  model : Option Model
  /-- The clusters that NSA_ALLOC gave its class when it started (R88). -/
  mask : Nat
  /-- A value clamped while its inputs were formed (R85, R93). -/
  sat : Bool
  deriving DecidableEq, Repr

/-- A ply that ended, as the check takes it (R94, R96). -/
structure PlyRec where
  result : NetState
  blocked : List Bool
  plugs : List (List Plug)
  factor : Option Factor
  snap : Snapshot
  thermRan : Bool
  desc : List Nat
  deriving DecidableEq, Repr

/-- A model activation that waits for its cycle (R49 to R51). -/
structure Activation where
  slot : Nat
  at_ : Nat
  prepared : Bool
  confirmed : Bool
  deferrals : Nat
  model : Model
  deriving DecidableEq, Repr

/-- A forecast set (R101): its header fields and its series, point-minor. -/
structure Forecast where
  serial : Nat
  t0 : Nat
  nPts : Nat
  eFlow : Int
  eTemp : Int
  eHeat : Int
  eCost : Int
  hs : Nat
  flows : List Int
  temps : List Int
  heats : List Int
  prices : List Int
  elec : List Int
  nSubs : Nat
  nPrice : Nat
  deriving DecidableEq, Repr

/-- The NSA (02, 03, 04). -/
structure Nsa where
  model : Option Model
  cycleDesc : Option (List Nat)
  plyDesc : Option (List Nat)
  dispDesc : Option (List Nat)
  /-- Installs that wait for the next network-cycle instant: acceptance time and descriptor (R59, R89). -/
  pendDesc : List (Nat × List Nat)
  /-- Branches out of service by the mask, by index, ascending (R53). -/
  mask : List Nat
  /-- The BRANCH_IDs that the mask names, under the model it was last used with (R56). -/
  maskIds : List Nat
  /-- Mask writes that wait: acceptance time, first branch, bits (R53). -/
  pendMask : List (Nat × Nat × List Bool)
  isolated : List Bool
  /-- The isolation analysis must run at the next instant (R55). -/
  isoDue : Bool
  /-- The latest committed state, and the one in force at loops and tasks (R20 steps 4 and 5). -/
  committed : Option NetState
  inForce : Option NetState
  base : Option BaseState
  plugs : List (List Plug)
  factor : Option Factor
  /-- Snapshot being formed, latest closed snapshot, and the one before it. -/
  open_ : Option Snapshot
  snap : Option Snapshot
  prevSnap : Option Snapshot
  /-- The CYCLE, CHECK or REFINE job, the ply that runs, the ply that ended, the studies. -/
  hyd : Option Job
  ply : Option Job
  plyDone : Option PlyRec
  plyReason : Option Nat
  studies : List Job
  activation : Option Activation
  /-- The cycle of the latest network-cycle instant since the restart. -/
  instant : Option Nat
  /-- The current cycle's committed state is still to come. -/
  cycleOpen : Option Nat
  /-- Slots being validated with the length written: (slot, length, at a restart) (R47, R52). -/
  validating : List (Nat × Nat × Bool)
  deriving DecidableEq, Repr

/-- The DPO (04). -/
structure Dpo where
  forecast : Option Forecast
  /-- A set that waits for the next network-cycle instant: acceptance time and the set (R102). -/
  pendForecast : Option (Nat × Forecast)
  /-- The forecast in force became invalid at an activation (R102). -/
  invalid : Bool
  /-- The decision table in force, and the one computed for the next dispatch instant. -/
  table : Option DecTable
  next : Option DecTable
  /-- The dispatch job: descriptor, j, start, and its inputs. -/
  job : Option Job
  jobIndex : Nat
  jobFcst : Option Forecast
  /-- The first free value that the job may use (assumption 8). -/
  jobFree : Nat
  retried : Bool
  /-- The latest dispatch instant, and that of the latest outcome with the outcome. -/
  instant : Option Nat
  ended : Option (Nat × Nat)
  /-- The model under which the next table was computed (R52). -/
  nextModel : Option Model
  /-- A dispatch instant whose job waits for committed state: its index and time. -/
  due : Option (Nat × Nat)
  /-- The previous plan: H_S, N_H, the decision vector in Q8.24, and the STORE_IDs of its model. -/
  prevPlan : Option (Nat × Nat × List Int × List Nat)
  /-- A dispatch instant at which a standby still waited for the end of its job (R291). -/
  late : Option Nat
  /-- Plan-block bytes that become visible at the next dispatch instant (R232). -/
  plan : Option (Nat × List Byte)
  /-- PLY_OFF and DPO_OFF as they apply, and the time from which DPO_CTRL's bits do (R115). -/
  plyOff : Bool
  dpoOff : Bool
  ctrlAt : Nat
  deriving DecidableEq, Repr

/-! ### Loops (05) -/

/-- A loop with its accepted descriptor and its running state (R119 to R135). -/
structure Loop where
  /-- The 64 words in force; empty before the first takes effect. -/
  words : List Nat
  mode : Nat
  /-- An install and a mode change that wait, with the tick of acceptance (R119). -/
  pendDesc : Option (Nat × List Nat)
  pendMode : Option (Nat × Nat)
  f : Int
  d : Int
  xiLast : Int
  rLast : Int
  /-- The applied output w. -/
  w : Int
  init : Bool
  /-- The first target region is taken at once, without a blend (R135). -/
  fresh : Bool
  /-- The target must be chosen anew, as v outside its interval (R134). -/
  reselect : Bool
  target : Nat
  /-- Gains in effect, gains the blend started from, and b (R132). -/
  gains : Int × Int × Int
  gFrom : Int × Int × Int
  b : Nat
  /-- Last values delivered by PV, SP, FF, SCHED and MAN (R123). -/
  last : List Int
  /-- PV, SP and SCHED sources that are lost, and a lost PV or SP source that has resolved since the latest evaluation (R123,
  R124, R128). -/
  lostPv : Bool
  lostSp : Bool
  lostSched : Bool
  resolved : Bool
  stale : Bool
  deriving DecidableEq, Repr

/-- A competition group (R129, R130). -/
structure LoopGroup where
  /-- DEST of the descriptor in force, if one is installed. -/
  dest : Option Nat
  pend : Option (Nat × Nat)
  winner : Option Nat
  deriving DecidableEq, Repr

/-- The loop engine. -/
structure Lpe where
  loops : List (Nat × Loop)
  groups : List (Nat × LoopGroup)
  /-- Destination tags that have an emitted value (R128, R512). -/
  emitted : List Nat
  /-- Values to be emitted at the next tick, by tag (R118). -/
  due : List (Nat × Int)
  deriving DecidableEq, Repr

/-! ### Energy metering (06) -/

/-- One sample of an electric channel: three voltages and three currents (R138, R141). -/
structure ESample where
  v : List Int
  i : List Int
  deriving DecidableEq, Repr

/-- An electric channel while it meters. -/
structure EChan where
  /-- Samples by sample index, from 20 before the open line cycle on. -/
  samples : List (Nat × ESample)
  /-- The line cycle that closes next. -/
  next : Nat
  /-- Active energy since the previous demand, in 2⁻³² mWh. -/
  dem : Int
  deriving DecidableEq, Repr

/-- What an electric channel has met in a latch interval (R151). -/
structure EInt where
  miss : Nat
  lost : Bool
  unsync : Bool
  gap : Bool
  deriving DecidableEq, Repr

/-- What a thermal channel has met in a latch interval (R151). -/
structure TInt where
  taken : Nat
  lowFlow : Nat
  lowDt : Nat
  missing : Nat
  fwd : Bool
  rev : Bool
  deriving DecidableEq, Repr

/-- The thermal half of a latch (R150 step 1): its index, the registers and the counts. -/
structure Latch where
  idx : Nat
  regs : List (Nat × Nat)
  tint : List (Nat × TInt)
  /-- The thermal samples of the instant wait for its snapshot, and the copy waits for them (R144, R315). -/
  due : Bool
  deriving DecidableEq, Repr

/-- What the active module decided about electric samples, as it forwards it (R141): a sample or its absence by channel and
index, a frame with smpSynch 0, the end of that state, a stream that was lost, and one that came back. -/
inductive MtrFwd where
  | sample (c ix : Nat) (x : Option ESample)
  | unsync (c ix : Nat)
  | synced (c : Nat)
  | lost (c ix : Nat)
  | found (c : Nat)
  deriving DecidableEq, Repr

/-- The metering engine. -/
structure Mtr where
  /-- Registers by key in units of 2⁻³² LSB, modulo 2⁹⁶: fraction, VALUE and WRAP in one number (R147). -/
  regs : List (Nat × Nat)
  chans : List (Nat × EChan)
  /-- Interval data of electric channels, by interval · 64 + channel. -/
  eint : List (Nat × EInt)
  tint : List (Nat × TInt)
  /-- Demands formed at the latest instant, and those of the latest closed snapshot (R153). -/
  demT : List (Nat × Int)
  demMiss : List Nat
  viewT : List (Nat × Int)
  viewMiss : List Nat
  viewE : List (Nat × Int)
  /-- The configuration in force (R155): N_LINE and 60 Hz; the words of each record. -/
  latch : Option (Nat × Bool)
  elec : List (Nat × List Nat)
  therm : List (Nat × List Nat)
  tables : List (Nat × List Nat)
  subs : List (Nat × Nat)
  pulses : List (Nat × List Nat)
  stored : Bool
  /-- Accepted records that wait: time, kind, index, words (R156), and clears that wait (R158). -/
  pend : List (Nat × Nat × Nat × List Nat)
  clears : List (Nat × Bool × Nat)
  serial : Nat
  /-- The latch in progress, and electric registers copied for it (R150). -/
  latching : Option Latch
  copied : List (Nat × List Nat)
  cfgChanged : Bool
  restarted : Bool
  /-- Slots that wait for MRAM, with the latch index. -/
  slots : List (Nat × List Byte)
  seq : Nat
  /-- The archive slots that hold a valid record (R151). -/
  arch : List Nat
  /-- TB1 time in ns at which the first valid latch configuration took effect, 0 for none since the restart (R156). -/
  since : Nat
  /-- Arrival in ns of the latest frame of each subscription slot (R141). -/
  svLast : List (Nat × Nat)
  /-- Decisions that the active module has still to forward (R141, R284). -/
  fwd : List MtrFwd
  /-- Pulse accumulators in 2⁻³² LSB, and the TB1 time until which each output stays off (R154). -/
  pacc : List (Nat × Nat)
  poff : List (Nat × Nat)
  deriving DecidableEq, Repr

/-! ### Sessions, check units and the host channel (12) -/

/-- An IP address. -/
inductive NetAddr where
  | v4 (a : BitVec 32)
  | v6 (a : BitVec 128)
  deriving DecidableEq, Repr

/-- Where a datagram came from and went to: the Ethernet port and the VLAN identifier of its frame, 0 for untagged; its
source address and UDP port; its destination address (R306, R327). -/
structure NetFrom where
  eth : Fin 14
  vid : Nat
  src : NetAddr
  udp : BitVec 16
  dst : NetAddr
  deriving DecidableEq, Repr

/-- The settings of R332 in force since the start-up: ADDRESSES, where zero is no address; VLAN by port, identifier and
priority; T1L_AMPL by port, with 1 for 1.0 V. -/
structure NetCfg where
  modV4 : BitVec 32
  lenV4 : Nat
  modV6 : BitVec 128
  lenV6 : Nat
  svcV4 : BitVec 32
  svcV6 : BitVec 128
  gwV4 : BitVec 32
  gwV6 : BitVec 128
  hostV4 : BitVec 32
  hostV6 : BitVec 128
  vlan : List (Nat × Nat × Nat)
  ampl : List (Nat × Nat)
  deriving DecidableEq, Repr

/-- A word in an inter-domain queue, and a write that its full queue holds back (R325, R326). -/
structure DomainQueue where
  words : List Nat
  held : Option Nat
  deriving DecidableEq, Repr

/-- A session with its record (R304, R305, R314). -/
structure Session where
  state : Nat
  subId : Nat
  port : Nat
  never : Bool
  pipSkip : Bool
  pipJump : Bool
  pipRepeat : Bool
  crcFail : Bool
  age : Nat
  epoch : Nat
  rxTime : Nat
  measTime : Nat
  pip : Nat
  status : Nat
  q : Nat
  tf : Nat
  tr : Nat
  dp : Nat
  skipped : Nat
  seqHi : Nat
  /-- Sequence numbers seen among the 64 up to SEQ_HI (R313). -/
  seen : List Nat
  pipLast : Option Nat
  txSeq : Nat
  /-- Time of the first JOIN of a pending session, of its latest JOIN, and of the latest accepted datagram. -/
  joined : Nat
  lastJoin : Nat
  lastRx : Nat
  key : List Byte
  /-- Where the latest accepted datagram came from; replies go there (R306). -/
  src : Option NetFrom
  /-- The session is bound to a substation of the model (R303). -/
  bound : Bool
  deriving DecidableEq, Repr

/-- The session engine (R303 to R320). -/
structure Ses where
  live : List (Nat × Session)
  /-- Records frozen at the latest network-cycle instant, those of the latest closed snapshot and of the one before. -/
  frozen : List (Nat × Session)
  snap : List (Nat × Session)
  prev : List (Nat × Session)
  /-- Records as they were before the first datagram stamped at or after an instant that is still to come (R315). -/
  early : List (Nat × Session)
  acc : Nat
  /-- Transmit queue of COMMAND datagrams (R318): session, SUB_ID, epoch, SEQ and payload. -/
  txq : List (Nat × Nat × Nat × Nat × List Byte)
  /-- COMMAND datagrams sent this network cycle, by session. -/
  sent : List (Nat × Nat)
  /-- Highest epoch ever admitted, by SUB_ID, in the configuration partition (R309). -/
  epochs : List (Nat × Nat)
  /-- Time of the latest REFUSE, by SUB_ID (R309). -/
  refusedAt : List (Nat × Nat)
  /-- The SEQ of the latest datagram sent in each epoch, by SUB_ID and epoch (R306, assumption 8). -/
  txLast : List (Nat × Nat)
  deriving DecidableEq, Repr

/-- A key-store slot that holds a key (R429, R430): the key, its attributes, and COUNTER[15:0] at its last write. -/
structure KeySlot where
  key : List Byte
  attr : Nat
  gen : Nat
  deriving DecidableEq, Repr

/-- A key-store copy whose tag verifies (R434). -/
structure KsCopy where
  counter : Nat
  slots : List (Nat × KeySlot)
  deriving DecidableEq, Repr

/-- An authority message that has passed the checks of R435 and is being carried out (R436). -/
structure AuthMsg where
  typ : Nat
  counter : Nat
  /-- The store image that is being written, and into which copy. -/
  image : List (Nat × KeySlot)
  toB : Bool
  /-- Fuse bits to burn, as word and mask, in order; and an owner key to store: slot and bytes. -/
  burns : List (Nat × Nat)
  owner : Option (Nat × List Byte)
  /-- The body word of an SVN_COMMIT. -/
  commit : Nat
  sender : Nat
  reqId : Nat
  /-- The new copy is written and in force. -/
  written : Bool
  deriving DecidableEq, Repr

/-- Fuses, keys and authority messages beside the SEC and FUSE registers (17). -/
structure Sec where
  /-- The fuse array, by word, where not zero. -/
  fuses : List (Nat × Nat)
  /-- The key slots in force, and the stored copies. -/
  keys : List (Nat × KeySlot)
  ksA : Option KsCopy
  ksB : Option KsCopy
  /-- The copy, 0 for A and 1 for B, whose repair at a restore waits for writes to resume (R436, R467). -/
  repair : Option Nat
  /-- The engine that decrypts images holds the key of the latest one (R431). -/
  imageKey : Bool
  /-- The bytes that supervisor stores have left in the configuration partition, by address (R489). -/
  cfgOver : List Host.Cell
  /-- Owner public keys of the owner key record, by slot (R426). -/
  owners : List (Nat × List Byte)
  /-- The message in progress, and whether its copy has been written. -/
  msg : Option AuthMsg
  /-- Burns that wait or run: word and mask (R420). -/
  burning : List (Nat × Nat)
  /-- SVN commits whose event is still to come: 0 runtime or 1 program, and the SVN (R424). -/
  commits : List (Nat × Nat)
  /-- The generation of the identity in force since the reset (R427, R433). -/
  gen : Nat
  /-- The slot that is re-masked next, and the first share of each slot; the second is its XOR with the key (R429). -/
  remask : Nat
  shares : List (Nat × Nat)
  deriving DecidableEq, Repr

/-- A digest entry (R289) with the time it was formed or received. -/
structure DigestEntry where
  source : Nat
  task : Nat
  inst : Nat
  digest : Nat
  at_ : Nat
  deriving DecidableEq, Repr

/-- The job that an event of the solver concerns: the hydraulic-class job, the ply, the oldest study, or the dispatch
job (R58). -/
inductive JobSel where
  | hyd
  | ply
  | study
  | dpo
  deriving DecidableEq, Repr

/-- A job by its KIND (R58) and its cycle number, ticket or dispatch index (R284). -/
structure JobId where
  kind : Nat
  ident : Nat
  deriving DecidableEq, Repr

/-- The end of a job as a JOB frame tells it (R284, R291). `newton` counts the outer iterations of a dispatch job; a ply
that still ran at Tₖ has OUTCOME 5, ABANDONED. -/
structure JobEnd where
  id : JobId
  outcome : Nat
  newton : Nat
  cg : Nat
  therm : Bool
  retried : Bool
  elapsed : Nat
  /-- The tick of step 5 of R20, for a CYCLE or REFINE job. -/
  tick : Option Nat
  deriving DecidableEq, Repr

/-- A decision of the token holder that a JOB frame carries: the end of a factorisation in a Newton step, completed or
abandoned, or the end of a job (R284, R291). -/
inductive JobEntry where
  | fact (id : JobId) (step : Nat) (completed : Bool)
  | done (e : JobEnd)
  deriving DecidableEq, Repr

/-- A part of the state that STATE frames copy to a joining module (R301, R335, R359). -/
inductive StatePart where
  | bytes (cells : List (Nat × Byte))
  | instances (cells : List (Nat × Byte))
  | mailboxes (cells : List (Nat × Byte))
  | program (slot : Nat) (p : Option Program)
  | forces (l : List (Nat × Force))
  | solver (n : Nsa)
  | loops (l : Lpe)
  | dispatch (d : Dpo)
  | settings (regs : List (Nat × BitVec 32))
  | metering (m : Mtr) (pulses : List (BitVec 32))
  /-- The safe values stored for the next restart (R410). -/
  | safe (v : Nat)
  deriving DecidableEq, Repr

/-- What a HELLO frame says (R284, R286). -/
structure Hello where
  pos : Nat
  idHash : List Byte
  version : Nat
  progSerial : Nat
  progDigest : List Byte
  modelSerial : Nat
  modelDigest : List Byte
  epoch : Nat
  deriving DecidableEq, Repr

/-- What a HEALTH frame says (R284, R292). -/
structure Health where
  score : Nat
  fatal : Bool
  penalties : Nat
  role : Nat
  inSync : Bool
  diag : Nat
  deriving DecidableEq, Repr

/-- The content of a Furov frame, by TYPE (R284). -/
inductive FurovBody where
  | hello (h : Hello)
  | ack (seq : Nat)
  | input (task period : Nat) (img : List (Nat × Byte)) (forces : List (Nat × Force)) (shared : List (Nat × Byte))
  | tick (tick : Nat) (samples : List (Nat × Byte)) (forces : List (Nat × Option Force))
  | snapshot (k : Nat) (recs : List (Nat × Session)) (thermal electric : List (Nat × Int)) (missing : List Nat)
      (samples : List MtrFwd)
  | digest (e : DigestEntry)
  | health (h : Health)
  | forward (typ at_ : Nat) (body : List Byte)
  | state (part : StatePart)
  | time (tb1 rx : Nat)
  | token (held : Bool) (release tick : Nat)
  | job (e : JobEntry)
  deriving DecidableEq, Repr

/-- A frame of the Furov link: FLAGS.RETX, EPOCH with its direction bit, SEQ, and the content (R283). -/
structure FurovFrame where
  retx : Bool
  epoch : Nat
  seq : Nat
  body : FurovBody
  deriving DecidableEq, Repr

/-- A 64-bit block of the 64b/66b coding, a control or a data block, with its bytes from byte 0 up (R282). -/
structure LineBlock where
  ctl : Bool
  bytes : List Byte
  deriving DecidableEq, Repr

/-- The transmitter of the link: blocks sent since the last alignment markers, markers sent, and frames sent (R282). -/
structure LaneTx where
  pos : Nat
  marks : Nat
  frames : Nat
  deriving DecidableEq, Repr

/-- A message that the module has sent: QHC replies and unsolicited messages, QSP datagrams, Furov frames, PTP
messages, frames of the serial channels, and address announcements. -/
inductive OutMsg where
  /-- A reply, with the datagrams that carry it on Ethernet; one to the mailbox goes through the outbound mailbox (R329, R331). -/
  | qhcReply (sender reqId typ status : Nat) (payload : List Byte) (datagrams : List (List Byte))
  /-- An unsolicited message from a module address to a host address, with its datagrams (R329, R334). -/
  | qhcUnsol (src dst : NetAddr) (reqId typ : Nat) (payload : List Byte) (datagrams : List (List Byte))
  /-- A QSP datagram to a source address and port, with its bytes (R306). -/
  | qsp (dest : Option NetFrom) (sub epoch typ seq : Nat) (payload datagram : List Byte)
  /-- A frame, and its blocks each with its lane (R282, R283). -/
  | furov (f : FurovFrame) (blocks : List (Nat × LineBlock))
  | ptp (port typ : Nat) (payload : List Nat)
  /-- A CAN frame: words 0 to 2 of its slot, the DLC on the bus, and its data (R384); `CANn_XLM` marks the data phase of an XL
  one (R378). -/
  | can (ch w0 w1 af dlc : Nat) (payload : List Byte)
  /-- What a channel drives in a frame that it receives: the dominant acknowledge bit, and `CANn_XLM` in the data phase of an XL
  frame (R378, R382). -/
  | canSeen (ch : Nat) (ack xlm : Bool)
  /-- A frame of a UART, with the bit times that `UARTn_DE` is high before and after it (R392). -/
  | uart (n lead trail : Nat) (payload : List Byte)
  /-- A gratuitous ARP, and an unsolicited neighbour advertisement with its override flag, on a port with its VLAN
  identifier and priority (R319). -/
  | arp (port vid prio : Nat) (addr : BitVec 32)
  | neighbour (port vid prio : Nat) (addr : BitVec 128) (override : Bool)
  | msi (vector : Nat)
  deriving DecidableEq, Repr

/-- A host-channel message under reassembly, by sender and REQ_ID (R329). -/
structure Reassembly where
  sender : Nat
  reqId : Nat
  typ : Nat
  total : Nat
  /-- Fragment index, payload, and whether it carried LAST. -/
  frags : List (Nat × List Byte × Bool)
  at_ : Nat
  /-- It has been refused, or repeats a request whose reply is kept: its other fragments get no further reply (R331). -/
  answered : Bool
  deriving DecidableEq, Repr

/-- An unsolicited message that waits for its reply (R334). -/
structure Unsol where
  reqId : Nat
  typ : Nat
  payload : List Byte
  sends : Nat
  /-- What it carries: a committed state's cycle, an event's SEQ, or a request's REQ_ID. -/
  key : Nat
  deriving DecidableEq, Repr

/-- The host channel (R327 to R334). -/
structure Qhc where
  parts : List Reassembly
  /-- The host channel counts as lost (R334). -/
  lost : Bool
  /-- Time of the latest valid host datagram, and whether one has come since the restart. -/
  lastRx : Nat
  out : List Unsol
  nextId : Nat
  /-- The key-store slot of the MACSEC setting in force, by Ethernet port (R328, R332). -/
  macSlot : List (Nat × Nat)
  /-- The key of the secure association installed on a port (R328, R431). -/
  macKey : List (Nat × List Byte)
  pcieUp : Bool
  /-- OUT_CTRL.FULL has been cleared since the reset (R334). -/
  outSeen : Bool
  /-- The outbound mailbox, empty while OUT_CTRL.FULL is 0, and the datagrams that wait for it (R333). -/
  outBox : List Byte
  outQ : List (List Byte)
  /-- IN_CTRL.FULL, and IN_LEN and IN_DATA by word offset where not zero (R333). -/
  inFull : Bool
  inBox : List (Nat × Nat)
  /-- Replies kept by sender and REQ_ID, newest last: type, status, payload (R331). -/
  kept : List (Nat × Nat × Nat × Nat × List Byte)
  /-- The highest SEQ sent in an EVENT message since the channel came up (R452). -/
  evSent : Nat
  deriving DecidableEq, Repr

/-! ### The pair (11) -/

/-- Pair operation beside its registers (R270 to R301). -/
structure Red where
  own : List DigestEntry
  peer : List DigestEntry
  /-- TB0 time in ns at which TOKEN_HOLD_IN fell last, while it is low, and at which this module last gave up or took the
  token: the hold timer runs on over a reset, so both may lie before this restart (R469). -/
  fall : Option Int
  lastSwitch : Option Int
  /-- The peer's TOKEN frame says that it holds the token, when it released it last, and the tick of its latest emission
  (R281, R284). -/
  peerHolds : Bool
  peerRelease : Nat × Nat
  /-- The key that the keeper accepted last, none while its refresh timer is idle (R276). -/
  keeperKey : Option Nat
  /-- The level of TOKEN_KEEPER_OK, and whether the keeper's own self-test passes (R276). -/
  keeperOk : Bool
  keeperTest : Bool
  /-- The hold latches are engaged; RED_STALE.HOLD_MS has expired since (R275, R298). -/
  latched : Bool
  holdOver : Bool
  /-- The CAUSE bit of a warm restart that follows once the latches are released or have taken the safe values (R276,
  R295). -/
  restartDue : Option Nat
  diagnosing : Bool
  diagFailed : Bool
  /-- A diagnosis that the active module failed, or whose outcome the link's failure hid, calls for a take by this standby, which
  passed (R294, R296). -/
  takeCalled : Bool
  /-- Times of pass-and-pass outcomes within the last hour (R294). -/
  passPass : List Nat
  /-- The lockout of R294, until RELEASE_LOCKOUT or a cold restart. -/
  lockedOut : Bool
  switchAsked : Bool
  /-- A take is under way: item 1 of its tick is due 10 µs after it (R277). -/
  taking : Bool
  /-- Times in ns at which the announcements of the latest take are still to be repeated (R319). -/
  announceAt : List Nat
  txSeq : Nat
  rxSeq : Nat
  /-- Frames sent and not acknowledged, with the retransmissions of each (R285). -/
  unacked : List (FurovFrame × Nat)
  laneTx : LaneTx
  /-- The peer's latest HELLO shows the same running program and active model (R286). -/
  peerSame : Bool
  /-- A module that waited for the link asks for R301 when the peer reports that it holds the token (R297, R300). -/
  joining : Bool
  /-- Times of rerolls and of corrected errors in the last 10 s (R292). -/
  rerolls : List Nat
  corrected : List Nat
  /-- The loop evaluations of a standby's tick wait for its TICK frame (R287). -/
  tickDue : Bool
  /-- The peer's HEALTH frames show no penalty 8 (R345). -/
  peerLocked : Bool
  linkDownAt : Option Nat
  /-- Tasks of a standby whose period has started and waits for its INPUT frame (R287). -/
  inputDue : List Nat
  /-- Force changes of the present tick for the TICK frame, and on a standby those that wait for their tick, by its TB1
  time in ns (R259, R284). -/
  forceChg : List (Nat × Option Force)
  forcesAt : List (Nat × Nat × Option Force)
  /-- JOB entries of a standby that its own jobs have still to follow (R291). -/
  jobFacts : List (JobId × Nat × Bool)
  jobEnds : List JobEnd
  /-- The tick at which a standby switches to its latest committed state, and the samples of that tick while its loop
  evaluations wait for the state (R291). -/
  switchAt : Option Nat
  tickHeld : Option (List (Nat × Byte))
  /-- The STATE parts that a SYNCING peer has been sent, and whether the metering copy has gone (R301). -/
  sentParts : List StatePart
  mtrSent : Bool
  /-- The kinds of STATE parts that a SYNCING module has received (R480, R484). -/
  gotParts : List Nat
  /-- The key that the Furov link fetched at its latest training (R431). -/
  furovKey : Option (List Byte)
  deriving DecidableEq, Repr

/-! ### Event recorder (18) -/

/-- A record waiting in the buffer (R440, R443). -/
structure EvrRec where
  time : Nat
  deferred : Bool
  unsealed : Bool
  sev : Nat
  task : Nat
  block : Nat
  event : Nat
  cycle : Nat
  items : List Nat
  deriving DecidableEq, Repr

/-- The recorder's own state beside its registers; the slots are bytes of MRAM (R439). -/
structure Evr where
  buf : List EvrRec
  /-- Records carried across a WARM or COLD reset in DRAM (R448, R471). -/
  carried : List EvrRec
  /-- (slot, SEQ, severity) of every held slot, and the retired slots (R445, R446). -/
  index : List (Nat × Nat × Nat)
  retired : List Nat
  sealKey : Option (List Byte)
  /-- A search started by EVR_SEEK_HI is under way (R451). -/
  seeking : Bool
  /-- Committed states kept for the host, and whether each has been sent (R453). -/
  states : List NetState
  deriving DecidableEq, Repr

/-! ### Network time (13) -/

/-- A master that a domain hears through its Announce messages (R346). -/
structure PtpMaster where
  port : Nat
  src : Nat
  /-- Its data set in the order of comparison before the grandmaster identity, and the topology part after it. -/
  rank : List Nat
  topo : List Nat
  gm : Nat
  ptpTs : Bool
  utcValid : Bool
  utc : Int
  leap : Nat
  /-- Announce interval in ns, and announceReceiptTimeout. -/
  interval : Nat
  timeout : Nat
  /-- TB0 times in ns of its latest Announce and of the one before. -/
  last : Nat
  before : Option Nat
  deriving DecidableEq, Repr

/-- A PTP domain (R348, R349). Times are in units of 2⁻³⁹ ns. -/
structure PtpDom where
  masters : List PtpMaster
  master : Option Nat
  /-- A two-step Sync that waits for its Follow_Up: sequenceId, receive time on TB0, correction. -/
  held : Option (Nat × Int × Int)
  /-- A Follow_Up that came before its Sync: sequenceId, origin timestamp, correction. -/
  early : Option (Nat × Nat × Int)
  /-- Master time and TB0 time of accepted Syncs, newest first. -/
  syncs : List (Int × Int)
  good : Nat
  bad : Nat
  /-- TB0 time of the latest accepted Sync and the Sync interval, in ns. -/
  lastSync : Nat
  syncInt : Nat
  mpd : Int
  /-- Receive time less master time of the latest Sync. -/
  d21 : Int
  /-- A Delay_Req on its way: sequenceId and transmit time on the domain's base. -/
  dreq : Option (Nat × Int)
  lockedSince : Nat
  lockAdj : Int
  deriving DecidableEq, Repr

/-- An entry of a transmit timestamp queue (R356); the time in ns. -/
structure TxTs where
  id : Nat
  base : Nat
  time : Nat
  deriving DecidableEq, Repr

/-- A Pdelay_Req on its way (R354): sequenceId, transmit time, and receive time and t2 of a two-step reply. -/
structure PdReq where
  seq : Nat
  tx : Int
  resp : Option (Int × Int)
  delay : Int
  deriving DecidableEq, Repr

/-- A Follow_Up held by the transparent clock, or a Sync's residence that waits for one (R354). -/
structure TcItem where
  isSync : Bool
  dom : Nat
  port : Nat
  src : Nat
  seq : Nat
  /-- Residence and link delay of the Sync, or correction and origin of the Follow_Up. -/
  corr : Int
  origin : Nat
  at_ : Nat
  deriving DecidableEq, Repr

/-- The time bases and the servo state beside the TIM registers (R338 to R357). Times are counts of 2⁻³⁹ ns, so
that one TIME cycle adds 2⁴⁰ + ADJ exactly (R338, assumption 11). -/
structure Tim where
  tb0 : Nat
  tb1 : Nat
  tb2 : Nat
  tb3 : Nat
  tb7 : Nat
  /-- How far the source base has come within the present TIME cycle (R338, R342). -/
  phase : Nat
  /-- The residual Δ1 (R342). -/
  d1 : Int
  /-- ADJ at which S runs on in holdover (R345). -/
  holdAdj : Int
  /-- The latest tick whose loop evaluations have run. -/
  tick : Nat
  /-- TB6 less TB0 (R350). -/
  peer : Int
  /-- The estimates of that difference by the latest 16 exchanges, newest first, and the receive time of the peer's latest
  TIME frame in ns on TB1 (R350). -/
  estimates : List Int
  peerRx : Nat
  domA : PtpDom
  domB : PtpDom
  txts : List (Nat × List TxTs)
  pdelay : List (Nat × PdReq)
  tc : List TcItem
  deriving DecidableEq, Repr

/-! ### The real-time clock (14) -/

/-- The calendar and what belongs to it beside the RTC registers (R360 to R375). -/
structure Rtc where
  year : Nat
  month : Nat
  day : Nat
  hour : Nat
  min : Nat
  sec : Nat
  wday : Nat
  /-- The prescaler as the latest second edge, command or capture left it (R363). -/
  sub : Nat
  /-- Raw resonator pulses of the trim window up to that point (R373). -/
  raw : Nat
  /-- The countdown. -/
  cnt : Nat
  /-- The command that waits for its resonator edge (R368). -/
  cmd : Option Nat
  /-- TB0 at the latest second edge, in units of 2⁻³⁹ ns (R353). -/
  edge : Int
  /-- Raw resonator pulses of the countdown's present second (R372). -/
  cntPre : Nat
  /-- TB0 and TB1 times in ns at which the measurement in progress started, the positive-going zero crossings of phase a since
  then, and whether phase a was negative at the latest conversion (R374). -/
  measAt : Nat
  measFrom : Nat
  crossings : Nat
  mainsNeg : Bool
  /-- The result of a measurement whose trim is still to be written, and the TB1 time in ns of the second that a SET of the
  runtime waits for (R375). -/
  trimDue : Option Nat
  setAt : Option Nat
  deriving DecidableEq, Repr

/-! ### CAN and serial channels (15) -/

/-- A CAN channel beside its registers (R378 to R391). -/
structure CanCh where
  seq : Nat
  lost : Bool
  wakeErr : Nat
  /-- TX_PUT at an ABORT while a frame was in transmission: the frames up to it complete ABORTED (R383). -/
  abortTo : Option Nat
  /-- A mode written while a frame was in progress, which takes effect at its end (R390). -/
  modeTo : Option Nat
  boffAt : Nat
  deriving DecidableEq, Repr

/-- The copy of a CAN_TX frame queued last (R387): its data, its transmit index, and whether copies are skipped. -/
structure CanCopy where
  data : List Byte
  index : Nat
  skipping : Bool
  deriving DecidableEq, Repr

/-- A UART beside its registers (R392 to R394). -/
structure UartCh where
  seq : Nat
  lost : Bool
  /-- An echo differed since the latest stored slot. -/
  echo : Bool
  abortTo : Option Nat
  /-- The end of the module's own latest frame on the line, in ns of TB1's 64-bit view; 0 once a frame has closed since (R394). -/
  idle : Nat
  deriving DecidableEq, Repr

/-- A Modbus poll (R395): the latest reply's data, whether a reply is awaited, whether one has closed since the latest
item 2, and the age of the data in task periods. -/
structure Poll where
  data : Option (List Byte)
  awaited : Bool
  fresh : Bool
  age : Nat
  deriving DecidableEq, Repr

/-- The serial channels and the I/O map's message-borne values, the latter by index of their record. -/
structure Ser where
  can : Vector CanCh 4
  uart : Vector UartCh 4
  /-- The latest matching frame of a CAN_RX record: its data and its time in ns (R386). -/
  canRx : List (Nat × List Byte × Nat)
  canTx : List (Nat × CanCopy)
  polls : List (Nat × Poll)
  deriving DecidableEq, Repr

/-! ### Field inputs and outputs (16) -/

/-- The field stages beside the FIO registers (R398 to R411). -/
structure Fio where
  /-- Filtered states and raw counts now; the registers show the latest capture. -/
  filt : Nat
  cnt : List (Nat × Nat)
  /-- Reference levels at the previous tick, and captures in a row that disagree with them, by channel (R409). -/
  prevRef : Nat
  disagree : List (Nat × Nat)
  /-- The tick after that of the latest capture, 0 before the first; groups held off as reversed (R399). -/
  capTick : Nat
  held : List Nat
  /-- A capture has shown the supplies since the field stages were reset (R409, R469). -/
  seen : Bool
  /-- Channels and groups off under R405, with the TB0 time in ns at which their 100 ms end. -/
  chOff : List (Nat × Nat)
  grpOff : List (Nat × Nat)
  /-- The levels that the hold latches keep, on a standby the hold image of the peer (R277), and whether a restart's unbound channels have left them (R273, R411). -/
  latch : Nat
  unbound : Bool
  /-- The safe values in the token keeper (R410). -/
  safe : Nat
  /-- The levels last driven by the emitted image (R274). -/
  emitted : Nat
  deriving DecidableEq, Repr

/-! ### The configuration partition, saves and start-up (19, 20, 21) -/

/-- What the configuration partition stores beside the key store, the owner keys, the branch service mask and the
epochs of sessions (R489). -/
structure Settings where
  rtSlot : Nat
  progSlot : Nat
  modelSlot : Option Nat
  furovEpoch : Nat
  taiOffset : Int
  pwrWarm : Bool
  gates : Nat
  safe : Nat
  /-- The directory of the instances that retain memory holds (R263). -/
  retDir : List InstRec
  /-- Other settings of R332 by 16 · KEY + port, as their value bytes. -/
  values : List (Nat × List Byte)
  deriving DecidableEq, Repr

/-- A warm-restart save (R465). -/
structure Save where
  seq : Nat
  serial : Nat
  hs : Nat
  time : Nat
  committed : Option NetState
  table : Option DecTable
  mtrRegs : List (Nat × Nat)
  pacc : List (Nat × Nat)
  /-- Pulse backlogs and the counters of every block, by register address. -/
  counters : List (Nat × Nat)
  /-- Its CRC checks; it has been marked stale (R466). -/
  valid : Bool
  stale : Bool
  deriving DecidableEq, Repr

/-- An on-line program exchange that waits for X (R265, R266). -/
structure Exchange where
  slot : Nat
  prog : Program
  accepted : Nat
  /-- The standby has reported the same digest as valid; X once it is set. -/
  confirmed : Bool
  at_ : Option Nat
  deriving DecidableEq, Repr

/-- Start-up and reset beside the SYS, CLK and PWR registers (R456 to R478). -/
structure Boot where
  /-- 0 in reset, 1 released, 2 runtime started, 3 restored, 4 run state. -/
  stage : Nat
  /-- Kind of the reset that is in progress or was the latest (1 FULL, 2 WARM, 3 COLD), and the causes pending. -/
  kind : Nat
  causes : Nat
  /-- The restart that follows (1 warm, 2 cold). -/
  restart : Nat
  /-- What a FULL reset still waits for: qualification, the PLLs, power-good and the plate. -/
  qualified : Bool
  power : Bool
  hot : Bool
  /-- ns from G or E to R, and TB0 in ns at the start of the runtime. -/
  before : Nat
  runtimeAt : Nat
  /-- TB0 time of the first link-up of a PTP port. -/
  linkAt : Option Nat
  /-- SEQ of the save that the restart used, 0 for none (R471). -/
  saveSeq : Nat
  /-- The PTP wait limit has passed; network control has been reported. -/
  waitOver : Bool
  network : Bool
  /-- The QUAL_DELAY strap as read for this FULL reset (R457). -/
  strap : Option Nat
  /-- TB1 has run on a source since the module restarted (R478). -/
  tb1Seen : Bool
  /-- A program image ran when the reset began (R468). -/
  ranProg : Bool
  /-- The clock switches in progress, by CLK_SRC bit with the new value (R459). -/
  switching : List (Nat × Bool)
  /-- TB1 time in ns of the latest supply warning, and the MRAM unit that it found in flight: 1 an event record, 2 a
  key-store copy, 0 none of these (R464). -/
  dipAt : Nat
  unit : Nat
  /-- The warning came in run state, and its save has still to start: it follows the unit in flight (R465). -/
  saveDue : Bool
  /-- The lowest VIN in mV measured during the dip (R466). -/
  dipMin : Nat
  /-- The runtime settings as the configuration partition holds them, while writes are frozen and those in force may differ
  (R464). -/
  stored : Option Settings
  /-- Hardware faults of the system cores: the core and the TB0 time in ns (R468). -/
  sysFault : List (Nat × Nat)
  /-- PLLs that failed to lock in time, whose event waits until the module runs (R456). -/
  pllLate : List Nat
  /-- A save was cut off at the reset level (R467). -/
  cutOff : Bool
  /-- A WARM or COLD reset that waits for a save: its kind (R467). -/
  resetDue : Option Nat
  /-- The Ethernet ports whose link is up. -/
  ports : List Nat
  /-- The recovery image that runs, by offset; its place in DRAM is stated nowhere (R425). -/
  recovery : Mem
  /-- The restart kind has taken effect (R477 step 8). -/
  effect : Bool
  /-- TB1 time in ns at which run state was entered (R480). -/
  runAt : Nat
  deriving DecidableEq, Repr

end Sys2Proof.Machine
end

