-- ==== Sys2Proof/Syntax.lean ====
section
/-!
DEFINITION. The commands of the block (spec/opcode_table.json) and the types of their operands.
-/
namespace Sys2Proof

/-- Where an instruction met an uncorrectable error: the DETAIL values of ECC (R184). -/
inductive EccPlace where
  | registers
  | cache
  | sram
  | dram
  | mram
  deriving DecidableEq, Repr

/-- The unit whose residue check failed: the DETAIL values of RESIDUE (R184). -/
inductive ResidueUnit where
  | alu
  | multiplier
  | divider
  | addressGen
  deriving DecidableEq, Repr

/-- A hardware fault that an instruction meets (R184, R187): nothing, an uncorrectable error in a word read
(DETAIL 1 to 5; `fetch` when the word is the instruction's own, else which 8-byte word of the data it reads, R513), a
residue mismatch, or a difference of the two binary64 units. `corrected` is an error that the code corrected (R190). -/
inductive HwFault where
  | none
  | corrected
  | ecc (place : EccPlace) (fetch : Bool) (word : Nat)
  | residue (unit : ResidueUnit)
  | fpcmp
  deriving DecidableEq, Repr

/-- One instruction issued on a core (0 to 3 the scan cores, 4 and 5 the system cores), with the fault it meets. -/
structure Issue where
  core : Fin 6
  fault : HwFault
  deriving DecidableEq, Repr


/-- A PTP message of a kind that the module supports, or of one that R346 names as not supported. -/
inductive PtpKind where
  | plain
  | management
  | signalling
  | unicast
  | alternateMaster
  | security
  | alternateTimescale
  deriving DecidableEq, Repr

/-- What a received PTP message carries beside its own fields (R346): its kind, the port, the domain number and transport,
the sequenceId, the sourcePortIdentity, the correctionField in 2⁻¹⁶ ns, the logMessageInterval, and the TB0 stamp of the
frame in ns (R355); and the ports out of which the switch forwards it, each with the TB0 stamp there (R354). -/
structure PtpHdr where
  kind : PtpKind
  port : Fin 14
  domain : Nat
  transport : Nat
  seq : Nat
  src : Nat
  corr : Int
  log : Int
  rx : Nat
  out : List (Fin 14 × Nat)
  deriving DecidableEq, Repr

/-- The data set of an Announce message (R346). -/
structure AnnounceBody where
  prio1 : Nat
  cls : Nat
  acc : Nat
  var : Nat
  prio2 : Nat
  gm : Nat
  steps : Nat
  ptpTs : Bool
  utcValid : Bool
  utc : Int
  leap61 : Bool
  leap59 : Bool
  timeout : Nat
  deriving DecidableEq, Repr

/-- A CAN frame on the bus (R384): its kinds and fields, the DLC, and the data bytes. -/
structure CanFrame where
  xl : Bool
  fdf : Bool
  ide : Bool
  rtr : Bool
  brs : Bool
  esi : Bool
  sec : Bool
  id : BitVec 29
  dlc : BitVec 4
  vcid : BitVec 8
  sdt : BitVec 8
  af : BitVec 32
  data : List (BitVec 8)
  deriving DecidableEq, Repr

/-- A request of the host channel without its type and payload: where its datagrams came from, none for the PCIe mailbox
(R327), the REQ_ID, and whether MACsec protected its frames (R328). -/
structure HostReq where
  via : Option Machine.NetFrom
  reqId : BitVec 32
  secured : Bool
  deriving DecidableEq, Repr

/-- The sender address of a request (R329): 0 is PCIE. -/
def HostReq.sender (r : HostReq) : Nat :=
  match r.via with
  | none => 0
  | some f => match f.src with
    | .v4 a => 1 + a.toNat
    | .v6 a => 2 ^ 32 + 1 + a.toNat

/-- The header of a received QSP datagram with its source (R306): VER, LEN, the length of the UDP payload, SUB_ID, KEY_EPOCH
and SEQ; its receive timestamp in ns on TB1, and whether its tag verifies. -/
structure QspHdr where
  src : Machine.NetFrom
  ver : BitVec 8
  len : Nat
  size : Nat
  sub : BitVec 32
  epoch : BitVec 32
  seq : BitVec 64
  rx : Nat
  tagOk : Bool
  deriving DecidableEq, Repr

/-- What a poisoned word of an inter-domain queue reaches (R326): a core, as an ECC fault of a word it reads; a cluster of a
running job, as a fault of a unit; or a port or another block, which drops it. -/
inductive Poisoned where
  | core (c : Fin 6) (place : EccPlace) (addr : BitVec 64)
  | cluster (sel : Machine.JobSel) (cluster : Fin 8) (second : Bool) (steps phase its elapsed : Nat)
  | dropped
  deriving DecidableEq, Repr

/-- How a word is read from an inter-domain queue (R326). -/
inductive QueueRead where
  | good
  | corrected
  | poisoned (by_ : Poisoned)
  deriving DecidableEq, Repr

/-- What happens at an inter-domain queue: a producer writes a word, or the consumer reads one (R326). -/
inductive QueueOp where
  | write (w : Nat)
  | read (r : QueueRead)
  deriving DecidableEq, Repr

/-- What the cryptographic checks of an image or a message answer: whether its signature verifies, and what its
encrypted part decrypts to, none where the tag fails (R423, R435); and whether RECOVERY_N is low (R433). -/
structure Verdict where
  sigOk : Bool
  plain : Option (List (BitVec 8))
  recovery : Bool
  deriving DecidableEq, Repr

/-- An access of the inbound mailbox: the PCIe side writes a word at an offset of BAR4, or the module takes the datagram of a
mailbox that was full when the runtime came up (R333). `v` answers the cryptographic checks of a message that completes. -/
inductive MailboxOp where
  | write (off : BitVec 16) (w : BitVec 32) (v : Verdict)
  | take (v : Verdict)
  deriving DecidableEq, Repr

/-- Where and when a frame arrives: its port, and the TB1 stamp in ns of its start-of-frame delimiter there (R355). -/
structure Arrival where
  port : Fin 14
  stamp : Nat
  deriving DecidableEq, Repr

/-- A delay request sent: its sequenceId, and the TB0 stamp in ns of its start-of-frame delimiter (R348, R355). -/
structure PtpReq where
  seq : BitVec 16
  tx : Nat
  deriving DecidableEq, Repr

/-- A Furov frame as received: whether its tag verifies, its EPOCH and SEQ, and its TYPE where that is none of R284
(R283). -/
structure FurovHdr where
  tagOk : Bool
  epoch : BitVec 32
  seq : Nat
  unknown : Option (BitVec 8)
  deriving DecidableEq, Repr

/-- A runtime image that the boot ROM accepted over the PCIe mailbox: its bytes by offset where not zero, the number of
bytes that came, and whether its signature verifies (R425). -/
structure RecoveryImage where
  cells : List (Nat × BitVec 8)
  len : Nat
  sigOk : Bool
  deriving DecidableEq, Repr

/-- What the boot ROM and the runtime meet at start-up (R425): a difference between the fuse reads; whether the signatures
of runtime slots A and B verify; whether RECOVERY_N is low, and the recovery image that came; uncorrectable errors in the
key-store copies; whether the keeper's self-test passes (R276); and the scan cores and clusters that fail theirs (R83,
R255). -/
structure BootIn where
  readErr : Bool
  sigA : Bool
  sigB : Bool
  recovery : Bool
  image : Option RecoveryImage
  errA : Bool
  errB : Bool
  keeperOk : Bool
  cores : BitVec 4
  clusters : BitVec 8
  deriving DecidableEq, Repr

/-- The commands: one constructor per row of the opcode table. -/
inductive Instr where
  /-- REGISTER_WRITE (R8). -/
  | registerWrite (a : BitVec 64) (v : BitVec 32) (size : Fin 9) (pcie : Bool)
  /-- LOCK (R10). -/
  | lock (b : Fin 22) (n : Fin 4)
  /-- CLEAR_COUNTERS (R88). -/
  | clearCounters (b : Fin 22) (n : Fin 4)
  /-- CLR_SAT (R127). -/
  | clrSat
  /-- CLR_MAX (R269). -/
  | clrMax
  /-- CANCEL_STUDY (R88). -/
  | cancelStudy
  /-- LOOP_ENGINE_TICK (R116). -/
  | loopEngineTick (vin temp : BitVec 16)
  /-- PULSE_END (R154). -/
  | pulseEnd (p : Fin 8)
  /-- FIELD_CAPTURE (R401). -/
  | fieldCapture (rb : BitVec 16) (v0 v1 : Int)
  /-- DI_FILTER_ACCEPT (R400). -/
  | diFilterAccept (di : Fin 32) (level : Bool)
  /-- DO_CURRENT_LIMIT_OFF (R405). -/
  | doCurrentLimitOff (ch : Fin 16)
  /-- DO_RETRY (R405). -/
  | doRetry (ch : Fin 16)
  /-- GROUP_OVERCURRENT_OFF (R405). -/
  | groupOvercurrentOff (g : Fin 2)
  /-- GROUP_RESTORE (R405). -/
  | groupRestore (g : Fin 2)
  /-- SAFE_WRITE (R410). -/
  | safeWrite (v : BitVec 32)
  /-- AFE_CONVERSION (R412). -/
  | afeConversion (vals : List Int)
  /-- AFE_SAMPLE (R139). -/
  | afeSample (ch : Fin 2) (ix : Nat) (v c : List Int)
  /-- SV_FRAME_RECEIVE (R140). -/
  | svFrameReceive (appid macLo : BitVec 16) (smpCnt synch : Nat) (vals : List Int) (quals : List (BitVec 32)) (arrival : Arrival)
  /-- SAMPLE_MISSING_TIMEOUT (R141). -/
  | sampleMissingTimeout (ch : Fin 34) (ix : Nat)
  /-- SV_STREAM_LOST (R141). -/
  | svStreamLost (m : Fin 32)
  /-- NETWORK_CYCLE_INSTANT (R20). -/
  | networkCycleInstant (steps phase its : Nat)
  /-- SNAPSHOT_CLOSE (R20). -/
  | snapshotClose
  /-- CHECK_COMPLETE (R96). -/
  | checkComplete (plugErr : Bool)
  /-- REFINE_COMPLETE (R98). -/
  | refineComplete (elapsed : Nat)
  /-- CYCLE_JOB_COMPLETE (R81). -/
  | cycleJobComplete (elapsed : Nat)
  /-- PLY_COMPLETE (R94). -/
  | plyComplete (elapsed : Nat)
  /-- STATE_SWITCH (R20). -/
  | stateSwitch
  /-- HYDRAULIC_DEADLINE (R82). -/
  | hydraulicDeadline (sel : Machine.JobSel) (steps phase its : Nat)
  /-- JOB_DEADLINE (R82). -/
  | jobDeadline (sel : Machine.JobSel) (steps phase its : Nat)
  /-- REFINE_DEADLINE (R99). -/
  | refineDeadline (steps phase its : Nat)
  /-- FACT_BUDGET_EXPIRY (R73). -/
  | factBudgetExpiry (sel : Machine.JobSel) (step : Nat)
  /-- UNIT_RETRY (R82). -/
  | unitRetry (sel : Machine.JobSel) (cluster : Fin 8) (second : Bool) (steps phase its elapsed : Nat)
  /-- STUDY_DONE (R62). -/
  | studyDone (elapsed : Nat)
  /-- MODEL_PREPARATION_DONE (R50). -/
  | modelPreparationDone
  /-- MODEL_VALIDATION_DONE (R47). -/
  | modelValidationDone (slot : Fin 2) (sigOk : Bool)
  /-- DISPATCH_INSTANT (R112). -/
  | dispatchInstant
  /-- DISPATCH_JOB_START (R103). -/
  | dispatchJobStart
  /-- DISPATCH_JOB_END (R111). -/
  | dispatchJobEnd (elapsed : Nat)
  /-- DPO_DEADLINE (R113). -/
  | dpoDeadline (iters elapsed : Nat)
  /-- PLY_OFF (R115). -/
  | plyOff (on : Bool)
  /-- DPO_OFF (R115). -/
  | dpoOff (on : Bool)
  /-- LATCH_INSTANT (R150). -/
  | latchInstant
  /-- LATCH_ELECTRIC_COPY (R150). -/
  | latchElectricCopy
  /-- ARCHIVE_SLOT_WRITE (R151). -/
  | archiveSlotWrite
  /-- MTR_RD_SEL_WRITE (R161). -/
  | mtrRdSelWrite (v : BitVec 32)
  /-- TASK_PERIOD_START (R246). -/
  | taskPeriodStart
  /-- WDOG_EXPIRY (R254). -/
  | wdogExpiry (core : Fin 4)
  /-- IRQ_ENTRY (R184). -/
  | irqEntry (core : Fin 6) (line : BitVec 8)
  /-- UNDEFINED_INSTRUCTION (R194). -/
  | undefinedInstruction (x : Issue) (word : BitVec 32)
  /-- ADD (R195). -/
  | add (x : Issue) (rd ra rb : Fin 32)
  /-- SUB (R195). -/
  | sub (x : Issue) (rd ra rb : Fin 32)
  /-- AND (R195). -/
  | and (x : Issue) (rd ra rb : Fin 32)
  /-- OR (R195). -/
  | or (x : Issue) (rd ra rb : Fin 32)
  /-- XOR (R195). -/
  | xor (x : Issue) (rd ra rb : Fin 32)
  /-- SHL (R195). -/
  | shl (x : Issue) (rd ra rb : Fin 32)
  /-- SHR (R195). -/
  | shr (x : Issue) (rd ra rb : Fin 32)
  /-- SAR (R195). -/
  | sar (x : Issue) (rd ra rb : Fin 32)
  /-- SLT (R195). -/
  | slt (x : Issue) (rd ra rb : Fin 32)
  /-- SLTU (R195). -/
  | sltu (x : Issue) (rd ra rb : Fin 32)
  /-- MUL (R195). -/
  | mul (x : Issue) (rd ra rb : Fin 32)
  /-- MULH (R195). -/
  | mulh (x : Issue) (rd ra rb : Fin 32)
  /-- MULHU (R195). -/
  | mulhu (x : Issue) (rd ra rb : Fin 32)
  /-- DIV (R196). -/
  | div (x : Issue) (rd ra rb : Fin 32)
  /-- DIVU (R196). -/
  | divu (x : Issue) (rd ra rb : Fin 32)
  /-- REM (R196). -/
  | rem (x : Issue) (rd ra rb : Fin 32)
  /-- REMU (R196). -/
  | remu (x : Issue) (rd ra rb : Fin 32)
  /-- MIN (R195). -/
  | min (x : Issue) (rd ra rb : Fin 32)
  /-- MAX (R195). -/
  | max (x : Issue) (rd ra rb : Fin 32)
  /-- MINU (R195). -/
  | minu (x : Issue) (rd ra rb : Fin 32)
  /-- MAXU (R195). -/
  | maxu (x : Issue) (rd ra rb : Fin 32)
  /-- SEXT (R195). -/
  | sext (x : Issue) (rd ra : Fin 32) (w : Fin 3)
  /-- ZEXT (R195). -/
  | zext (x : Issue) (rd ra : Fin 32) (w : Fin 3)
  /-- ADDI (R197). -/
  | addi (x : Issue) (rd ra : Fin 32) (imm : BitVec 16)
  /-- SLTI (R197). -/
  | slti (x : Issue) (rd ra : Fin 32) (imm : BitVec 16)
  /-- SLTIU (R197). -/
  | sltiu (x : Issue) (rd ra : Fin 32) (imm : BitVec 16)
  /-- ANDI (R197). -/
  | andi (x : Issue) (rd ra : Fin 32) (imm : BitVec 16)
  /-- ORI (R197). -/
  | ori (x : Issue) (rd ra : Fin 32) (imm : BitVec 16)
  /-- XORI (R197). -/
  | xori (x : Issue) (rd ra : Fin 32) (imm : BitVec 16)
  /-- SHLI (R197). -/
  | shli (x : Issue) (rd ra : Fin 32) (n : Fin 64)
  /-- SHRI (R197). -/
  | shri (x : Issue) (rd ra : Fin 32) (n : Fin 64)
  /-- SARI (R197). -/
  | sari (x : Issue) (rd ra : Fin 32) (n : Fin 64)
  /-- LUI (R197). -/
  | lui (x : Issue) (rd : Fin 32) (imm : BitVec 21)
  /-- QADD (R198). -/
  | qadd (x : Issue) (rd ra rb : Fin 32)
  /-- QSUB (R198). -/
  | qsub (x : Issue) (rd ra rb : Fin 32)
  /-- QMUL (R198). -/
  | qmul (x : Issue) (rd ra rb : Fin 32) (sh : Fin 63)
  /-- QDIV (R198). -/
  | qdiv (x : Issue) (rd ra rb : Fin 32) (sh : Fin 63)
  /-- QSHL (R198). -/
  | qshl (x : Issue) (rd ra : Fin 32) (sh : Fin 63)
  /-- QSHR (R198). -/
  | qshr (x : Issue) (rd ra : Fin 32) (sh : Fin 63)
  /-- QNEG (R198). -/
  | qneg (x : Issue) (rd ra : Fin 32)
  /-- QABS (R198). -/
  | qabs (x : Issue) (rd ra : Fin 32)
  /-- QMIN (R198). -/
  | qmin (x : Issue) (rd ra rb : Fin 32)
  /-- QMAX (R198). -/
  | qmax (x : Issue) (rd ra rb : Fin 32)
  /-- FADD (R199). -/
  | fadd (x : Issue) (fd fa fb : Fin 16)
  /-- FSUB (R199). -/
  | fsub (x : Issue) (fd fa fb : Fin 16)
  /-- FMUL (R199). -/
  | fmul (x : Issue) (fd fa fb : Fin 16)
  /-- FDIV (R199). -/
  | fdiv (x : Issue) (fd fa fb : Fin 16)
  /-- FSQRT (R199). -/
  | fsqrt (x : Issue) (fd fa : Fin 16)
  /-- FMIN (R200). -/
  | fmin (x : Issue) (fd fa fb : Fin 16)
  /-- FMAX (R200). -/
  | fmax (x : Issue) (fd fa fb : Fin 16)
  /-- FNEG (R200). -/
  | fneg (x : Issue) (fd fa : Fin 16)
  /-- FABS (R200). -/
  | fabs (x : Issue) (fd fa : Fin 16)
  /-- FEQ (R200). -/
  | feq (x : Issue) (rd : Fin 32) (fa fb : Fin 16)
  /-- FLT (R200). -/
  | flt (x : Issue) (rd : Fin 32) (fa fb : Fin 16)
  /-- FLE (R200). -/
  | fle (x : Issue) (rd : Fin 32) (fa fb : Fin 16)
  /-- FCVTDI (R199). -/
  | fcvtdi (x : Issue) (fd : Fin 16) (ra : Fin 32)
  /-- FCVTID (R199). -/
  | fcvtid (x : Issue) (rd : Fin 32) (fa : Fin 16)
  /-- FCVTDQ (R199). -/
  | fcvtdq (x : Issue) (fd : Fin 16) (ra : Fin 32) (n : Fin 32)
  /-- FCVTQD (R199). -/
  | fcvtqd (x : Issue) (rd : Fin 32) (fa : Fin 16) (n : Fin 32)
  /-- FMVDG (R200). -/
  | fmvdg (x : Issue) (fd : Fin 16) (ra : Fin 32)
  /-- FMVGD (R200). -/
  | fmvgd (x : Issue) (rd : Fin 32) (fa : Fin 16)
  /-- LB (R201). -/
  | lb (x : Issue) (rd ra : Fin 32) (imm : BitVec 16)
  /-- LBU (R201). -/
  | lbu (x : Issue) (rd ra : Fin 32) (imm : BitVec 16)
  /-- LH (R201). -/
  | lh (x : Issue) (rd ra : Fin 32) (imm : BitVec 16)
  /-- LHU (R201). -/
  | lhu (x : Issue) (rd ra : Fin 32) (imm : BitVec 16)
  /-- LW (R201). -/
  | lw (x : Issue) (rd ra : Fin 32) (imm : BitVec 16)
  /-- LWU (R201). -/
  | lwu (x : Issue) (rd ra : Fin 32) (imm : BitVec 16)
  /-- LD (R201). -/
  | ld (x : Issue) (rd ra : Fin 32) (imm : BitVec 16)
  /-- LBOOL (R201). -/
  | lbool (x : Issue) (rd ra : Fin 32) (imm : BitVec 16)
  /-- SB (R201). -/
  | sb (x : Issue) (rt ra : Fin 32) (imm : BitVec 16)
  /-- SH (R201). -/
  | sh (x : Issue) (rt ra : Fin 32) (imm : BitVec 16)
  /-- SW (R201). -/
  | sw (x : Issue) (rt ra : Fin 32) (imm : BitVec 16)
  /-- SD (R201). -/
  | sd (x : Issue) (rt ra : Fin 32) (imm : BitVec 16)
  /-- FLD (R201). -/
  | fld (x : Issue) (fd : Fin 16) (ra : Fin 32) (imm : BitVec 16)
  /-- FSD (R201). -/
  | fsd (x : Issue) (ft : Fin 16) (ra : Fin 32) (imm : BitVec 16)
  /-- BEQ (R202). -/
  | beq (x : Issue) (ra rb : Fin 32) (imm : BitVec 16)
  /-- BNE (R202). -/
  | bne (x : Issue) (ra rb : Fin 32) (imm : BitVec 16)
  /-- BLT (R202). -/
  | blt (x : Issue) (ra rb : Fin 32) (imm : BitVec 16)
  /-- BGE (R202). -/
  | bge (x : Issue) (ra rb : Fin 32) (imm : BitVec 16)
  /-- BLTU (R202). -/
  | bltu (x : Issue) (ra rb : Fin 32) (imm : BitVec 16)
  /-- BGEU (R202). -/
  | bgeu (x : Issue) (ra rb : Fin 32) (imm : BitVec 16)
  /-- J (R203). -/
  | j (x : Issue) (imm : BitVec 26)
  /-- CALL (R203). -/
  | call (x : Issue) (imm : BitVec 26)
  /-- JR (R203). -/
  | jr (x : Issue) (ra : Fin 32) (imm : BitVec 16)
  /-- CALLR (R203). -/
  | callr (x : Issue) (ra : Fin 32) (imm : BitVec 16)
  /-- ATCAS (R205). -/
  | atcas (x : Issue) (rd ra rb : Fin 32) (wide : Bool)
  /-- ATSWP (R205). -/
  | atswp (x : Issue) (rd ra rb : Fin 32) (wide : Bool)
  /-- ATADD (R205). -/
  | atadd (x : Issue) (rd ra rb : Fin 32) (wide : Bool)
  /-- ATAND (R205). -/
  | atand (x : Issue) (rd ra rb : Fin 32) (wide : Bool)
  /-- ATOR (R205). -/
  | ator (x : Issue) (rd ra rb : Fin 32) (wide : Bool)
  /-- ATXOR (R205). -/
  | atxor (x : Issue) (rd ra rb : Fin 32) (wide : Bool)
  /-- ATMIN (R205). -/
  | atmin (x : Issue) (rd ra rb : Fin 32) (wide : Bool)
  /-- ATMAX (R205). -/
  | atmax (x : Issue) (rd ra rb : Fin 32) (wide : Bool)
  /-- ATMINU (R205). -/
  | atminu (x : Issue) (rd ra rb : Fin 32) (wide : Bool)
  /-- ATMAXU (R205). -/
  | atmaxu (x : Issue) (rd ra rb : Fin 32) (wide : Bool)
  /-- MFSR (R207). -/
  | mfsr (x : Issue) (rd : Fin 32) (num : BitVec 8)
  /-- MTSR (R208). -/
  | mtsr (x : Issue) (num : BitVec 8) (ra : Fin 32)
  /-- BREAK (R207). -/
  | brk (x : Issue) (num : BitVec 8)
  /-- FENCE (R206). -/
  | fence (x : Issue)
  /-- EXRET (R207). -/
  | exret (x : Issue) (ra : Fin 32)
  /-- IDLEW (R207). -/
  | idlew (x : Issue)
  /-- LDT (R212). -/
  | ldt (x : Issue) (rd ra : Fin 32) (imm : BitVec 16)
  /-- LDTF (R213). -/
  | ldtf (x : Issue) (rd ra : Fin 32) (imm : BitVec 16)
  /-- TFST (R214). -/
  | tfst (x : Issue) (rd ra : Fin 32) (imm : BitVec 16)
  /-- STT (R215). -/
  | stt (x : Issue) (rt ra : Fin 32) (imm : BitVec 16)
  /-- TMR_TON (R219). -/
  | tmrTon (x : Issue) (rd ra rb : Fin 32)
  /-- TMR_TOF (R219). -/
  | tmrTof (x : Issue) (rd ra rb : Fin 32)
  /-- TMR_TP (R219). -/
  | tmrTp (x : Issue) (rd ra rb : Fin 32)
  /-- EDGE_RISE (R220). -/
  | edgeRise (x : Issue) (rd ra rb : Fin 32)
  /-- EDGE_FALL (R220). -/
  | edgeFall (x : Issue) (rd ra rb : Fin 32)
  /-- EDGE_ANY (R220). -/
  | edgeAny (x : Issue) (rd ra rb : Fin 32)
  /-- ECALL (R224). -/
  | ecall (x : Issue) (rd ra rb : Fin 32) (engine : Fin 32) (fn : Fin 64)
  /-- EREAD_NODE (R235). -/
  | ereadNode (x : Issue) (rd ra : Fin 32) (sel : BitVec 6)
  /-- EREAD_BRANCH (R235). -/
  | ereadBranch (x : Issue) (rd ra : Fin 32) (sel : BitVec 6)
  /-- EREAD_NODEIX (R235). -/
  | ereadNodeix (x : Issue) (rd ra : Fin 32) (sel : BitVec 6)
  /-- EREAD_BRANCHIX (R235). -/
  | ereadBranchix (x : Issue) (rd ra : Fin 32) (sel : BitVec 6)
  /-- EREAD_STATE (R235). -/
  | ereadState (x : Issue) (rd ra : Fin 32) (sel : BitVec 6)
  /-- EREAD_DEC (R235). -/
  | ereadDec (x : Issue) (rd ra : Fin 32) (sel : BitVec 6)
  /-- EREAD_DEMAND (R235). -/
  | ereadDemand (x : Issue) (rd ra : Fin 32) (sel : BitVec 6)
  /-- EREAD_LOOP (R235). -/
  | ereadLoop (x : Issue) (rd ra : Fin 32) (sel : BitVec 6)
  /-- EREAD_GROUP (R235). -/
  | ereadGroup (x : Issue) (rd ra : Fin 32) (sel : BitVec 6)
  /-- EREAD_EXP (R235). -/
  | ereadExp (x : Issue) (rd ra : Fin 32) (sel : BitVec 6)
  /-- CKPT (R221). -/
  | ckpt (x : Issue)
  /-- SCANEND (R223). -/
  | scanend (x : Issue) (scanNs : Nat)
  /-- NSA_INSTALL (R61). -/
  | nsaInstall (task : Fin 16) (ticket : BitVec 16) (body : List (BitVec 8))
  /-- NSA_STUDY (R62). -/
  | nsaStudy (task : Fin 16) (ticket : BitVec 16) (body : List (BitVec 8))
  /-- NSA_WRITE_USER (R232). -/
  | nsaWriteUser (task : Fin 16) (ticket : BitVec 16) (body : List (BitVec 8))
  /-- NSA_READ_USER (R232). -/
  | nsaReadUser (task : Fin 16) (ticket : BitVec 16) (body : List (BitVec 8))
  /-- NSA_MASK (R53). -/
  | nsaMask (task : Fin 16) (ticket : BitVec 16) (body : List (BitVec 8))
  /-- LPE_LOOP (R119). -/
  | lpeLoop (task : Fin 16) (ticket : BitVec 16) (body : List (BitVec 8))
  /-- LPE_GROUP (R129). -/
  | lpeGroup (task : Fin 16) (ticket : BitVec 16) (body : List (BitVec 8))
  /-- LPE_MODE (R128). -/
  | lpeMode (task : Fin 16) (ticket : BitVec 16) (body : List (BitVec 8))
  /-- MTR_CONFIG (R156). -/
  | mtrConfig (task : Fin 16) (ticket : BitVec 16) (body : List (BitVec 8))
  /-- CHK_RUN (R321). -/
  | chkRun (task : Fin 16) (ticket : BitVec 16) (body : List (BitVec 8))
  /-- SES_SEND (R318). -/
  | sesSend (task : Fin 16) (ticket : BitVec 16) (body : List (BitVec 8))
  /-- SES_READ (R231). -/
  | sesRead (task : Fin 16) (ticket : BitVec 16) (body : List (BitVec 8))
  /-- FORCE_READ (R269). -/
  | forceRead
  /-- FORCE_SET (R258). -/
  | forceSet
  /-- FORCE_CLEAR (R258). -/
  | forceClear
  /-- FORCE_APPLY (R259). -/
  | forceApply
  /-- PROG_EXCHANGE (R265). -/
  | progExchange (r : HostReq) (payload : List (BitVec 8)) (v : Verdict)
  /-- EXCHANGE_INSTANT (R266). -/
  | exchangeInstant
  /-- EXCHANGE_CONFIRM_TIMEOUT (R266). -/
  | exchangeConfirmTimeout
  /-- TOKEN_HOLD_IN_FALL (R296). -/
  | tokenHoldInFall (ns : Nat)
  /-- TOKEN_HOLD_IN_RISE (R275). -/
  | tokenHoldInRise
  /-- TOKEN_TAKE (R277). -/
  | tokenTake
  /-- TAKE_EMISSION (R277). -/
  | takeEmission
  /-- ADDRESS_ANNOUNCE_REPEAT (R319). -/
  | addressAnnounceRepeat
  /-- TOKEN_CONTENTION (R278). -/
  | tokenContention
  /-- KEEPER_REFRESH (R276). -/
  | keeperRefresh (key : BitVec 8) (pcie : Bool)
  /-- KEEPER_TRIP (R276). -/
  | keeperTrip
  /-- STALEMATE_HOLD_EXPIRY (R298). -/
  | stalemateHoldExpiry
  /-- COLD_TAKE (R299). -/
  | coldTake
  /-- SWITCH (R295). -/
  | switch
  /-- RESYNC (R301). -/
  | resync
  /-- RELEASE_LOCKOUT (R294). -/
  | releaseLockout
  /-- TAKE (R299). -/
  | take
  /-- ARBITRATION (R300). -/
  | arbitration
  /-- ARBITRATION_LINK_TIMEOUT (R300). -/
  | arbitrationLinkTimeout
  /-- RESYNC_INSTANT (R301). -/
  | resyncInstant
  /-- FUROV_HELLO (R286). -/
  | furovHello (tagOk : Bool) (h : Machine.Hello)
  /-- FUROV_ACK (R285). -/
  | furovAck (h : FurovHdr) (seq : Nat)
  /-- FUROV_INPUT (R287). -/
  | furovInput (h : FurovHdr) (task : Fin 16) (period : Nat) (inputs : List (Nat × BitVec 8)) (forces : List (Nat × Machine.Force)) (shared : List (Nat × BitVec 8))
  /-- FUROV_TICK (R287). -/
  | furovTick (h : FurovHdr) (tick : Nat) (samples : List (Nat × BitVec 8)) (forces : List (Nat × Option Machine.Force))
  /-- FUROV_SNAPSHOT (R287). -/
  | furovSnapshot (h : FurovHdr) (k : Nat) (recs : List (Nat × Machine.Session)) (thermal electric : List (Nat × Int)) (missing : List Nat) (samples : List Machine.MtrFwd)
  /-- FUROV_DIGEST (R290). -/
  | furovDigest (h : FurovHdr) (source task : Fin 16) (inst digest : BitVec 64)
  /-- FUROV_HEALTH (R292). -/
  | furovHealth (h : FurovHdr) (x : Machine.Health)
  /-- FUROV_FORWARD (R284). -/
  | furovForward (h : FurovHdr) (typ : BitVec 8) (at_ : Nat) (body : List (BitVec 8)) (v : Verdict)
  /-- FUROV_STATE (R301). -/
  | furovState (h : FurovHdr) (part : Machine.StatePart)
  /-- FUROV_TIME (R350). -/
  | furovTime (h : FurovHdr) (ownTx peerRx peerTx ownRx : Nat)
  /-- FUROV_TOKEN (R281). -/
  | furovToken (h : FurovHdr) (held : Bool) (release tick : Nat)
  /-- FUROV_JOB (R291). -/
  | furovJob (h : FurovHdr) (e : Machine.JobEntry)
  /-- FUROV_RETRANSMIT (R285). -/
  | furovRetransmit (seq : Nat)
  /-- LANE_LOCK_LOSS (R285). -/
  | laneLockLoss (l : Fin 2)
  /-- LINK_TRAINING_START (R286). -/
  | linkTrainingStart (step : Fin 4) (lanes : BitVec 2)
  /-- FORWARD_TIMEOUT (R287). -/
  | forwardTimeout
  /-- DIGEST_ENTRY_TIMEOUT (R290). -/
  | digestEntryTimeout
  /-- DIAGNOSIS_COMPLETE (R294). -/
  | diagnosisComplete (answer scrub seqs : Bool)
  /-- QSP_JOIN_RECEIVE (R309). -/
  | qspJoinReceive (h : QspHdr)
  /-- QSP_TELEMETRY_RECEIVE (R313). -/
  | qspTelemetryReceive (h : QspHdr) (typ : BitVec 8) (payload : List (BitVec 8))
  /-- QSP_LEAVE_RECEIVE (R312). -/
  | qspLeaveReceive (h : QspHdr)
  /-- PENDING_TIMEOUT (R304). -/
  | pendingTimeout (n : Fin 4096)
  /-- SESSION_DROP (R312). -/
  | sessionDrop (n : Fin 4096)
  /-- COMMAND_TRANSMIT (R318). -/
  | commandTransmit
  /-- SES_SEL_WRITE (R335). -/
  | sesSelWrite (v : BitVec 32)
  /-- CHK_START (R324). -/
  | chkStart (u : Fin 8)
  /-- RESET_PIP (R323). -/
  | resetPip (u : Fin 8)
  /-- CHK_JOB_DONE (R322). -/
  | chkJobDone (u : Fin 8) (err : Bool)
  /-- QUEUE_WRITE_COMPLETE (R326). -/
  | queueWriteComplete (q : Fin 48) (op : QueueOp)
  /-- QHC_FRAGMENT_RECEIVE (R329). -/
  | qhcFragmentReceive (r : HostReq) (d : List (BitVec 8)) (v : Verdict)
  /-- QHC_REASSEMBLY_TIMEOUT (R329). -/
  | qhcReassemblyTimeout
  /-- STATUS_READ (R330). -/
  | statusRead (r : HostReq) (payload : List (BitVec 8))
  /-- IMAGE_WRITE (R330). -/
  | imageWrite (r : HostReq) (payload : List (BitVec 8))
  /-- IMAGE_CHECK (R330). -/
  | imageCheck (r : HostReq) (payload : List (BitVec 8)) (v : Verdict)
  /-- IMAGE_SELECT (R330). -/
  | imageSelect (r : HostReq) (payload : List (BitVec 8)) (v : Verdict)
  /-- FORECAST (R102). -/
  | forecast (r : HostReq) (payload : List (BitVec 8))
  /-- MASK (R53). -/
  | mask (r : HostReq) (payload : List (BitVec 8))
  /-- METER_CONFIG (R156). -/
  | meterConfig (r : HostReq) (payload : List (BitVec 8))
  /-- METER_CLEAR (R158). -/
  | meterClear (r : HostReq) (payload : List (BitVec 8))
  /-- METER_READ (R330). -/
  | meterRead (r : HostReq) (payload : List (BitVec 8))
  /-- METER_ACK (R152). -/
  | meterAck (r : HostReq) (payload : List (BitVec 8))
  /-- SAFE_VALUES (R410). -/
  | safeValues (r : HostReq) (payload : List (BitVec 8))
  /-- SETTING (R332). -/
  | setting (r : HostReq) (payload : List (BitVec 8))
  /-- ATTEST (R428). -/
  | attest (r : HostReq) (payload : List (BitVec 8))
  /-- EVR_ACK (R452). -/
  | evrAck (r : HostReq) (payload : List (BitVec 8))
  /-- STATE_ACK (R453). -/
  | stateAck (r : HostReq) (payload : List (BitVec 8))
  /-- QHC_HOST_REPLY (R331). -/
  | qhcHostReply (r : HostReq)
  /-- QHC_UNSOL_RETRY (R334). -/
  | qhcUnsolRetry
  /-- HOST_CHANNEL_LOSS (R334). -/
  | hostChannelLoss
  /-- PCIE_MAILBOX_IN (R333). -/
  | pcieMailboxIn (op : MailboxOp)
  /-- PCIE_MAILBOX_OUT_TAKEN (R333). -/
  | pcieMailboxOutTaken
  /-- KEY_UPDATE (R435). -/
  | keyUpdate (r : HostReq) (payload : List (BitVec 8)) (v : Verdict)
  /-- PROTECT (R433). -/
  | protect (r : HostReq) (payload : List (BitVec 8)) (v : Verdict)
  /-- OWNER_ADD (R433). -/
  | ownerAdd (r : HostReq) (payload : List (BitVec 8)) (v : Verdict)
  /-- OWNER_REVOKE (R433). -/
  | ownerRevoke (r : HostReq) (payload : List (BitVec 8)) (v : Verdict)
  /-- NEW_IDENTITY (R427). -/
  | newIdentity (r : HostReq) (payload : List (BitVec 8)) (v : Verdict)
  /-- DECOMMISSION (R433). -/
  | decommission (r : HostReq) (payload : List (BitVec 8)) (v : Verdict)
  /-- SVN_COMMIT (R424). -/
  | svnCommit (r : HostReq) (payload : List (BitVec 8)) (v : Verdict)
  /-- PROVISION (R433). -/
  | provision (r : HostReq) (payload : List (BitVec 8)) (v : Verdict)
  /-- KEY_STORE_WRITE_DONE (R436). -/
  | keyStoreWriteDone
  /-- FUSE_BURN_START (R420). -/
  | fuseBurnStart
  /-- FUSE_BURN_DONE (R420). -/
  | fuseBurnDone
  /-- KEY_REMASK (R429). -/
  | keyRemask
  /-- PTP_SYNC_RECEIVE (R348). -/
  | ptpSyncReceive (m : PtpHdr) (twoStep delayReq : Bool) (origin : Nat)
  /-- PTP_FOLLOW_UP_RECEIVE (R348). -/
  | ptpFollowUpReceive (m : PtpHdr) (origin : Nat)
  /-- PTP_ANNOUNCE_RECEIVE (R346). -/
  | ptpAnnounceReceive (m : PtpHdr) (a : AnnounceBody)
  /-- PTP_DELAY_REQ_SEND (R348). -/
  | ptpDelayReqSend (d : Fin 2) (seq : PtpReq)
  /-- PTP_DELAY_RESP_RECEIVE (R348). -/
  | ptpDelayRespReceive (m : PtpHdr) (t4 : Nat)
  /-- PTP_PDELAY_REQ_SEND (R354). -/
  | ptpPdelayReqSend (p : Fin 14) (seq : PtpReq)
  /-- PTP_PDELAY_REQ_RECEIVE (R354). -/
  | ptpPdelayReqReceive (m : PtpHdr) (tx : Nat)
  /-- PTP_PDELAY_RESP_RECEIVE (R354). -/
  | ptpPdelayRespReceive (m : PtpHdr) (followUp twoStep : Bool) (stamp : Nat)
  /-- TC_FOLLOW_UP_TIMEOUT (R354). -/
  | tcFollowUpTimeout
  /-- ANNOUNCE_TIMEOUT (R349). -/
  | announceTimeout (d : Fin 2)
  /-- SYNC_TIMEOUT (R349). -/
  | syncTimeout (d : Fin 2)
  /-- SLEW_END (R342). -/
  | slewEnd
  /-- SOURCE_REVERT (R343). -/
  | sourceRevert
  /-- TB_SEL_WRITE (R359). -/
  | tbSelWrite (v : BitVec 32)
  /-- TB7_SET (R359). -/
  | tb7Set
  /-- TB7_ADD (R359). -/
  | tb7Add
  /-- TB7_SUB (R359). -/
  | tb7Sub
  /-- TX_TIMESTAMP (R356). -/
  | txTimestamp (p : Fin 14) (id : BitVec 16) (base : Fin 8) (time : Nat)
  /-- TXTS_POP (R356). -/
  | txtsPop
  /-- PTP_WAIT_LIMIT (R478). -/
  | ptpWaitLimit
  /-- RTC_SECOND_EDGE (R363). -/
  | rtcSecondEdge
  /-- RTC_SET (R364). -/
  | rtcSet
  /-- RTC_SHIFT (R366). -/
  | rtcShift
  /-- SET_WDAY (R365). -/
  | setWday
  /-- LEAP_INS (R367). -/
  | leapIns
  /-- LEAP_DEL (R367). -/
  | leapDel
  /-- LEAP_CANCEL (R367). -/
  | leapCancel
  /-- COUNT_START (R372). -/
  | countStart
  /-- COUNT_STOP (R372). -/
  | countStop
  /-- MEAS_START (R374). -/
  | measStart
  /-- RTC_COMMAND_EFFECT (R368). -/
  | rtcCommandEffect (sub : Fin 32768)
  /-- RTC_SNAP (R369). -/
  | rtcSnap (sub : Fin 32768)
  /-- TRIM_WRITE (R373). -/
  | trimWrite (v : BitVec 32) (sub : Fin 32768)
  /-- COUNTDOWN_SECOND (R372). -/
  | countdownSecond
  /-- MEAS_DONE (R374). -/
  | measDone (count : BitVec 32) (sub : Fin 32768)
  /-- MEAS_ERR (R374). -/
  | measErr
  /-- OSCILLATOR_STOPPED (R361). -/
  | oscillatorStopped
  /-- RTC_DISCIPLINE (R375). -/
  | rtcDiscipline
  /-- CAN_FRAME_RECEIVE (R382). -/
  | canFrameReceive (n : Fin 4) (f : CanFrame) (ts : BitVec 64)
  /-- CAN_FRAME_SENT (R383). -/
  | canFrameSent (n : Fin 4) (ok : Bool) (ts : BitVec 64)
  /-- CAN_ERROR (R389). -/
  | canError (n : Fin 4) (tec rec : Fin 9)
  /-- RECOVER (R389). -/
  | recover (n : Fin 4)
  /-- BUS_OFF_RECOVERY_DONE (R389). -/
  | busOffRecoveryDone (n : Fin 4)
  /-- CAN_AUTO_RECOVER (R389). -/
  | canAutoRecover (n : Fin 4)
  /-- CAN_ABORT (R383). -/
  | canAbort (n : Fin 4) (started : Bool)
  /-- CAN_MODE_WRITE (R390). -/
  | canModeWrite (n : Fin 4) (v : BitVec 32) (busy : Bool)
  /-- CAN_WAKE_EDGE (R390). -/
  | canWakeEdge (n : Fin 4)
  /-- WAKE_FRAME (R391). -/
  | wakeFrame (n : Fin 4) (f : Option CanFrame) (ts : BitVec 64)
  /-- RX_ACK_WRITE (R381). -/
  | rxAckWrite (ch : Fin 8) (v : BitVec 32)
  /-- TX_PUT_WRITE (R381). -/
  | txPutWrite (ch : Fin 8) (v : BitVec 32)
  /-- TX_ACK_WRITE (R381). -/
  | txAckWrite (ch : Fin 8) (v : BitVec 32)
  /-- UART_SLOT_CLOSE (R394). -/
  | uartSlotClose (n : Fin 4) (data : List (BitVec 8)) (gap : Nat) (framing parity brk : Bool) (ts : BitVec 64)
  /-- UART_FRAME_SENT (R392). -/
  | uartFrameSent (n : Fin 4) (echoErr : Bool) (ts : BitVec 64)
  /-- UART_ABORT (R397). -/
  | uartAbort (n : Fin 4) (started : Bool)
  /-- UART_ENABLE_WRITE (R397). -/
  | uartEnableWrite (n : Fin 4) (v : BitVec 32)
  /-- EVR_RECORD_WRITE (R444). -/
  | evrRecordWrite (bad : Bool)
  /-- EVR_REBUILD_DONE (R448). -/
  | evrRebuildDone (bad : List (Fin 1048576))
  /-- EVR_SEEK (R451). -/
  | evrSeek (v : BitVec 32)
  /-- EVR_SEARCH_DONE (R451). -/
  | evrSearchDone
  /-- EVR_RD_SEL (R451). -/
  | evrRdSel (v : BitVec 32)
  /-- SUPPLY_WARNING (R464). -/
  | supplyWarning (unit : Fin 3)
  /-- WARM_SAVE_DONE (R465). -/
  | warmSaveDone
  /-- SUPPLY_RECOVERY (R466). -/
  | supplyRecovery (minMv us : Nat)
  /-- SUPPLY_RESET_LEVEL (R467). -/
  | supplyResetLevel (lost : Bool)
  /-- SUPPLY_OVERVOLTAGE (R474). -/
  | supplyOvervoltage
  /-- POWER_GOOD (R463). -/
  | powerGood
  /-- OVERTEMP_RESET (R498). -/
  | overtempReset
  /-- CLKREF_QUALIFIED (R456). -/
  | clkrefQualified (recovery : Bool) (code : Fin 8)
  /-- PLL_LOCK (R456). -/
  | pllLock (p : Fin 5)
  /-- PLL_LOCK_TIMEOUT (R456). -/
  | pllLockTimeout (p : Fin 5)
  /-- CLKREF_LOST (R458). -/
  | clkrefLost
  /-- PLL_UNLOCK (R460). -/
  | pllUnlock (p : Fin 5)
  /-- PLL_RELOCK_TIMEOUT (R460). -/
  | pllRelockTimeout (p : Fin 5)
  /-- CLOCK_SWITCH_DONE (R459). -/
  | clockSwitchDone (b : Fin 15) (fallback : Bool)
  /-- CLK_SRC_WRITE (R459). -/
  | clkSrcWrite (v : BitVec 32)
  /-- GATE_PERI_WRITE (R461). -/
  | gatePeriWrite (v : BitVec 32)
  /-- GATE_ENG_WRITE (R462). -/
  | gateEngWrite (v : BitVec 32)
  /-- RESET_WARM (R468). -/
  | resetWarm (src : Fin 3)
  /-- RESET_COLD (R468). -/
  | resetCold (host : Bool)
  /-- RESET_FULL (R468). -/
  | resetFull
  /-- RESET_RELEASE (R471). -/
  | resetRelease (slot : Fin 4) (before : Nat)
  /-- RUNTIME_START (R425). -/
  | runtimeStart (b : BootIn)
  /-- MRAM_RESTORE_DONE (R477). -/
  | mramRestoreDone (v : Verdict)
  /-- RUN_STATE_ENTRY (R478). -/
  | runStateEntry
  /-- ETH_PORT_LINK_CHANGE (R292). -/
  | ethPortLinkChange (p : Fin 14) (up : Bool)
  /-- LO_REGISTER_READ (R7). -/
  | loRegisterRead (a : BitVec 64) (size : Fin 9) (pcie : Bool)
  /-- CAN_INTEGRATION_DONE (R389). -/
  | canIntegrationDone (n : Fin 4)
  /-- BACKUP_SOURCE_CHANGE (R360). -/
  | backupSourceChange (vbak : Bool)
  /-- OVERTEMP_RELEASE (R498). -/
  | overtempRelease
  /-- PCIE_LINK_CHANGE (R334). -/
  | pcieLinkChange (up : Bool)
  deriving DecidableEq, Repr

end Sys2Proof
end

