-- ==== Sys2Proof/Decode.lean ====
section
/-!
DEFINITION. The instruction words of the IRTUM cores (R192 to R207) and the command each of them is. The opcode table
gives no row any bits, so the word that the table spells is none: `decodeTableWord`.
-/
namespace Sys2Proof

/-! ### The fields of a word (R192) -/

/-- The general register that a register field names (R193). -/
def gField (lo : Nat) (w : BitVec 32) : Fin 32 := (w.extractLsb' lo 5).toFin

/-- The binary64 register that a register field names: 16 to 31 name none (R193). -/
def dField (lo : Nat) (w : BitVec 32) : Option (Fin 16) :=
  if w.getLsbD (lo + 4) then none else some (w.extractLsb' lo 4).toFin

/-- RD, RS1 and RS2 as general registers. -/
def rdOf (w : BitVec 32) : Fin 32 := gField 6 w
def rs1Of (w : BitVec 32) : Fin 32 := gField 11 w
def rs2Of (w : BitVec 32) : Fin 32 := gField 16 w

/-- FUNC and AUX of format A. -/
def funcOf (w : BitVec 32) : Nat := (w.extractLsb' 21 5).toNat
def auxOf (w : BitVec 32) : Nat := (w.extractLsb' 26 6).toNat

/-- IMM16 of formats I, S and B. -/
def imm16Of (w : BitVec 32) : BitVec 16 := w.extractLsb' 16 16

/-- A command whose unused fields must be zero (R193). -/
def when (ok : Bool) (i : Instr) : Option Instr := if ok then some i else none

/-! ### The groups of format A and Y -/

/-- The OP group (R195): AUX is zero except for SEXT and ZEXT, whose AUX is the width and whose RS2 is zero. -/
def decodeOp (x : Issue) (w : BitVec 32) : Option Instr :=
  let rd := rdOf w
  let ra := rs1Of w
  let rb := rs2Of w
  let plain := auxOf w = 0
  let width : Option (Fin 3) := if h : auxOf w < 3 then (if rb = 0 then some ⟨auxOf w, h⟩ else none) else none
  match funcOf w with
  | 0 => when plain (.add x rd ra rb)
  | 1 => when plain (.sub x rd ra rb)
  | 2 => when plain (.and x rd ra rb)
  | 3 => when plain (.or x rd ra rb)
  | 4 => when plain (.xor x rd ra rb)
  | 5 => when plain (.shl x rd ra rb)
  | 6 => when plain (.shr x rd ra rb)
  | 7 => when plain (.sar x rd ra rb)
  | 8 => when plain (.slt x rd ra rb)
  | 9 => when plain (.sltu x rd ra rb)
  | 10 => when plain (.mul x rd ra rb)
  | 11 => when plain (.mulh x rd ra rb)
  | 12 => when plain (.mulhu x rd ra rb)
  | 13 => when plain (.div x rd ra rb)
  | 14 => when plain (.divu x rd ra rb)
  | 15 => when plain (.rem x rd ra rb)
  | 16 => when plain (.remu x rd ra rb)
  | 17 => when plain (.min x rd ra rb)
  | 18 => when plain (.max x rd ra rb)
  | 19 => when plain (.minu x rd ra rb)
  | 20 => when plain (.maxu x rd ra rb)
  | 21 => width.map fun n => .sext x rd ra n
  | 22 => width.map fun n => .zext x rd ra n
  | _ => none

/-- The QOP group (R198): the shift is AUX, 0 to 62; a function without one has AUX zero, one of one operand RS2 zero. -/
def decodeQop (x : Issue) (w : BitVec 32) : Option Instr :=
  let rd := rdOf w
  let ra := rs1Of w
  let rb := rs2Of w
  let plain := auxOf w = 0
  let shift : Option (Fin 63) := if h : auxOf w < 63 then some ⟨auxOf w, h⟩ else none
  let alone := rb = 0
  match funcOf w with
  | 0 => when plain (.qadd x rd ra rb)
  | 1 => when plain (.qsub x rd ra rb)
  | 2 => shift.map fun n => .qmul x rd ra rb n
  | 3 => shift.map fun n => .qdiv x rd ra rb n
  | 4 => shift.bind fun n => when alone (.qshl x rd ra n)
  | 5 => shift.bind fun n => when alone (.qshr x rd ra n)
  | 6 => when (plain && alone) (.qneg x rd ra)
  | 7 => when (plain && alone) (.qabs x rd ra)
  | 8 => when plain (.qmin x rd ra rb)
  | 9 => when plain (.qmax x rd ra rb)
  | _ => none

/-- The FOP group (R199): which fields name binary64 registers, and which are zero. -/
def decodeFop (x : Issue) (w : BitVec 32) : Option Instr :=
  let plain := auxOf w = 0
  let alone := rs2Of w = 0
  let ddd (f : Fin 16 → Fin 16 → Fin 16 → Instr) : Option Instr :=
    if plain then (dField 6 w).bind fun d => (dField 11 w).bind fun a => (dField 16 w).map (f d a) else none
  let dd (f : Fin 16 → Fin 16 → Instr) : Option Instr :=
    if plain && alone then (dField 6 w).bind fun d => (dField 11 w).map (f d) else none
  let gdd (f : Fin 32 → Fin 16 → Fin 16 → Instr) : Option Instr :=
    if plain then (dField 11 w).bind fun a => (dField 16 w).map (f (rdOf w) a) else none
  let dg (f : Fin 16 → Fin 32 → Instr) : Option Instr :=
    if plain && alone then (dField 6 w).map fun d => f d (rs1Of w) else none
  let gd (f : Fin 32 → Fin 16 → Instr) : Option Instr :=
    if plain && alone then (dField 11 w).map (f (rdOf w)) else none
  let n : Option (Fin 32) := if h : auxOf w < 32 then (if alone then some ⟨auxOf w, h⟩ else none) else none
  match funcOf w with
  | 0 => ddd fun d a b => .fadd x d a b
  | 1 => ddd fun d a b => .fsub x d a b
  | 2 => ddd fun d a b => .fmul x d a b
  | 3 => ddd fun d a b => .fdiv x d a b
  | 4 => dd fun d a => .fsqrt x d a
  | 5 => ddd fun d a b => .fmin x d a b
  | 6 => ddd fun d a b => .fmax x d a b
  | 7 => dd fun d a => .fneg x d a
  | 8 => dd fun d a => .fabs x d a
  | 9 => gdd fun d a b => .feq x d a b
  | 10 => gdd fun d a b => .flt x d a b
  | 11 => gdd fun d a b => .fle x d a b
  | 12 => dg fun d a => .fcvtdi x d a
  | 13 => gd fun d a => .fcvtid x d a
  | 14 => n.bind fun q => (dField 6 w).map fun d => .fcvtdq x d (rs1Of w) q
  | 15 => n.bind fun q => (dField 11 w).map fun a => .fcvtqd x (rdOf w) a q
  | 16 => dg fun d a => .fmvdg x d a
  | 17 => gd fun d a => .fmvgd x d a
  | _ => none

/-- The ATOM group (R205): AUX 0 names 4 bytes and AUX 1 names 8. -/
def decodeAtom (x : Issue) (w : BitVec 32) : Option Instr :=
  let rd := rdOf w
  let ra := rs1Of w
  let rb := rs2Of w
  let wide := auxOf w = 1
  let sized := auxOf w ≤ 1
  match funcOf w with
  | 0 => when sized (.atcas x rd ra rb wide)
  | 1 => when sized (.atswp x rd ra rb wide)
  | 2 => when sized (.atadd x rd ra rb wide)
  | 3 => when sized (.atand x rd ra rb wide)
  | 4 => when sized (.ator x rd ra rb wide)
  | 5 => when sized (.atxor x rd ra rb wide)
  | 6 => when sized (.atmin x rd ra rb wide)
  | 7 => when sized (.atmax x rd ra rb wide)
  | 8 => when sized (.atminu x rd ra rb wide)
  | 9 => when sized (.atmaxu x rd ra rb wide)
  | _ => none

/-- The SYS group (R207), format Y: bits [31:29] and every field a function does not use are zero. -/
def decodeSys (x : Issue) (w : BitVec 32) : Option Instr :=
  let rd := rdOf w
  let ra := rs1Of w
  let num : BitVec 8 := w.extractLsb' 16 8
  if w.extractLsb' 29 3 ≠ 0 then none
  else match (w.extractLsb' 24 5).toNat with
    | 0 => when (ra = 0) (.mfsr x rd num)
    | 1 => when (rd = 0) (.mtsr x num ra)
    | 2 => when (rd = 0 && ra = 0) (.brk x num)
    | 3 => when (rd = 0 && ra = 0 && num = 0) (.fence x)
    | 4 => when (rd = 0 && num = 0) (.exret x ra)
    | 5 => when (rd = 0 && ra = 0 && num = 0) (.idlew x)
    | _ => none

/-- TMR, EDGE and EREAD (R210, R217, R235), format A. -/
def decodeTmr (x : Issue) (w : BitVec 32) : Option Instr :=
  match funcOf w with
  | 0 => when (auxOf w = 0) (.tmrTon x (rdOf w) (rs1Of w) (rs2Of w))
  | 1 => when (auxOf w = 0) (.tmrTof x (rdOf w) (rs1Of w) (rs2Of w))
  | 2 => when (auxOf w = 0) (.tmrTp x (rdOf w) (rs1Of w) (rs2Of w))
  | _ => none

def decodeEdge (x : Issue) (w : BitVec 32) : Option Instr :=
  match funcOf w with
  | 0 => when (auxOf w = 0) (.edgeRise x (rdOf w) (rs1Of w) (rs2Of w))
  | 1 => when (auxOf w = 0) (.edgeFall x (rdOf w) (rs1Of w) (rs2Of w))
  | 2 => when (auxOf w = 0) (.edgeAny x (rdOf w) (rs1Of w) (rs2Of w))
  | _ => none

def decodeEread (x : Issue) (w : BitVec 32) : Option Instr :=
  let rd := rdOf w
  let ra := rs1Of w
  let sel : BitVec 6 := w.extractLsb' 26 6
  let alone := rs2Of w = 0
  match funcOf w with
  | 0 => when alone (.ereadNode x rd ra sel)
  | 1 => when alone (.ereadBranch x rd ra sel)
  | 2 => when alone (.ereadNodeix x rd ra sel)
  | 3 => when alone (.ereadBranchix x rd ra sel)
  | 4 => when alone (.ereadState x rd ra sel)
  | 5 => when alone (.ereadDec x rd ra sel)
  | 6 => when alone (.ereadDemand x rd ra sel)
  | 7 => when alone (.ereadLoop x rd ra sel)
  | 8 => when alone (.ereadGroup x rd ra sel)
  | 9 => when alone (.ereadExp x rd ra sel)
  | _ => none

/-! ### The opcode map (R194) -/

/-- The command that a word is on a core, by its major opcode (R194), or none for an undefined word. `scanNs` is the
scan time that a SCANEND shows. -/
def decodeIrtum (x : Issue) (scanNs : Nat) (w : BitVec 32) : Option Instr :=
  let rd := rdOf w
  let ra := rs1Of w
  let imm := imm16Of w
  let n : Fin 64 := (w.extractLsb' 16 6).toFin
  let short := w.extractLsb' 22 10 = 0
  let bare := w.extractLsb' 6 26 = 0
  match (w.extractLsb' 0 6).toNat with
  | 0x01 => decodeOp x w
  | 0x02 => some (.addi x rd ra imm)
  | 0x03 => some (.slti x rd ra imm)
  | 0x04 => some (.sltiu x rd ra imm)
  | 0x05 => some (.andi x rd ra imm)
  | 0x06 => some (.ori x rd ra imm)
  | 0x07 => some (.xori x rd ra imm)
  | 0x08 => when short (.shli x rd ra n)
  | 0x09 => when short (.shri x rd ra n)
  | 0x0A => when short (.sari x rd ra n)
  | 0x0B => some (.lui x rd (w.extractLsb' 11 21))
  | 0x0C => decodeQop x w
  | 0x0D => decodeFop x w
  | 0x10 => some (.lb x rd ra imm)
  | 0x11 => some (.lbu x rd ra imm)
  | 0x12 => some (.lh x rd ra imm)
  | 0x13 => some (.lhu x rd ra imm)
  | 0x14 => some (.lw x rd ra imm)
  | 0x15 => some (.lwu x rd ra imm)
  | 0x16 => some (.ld x rd ra imm)
  | 0x17 => some (.lbool x rd ra imm)
  | 0x18 => some (.sb x rd ra imm)
  | 0x19 => some (.sh x rd ra imm)
  | 0x1A => some (.sw x rd ra imm)
  | 0x1B => some (.sd x rd ra imm)
  | 0x1C => (dField 6 w).map fun d => .fld x d ra imm
  | 0x1D => (dField 6 w).map fun d => .fsd x d ra imm
  | 0x20 => some (.beq x rd ra imm)
  | 0x21 => some (.bne x rd ra imm)
  | 0x22 => some (.blt x rd ra imm)
  | 0x23 => some (.bge x rd ra imm)
  | 0x24 => some (.bltu x rd ra imm)
  | 0x25 => some (.bgeu x rd ra imm)
  | 0x26 => some (.j x (w.extractLsb' 6 26))
  | 0x27 => some (.call x (w.extractLsb' 6 26))
  | 0x28 => when (rd = 0) (.jr x ra imm)
  | 0x29 => when (rd = 0) (.callr x ra imm)
  | 0x2C => decodeAtom x w
  | 0x2D => decodeSys x w
  | 0x30 => some (.ldt x rd ra imm)
  | 0x31 => some (.ldtf x rd ra imm)
  | 0x32 => some (.tfst x rd ra imm)
  | 0x33 => some (.stt x rd ra imm)
  | 0x34 => decodeTmr x w
  | 0x35 => decodeEdge x w
  | 0x36 => some (.ecall x rd ra (rs2Of w) (w.extractLsb' 21 5).toFin (w.extractLsb' 26 6).toFin)
  | 0x37 => decodeEread x w
  | 0x38 => when bare (.ckpt x)
  | 0x39 => when bare (.scanend x scanNs)
  | _ => none

/-- The command of a word of `nbits` bits: none, since the table gives no row any bits. -/
def decodeTableWord (_nbits _w : Nat) : Option Instr := none

end Sys2Proof
end

