-- ==== Sys2Proof/Config.lean ====
section
/-!
DEFINITION. What an implementation fixes and the values the manual leaves open.
Every constant here is opaque: no proof can see a value of it.
-/
namespace Sys2Proof.Config

/-- IEEE 754-2019 lets an implementation detect tininess before or after rounding, and R169 fixes no choice:
true is after rounding (assumption 10). -/
opaque tininessAfterRounding : Bool

/-- The contents of the boot ROM, which the manual does not give (R485; assumption 9). -/
opaque bootRom : Nat → BitVec 8

/-- The free value of the given number: a value the manual leaves open after an instruction or event that goes on
(assumption 8). -/
opaque freeValue : Nat → Nat

/-- The ML-DSA-87 public key generated from the seed of an identity, and the ML-KEM-1024 encapsulation key generated
from its second seed (R427): key generation is the standards', and what it answers is left uninterpreted (assumption
12). -/
opaque identityKey : List (BitVec 8) → List (BitVec 8)
opaque kemKey : List (BitVec 8) → List (BitVec 8)

/-- The ML-DSA-87 signature of a message under the key pair of a seed (R428; assumption 12). -/
opaque identitySign : List (BitVec 8) → List (BitVec 8) → List (BitVec 8)

/-- AES-256-GCM (R283, R306): byte `i` of the ciphertext and of the tag of a plaintext under a key, a nonce and
additional authenticated data. The cipher is the standard's, and what it answers is left uninterpreted (assumption
12). -/
opaque gcmByte : (key nonce aad plain : List (BitVec 8)) → Nat → BitVec 8
opaque gcmTag : (key nonce aad plain : List (BitVec 8)) → Nat → BitVec 8

/-- The payload bytes of a Furov frame whose content the manual lists without a layout (R284; assumption 15). -/
opaque furovPayload : Machine.FurovBody → List (BitVec 8)

/-- The filter of TB6 over the latest 16 exchanges: how far its result lies from the latest estimate, of which the ±20 ns
of R350 are taken (assumption 8). -/
opaque tb6Filter : List Int → Nat

/-- The idle blocks on the Furov line before a frame, by the frame's number (R282; assumption 63). -/
opaque idleBlocks : Nat → Nat

/-- The nanoseconds from a tick until the start block of a frame leaves, by the frame's number (R350; assumption 8). -/
opaque frameWait : Nat → Nat

end Sys2Proof.Config
end

