-- ==== Sys2Proof/Machine/Bits.lean ====
section
/-!
DEFINITION. Bit fields, sign extension and little-endian bytes (00 R6 R8, 07 R167, 08 R192).
-/
namespace Sys2Proof.Machine

/-- Bits [hi:lo] of a number. -/
def bitsOf (hi lo v : Nat) : Nat := (v >>> lo) % 2 ^ (hi + 1 - lo)

/-- Bits [hi:lo] of a bit vector, as a number. -/
def fieldOf {n : Nat} (hi lo : Nat) (w : BitVec n) : Nat := bitsOf hi lo w.toNat

/-- Bit `i` of a number. -/
def bitOf (i v : Nat) : Bool := v.testBit i

/-- The number with bits [hi:lo] replaced by the low bits of `x`. -/
def putBits (hi lo x v : Nat) : Nat :=
  (v >>> (hi + 1)) <<< (hi + 1) ||| ((x % 2 ^ (hi + 1 - lo)) <<< lo) ||| v % 2 ^ lo

/-- The mask of bits [hi:lo]. -/
def maskOf (hi lo : Nat) : Nat := (2 ^ (hi + 1 - lo) - 1) <<< lo

/-- The low `n` bits of a number, read as two's complement. -/
def sInt (n v : Nat) : Int := (BitVec.ofNat n v).toInt

/-- An integer in `n`-bit two's complement. -/
def uNat (n : Nat) (v : Int) : Nat := (BitVec.ofInt n v).toNat

/-- The low `n` bits of a number, sign-extended to 64 bits. -/
def sext64 (n v : Nat) : Dword := (BitVec.ofNat n v).signExtend 64

/-- The low `n` bits of a number, zero-extended to 64 bits. -/
def zext64 (n v : Nat) : Dword := BitVec.ofNat 64 (v % 2 ^ n)

/-- The `n` bytes of a value, little-endian (R6, R167). -/
def leBytes : Nat → Nat → List Byte
  | 0, _ => []
  | n + 1, v => BitVec.ofNat 8 v :: leBytes n (v / 256)

/-- The value of little-endian bytes. -/
def leNat : List Byte → Nat
  | [] => 0
  | b :: bs => b.toNat + 256 * leNat bs

/-- 1 for true and 0 for false. -/
def bNat (b : Bool) : Nat := if b then 1 else 0

/-- An integer clamped to `lo` .. `hi`. -/
def clampInt (lo hi x : Int) : Int := max lo (min hi x)

/-- A number clamped to at most `hi`. -/
def clampNat (hi x : Nat) : Nat := min hi x

/-- The element of a list at an index, or a default past its end. -/
def nthD {α : Type} (l : List α) (i : Nat) (d : α) : α := l.getD i d

/-- A list with the element at an index replaced; unchanged past its end. -/
def setNth {α : Type} (l : List α) (i : Nat) (x : α) : List α := l.set i x

/-- A number put into an ascending list without repeats. -/
def insertUp (x : Nat) : List Nat → List Nat
  | [] => [x]
  | y :: ys => if x < y then x :: y :: ys else if x = y then y :: ys else y :: insertUp x ys

/-- The numbers of a list in ascending order without repeats. -/
def sortDedup (l : List Nat) : List Nat := l.foldr insertUp []

/-- The length of a number in bits; 0 for 0. -/
def bitLen (v : Nat) : Nat := if v = 0 then 0 else Nat.log2 v + 1

end Sys2Proof.Machine
end

