-- ==== Sys2Proof/Machine/Keccak.lean ====
section
/-!
DEFINITION. SHA3-256, SHA3-512 (FIPS 202) and KMAC256 (SP 800-185), which the manual's hashes and tags name
(02 R44 R45, 11 R289, 17 R422 R427), and the CRC engine of 12 R322.
-/
namespace Sys2Proof.Machine

/-- The 25 lanes of a Keccak state; lane x, y stands at x + 5·y. -/
abbrev Lanes := List (BitVec 64)

/-- Lane x, y, each taken modulo 5. -/
def laneAt (a : Lanes) (x y : Nat) : BitVec 64 := a.getD (x % 5 + 5 * (y % 5)) 0

/-- A state made lane by lane. -/
def lanesOf (f : Nat → Nat → BitVec 64) : Lanes := (List.range 25).map fun i => f (i % 5) (i / 5)

/-- The walk of FIPS 202 over the lanes from (x, y): step `t` gives its lane the rotation (t + 1)(t + 2)/2. -/
def rotWalk : Nat → Nat → Nat → Nat → List Nat → List Nat
  | 0, _, _, _, l => l
  | n + 1, t, x, y, l => rotWalk n (t + 1) y ((2 * x + 3 * y) % 5) (l.set (x + 5 * y) ((t + 1) * (t + 2) / 2 % 64))

/-- The rotation of each lane; that of lane 0, 0 is 0. -/
def keccakRot : List Nat := rotWalk 24 0 1 0 (List.replicate 25 0)

/-- The shift register of FIPS 202 from 1, after each of `n` steps: its output bits. -/
def lfsrBits : Nat → Nat → List Bool
  | 0, _ => []
  | n + 1, r => r.testBit 0 :: lfsrBits n (if r.testBit 7 then (2 * r) % 256 ^^^ 0x71 else 2 * r)

/-- A round constant from seven output bits: bit `j` of them stands at place 2^j − 1. -/
def roundConst (bs : List Bool) : BitVec 64 :=
  BitVec.ofNat 64 ((bs.zipIdx.map fun e => bNat e.1 * 2 ^ (2 ^ e.2 - 1)).sum)

/-- The round constants. -/
def keccakRc : List (BitVec 64) :=
  let bs := lfsrBits 168 1
  (List.range 24).map fun i => roundConst ((bs.drop (7 * i)).take 7)

/-- The parity of each column. -/
def columns (a : Lanes) : List (BitVec 64) :=
  (List.range 5).map fun x => (List.range 5).foldl (fun p y => p ^^^ laneAt a x y) 0

/-- One round: what the columns mix in, the turn of each lane with its new place, and the step along each row. -/
def keccakRound (a : Lanes) (rc : BitVec 64) : Lanes :=
  let p := columns a
  let mixed := lanesOf fun x y => laneAt a x y ^^^ p.getD ((x + 4) % 5) 0 ^^^ (p.getD ((x + 1) % 5) 0).rotateLeft 1
  let turned := mixed.zipWith BitVec.rotateLeft keccakRot
  let placed := lanesOf fun x y => laneAt turned (x + 3 * y) x
  let rows := lanesOf fun x y => laneAt placed x y ^^^ (~~~(laneAt placed (x + 1) y) &&& laneAt placed (x + 2) y)
  rows.modifyHead (· ^^^ rc)

/-- The permutation. -/
def keccakF (a : Lanes) : Lanes := keccakRc.foldl keccakRound a

/-- The lanes of bytes, eight bytes little-endian each; missing bytes are zero. -/
def lanesOfBytes (bs : List Byte) : Lanes :=
  (List.range 25).map fun i => BitVec.ofNat 64 (leNat ((bs.drop (8 * i)).take 8))

/-- A state with the bytes of one block exclusive-ored in. -/
def absorbBlock (a : Lanes) (bs : List Byte) : Lanes := keccakF (a.zipWith (· ^^^ ·) (lanesOfBytes bs))

/-- `n` blocks of `rate` bytes absorbed. -/
def absorb (rate : Nat) : Nat → Lanes → List Byte → Lanes
  | 0, a, _ => a
  | n + 1, a, bs => absorb rate n (absorbBlock a (bs.take rate)) (bs.drop rate)

/-- A message padded to whole blocks: the suffix byte, zeros, and the top bit of the last byte. -/
def padKeccak (rate suffix : Nat) (m : List Byte) : List Byte :=
  let z := rate - 1 - m.length % rate
  if z = 0 then m ++ [BitVec.ofNat 8 (suffix + 0x80)]
  else m ++ [BitVec.ofNat 8 suffix] ++ List.replicate (z - 1) 0 ++ [0x80]

/-- The sponge, for at most `rate` bytes of output. -/
def sponge (rate suffix out : Nat) (m : List Byte) : List Byte :=
  let p := padKeccak rate suffix m
  let a := absorb rate (p.length / rate) (List.replicate 25 0) p
  (a.flatMap fun l => leBytes 8 l.toNat).take out

/-- SHA3-256. -/
def sha3_256 (m : List Byte) : List Byte := sponge 136 0x06 32 m
/-- SHA3-512. -/
def sha3_512 (m : List Byte) : List Byte := sponge 72 0x06 64 m

/-- `n` in as few big-endian bytes as hold it, at least one. -/
def beBytesMin (n : Nat) : List Byte := (leBytes (max 1 ((bitLen n + 7) / 8)) n).reverse

/-- `left_encode` of SP 800-185. -/
def leftEncode (n : Nat) : List Byte := BitVec.ofNat 8 (beBytesMin n).length :: beBytesMin n
/-- `right_encode` of SP 800-185. -/
def rightEncode (n : Nat) : List Byte := beBytesMin n ++ [BitVec.ofNat 8 (beBytesMin n).length]
/-- `encode_string` of SP 800-185. -/
def encodeString (s : List Byte) : List Byte := leftEncode (8 * s.length) ++ s
/-- `bytepad` of SP 800-185. -/
def bytepad (s : List Byte) (w : Nat) : List Byte :=
  let p := leftEncode w ++ s
  p ++ List.replicate ((w - p.length % w) % w) 0

/-- The bytes of an ASCII string. -/
def asciiBytes (s : String) : List Byte := s.toList.map fun c => BitVec.ofNat 8 c.toNat

/-- KMAC256 of a message under a key, `out` bytes long, with a customisation string. -/
def kmac256 (key m : List Byte) (out : Nat) (custom : List Byte) : List Byte :=
  sponge 136 0x04 out (bytepad (encodeString (asciiBytes "KMAC") ++ encodeString custom) 136 ++
    bytepad (encodeString key) 136 ++ m ++ rightEncode (8 * out))

/-- The parameters of a check code of `width` bits (R322). -/
structure CrcParams where
  width : Nat
  poly : Nat
  init : Nat
  xorOut : Nat
  refIn : Bool
  refOut : Bool
  deriving DecidableEq, Repr

/-- The low `n` bits of a number in reverse order. -/
def reflect : Nat → Nat → Nat
  | 0, _ => 0
  | n + 1, v => (v % 2) * 2 ^ n + reflect n (v / 2)

/-- `n` steps of the shift register of a CRC. -/
def crcSteps (p : CrcParams) : Nat → Nat → Nat
  | 0, r => r
  | n + 1, r => crcSteps p n (if r.testBit (p.width - 1) then ((2 * r) ^^^ p.poly) % 2 ^ p.width else 2 * r % 2 ^ p.width)

/-- One byte, eight bits at once for a width of at least 8, else bit by bit. -/
def crcByte (p : CrcParams) (r : Nat) (b : Byte) : Nat :=
  let v := if p.refIn then reflect 8 b.toNat else b.toNat
  if 8 ≤ p.width then crcSteps p 8 (r ^^^ (v <<< (p.width - 8)))
  else (List.range 8).foldl (fun r i => crcSteps p 1 (r ^^^ (bNat (v.testBit (7 - i)) <<< (p.width - 1)))) r

/-- The check value of data. -/
def crcOf (p : CrcParams) (d : List Byte) : Nat :=
  let r := d.foldl (crcByte p) (p.init % 2 ^ p.width)
  ((if p.refOut then reflect p.width r else r) ^^^ p.xorOut) % 2 ^ p.width

/-- CRC-32C (R440). -/
def crc32c (d : List Byte) : Nat :=
  crcOf { width := 32, poly := 0x1EDC6F41, init := 0xFFFFFFFF, xorOut := 0xFFFFFFFF, refIn := true, refOut := true } d

end Sys2Proof.Machine
end

