-- ==== Sys2Proof/Machine/FurovFrame.lean ====
section
/-!
DEFINITION. The frames of the Furov link as bytes and as the blocks of its lanes (11 R282 to R284).
-/
namespace Sys2Proof.Machine

/-! ### Frames (R283, R284) -/

/-- TYPE of a content (R284). -/
def FurovBody.typ : FurovBody → Nat
  | .hello _ => 0x01
  | .ack _ => 0x02
  | .input .. => 0x03
  | .tick .. => 0x04
  | .snapshot .. => 0x05
  | .digest _ => 0x06
  | .health _ => 0x07
  | .forward .. => 0x08
  | .state _ => 0x09
  | .time .. => 0x0A
  | .token .. => 0x0B
  | .job _ => 0x0C

/-- The 24 bytes of a digest entry (R289). -/
def digestBytes (e : DigestEntry) : List Byte :=
  leBytes 1 e.source ++ leBytes 1 e.task ++ leBytes 6 0 ++ leBytes 8 e.inst ++ leBytes 8 e.digest

/-- The bytes of a content: an acknowledged SEQ is a u64 (R284) and a digest entry has its layout (R289); no other layout
is given (assumption 15). -/
def contentBytes : FurovBody → List Byte
  | .ack q => leBytes 8 q
  | .digest e => digestBytes e
  | b => Config.furovPayload b

/-- Bytes filled up with zeros to a multiple of 8. -/
def fill8 (bs : List Byte) : List Byte := bs ++ List.replicate ((8 - bs.length % 8) % 8) 0

/-- The payload of a frame: LEN is at most 65 528 and a multiple of 8 (R283). -/
def framePayload (b : FurovBody) : List Byte := fill8 ((contentBytes b).take 65528)

/-- The 16-byte header (R283). -/
def frameHeader (f : FurovFrame) (len : Nat) : List Byte :=
  leBytes 1 f.body.typ ++ leBytes 1 (bNat f.retx) ++ leBytes 2 len ++ leBytes 4 f.epoch ++ leBytes 8 f.seq

/-- The nonce: EPOCH, then SEQ (R283). -/
def frameNonce (f : FurovFrame) : List Byte := leBytes 4 f.epoch ++ leBytes 8 f.seq

/-- A frame as bytes: the header as additional authenticated data, the payload encrypted, and the tag (R283). -/
def frameBytes (key : List Byte) (f : FurovFrame) : List Byte :=
  let plain := framePayload f.body
  let head := frameHeader f plain.length
  head ++ (List.range plain.length).map (Config.gcmByte key (frameNonce f) head plain) ++
    (List.range 16).map (Config.gcmTag key (frameNonce f) head plain)

/-! ### Blocks (R282) -/

/-- A control block of a type, with the bytes after it. -/
def ctlBlock (typ : Nat) (bs : List Byte) : LineBlock := ⟨true, leBytes 1 typ ++ bs ++ List.replicate (7 - bs.length) 0⟩

def startBlock : LineBlock := ctlBlock 0x78 []
def endBlock : LineBlock := ctlBlock 0x87 []
def idleBlock : LineBlock := ctlBlock 0x1E []

/-- The alignment marker of a lane: its number in byte 1 and the marker count in bytes 2 and 3. -/
def markerBlock (lane count : Nat) : LineBlock := ctlBlock 0x4B (leBytes 1 lane ++ leBytes 2 count)

/-- The data blocks of 8 bytes each, `n` of them. -/
def dataBlocks : Nat → List Byte → List LineBlock
  | 0, _ => []
  | n + 1, bs => ⟨false, bs.take 8⟩ :: dataBlocks n (bs.drop 8)

/-- A frame as blocks: a start block, the data blocks, and a terminate block. -/
def frameBlocks (bs : List Byte) : List LineBlock := startBlock :: (dataBlocks (bs.length / 8) bs ++ [endBlock])

/-- What a receiver reads from blocks in their order: a frame from each start block to its terminate block; idle blocks
and markers fill the line, and any other control block inside a frame ends it unread. `cur` is the frame in progress. -/
def readFrames : Option (List Byte) → List LineBlock → List (List Byte)
  | _, [] => []
  | cur, b :: bs =>
    if b = startBlock then readFrames (some []) bs
    else match cur with
      | none => readFrames none bs
      | some fr =>
        if !b.ctl then readFrames (some (fr ++ b.bytes)) bs
        else if b = endBlock then fr :: readFrames none bs
        else if b.bytes.head? = some 0x4B then readFrames (some fr) bs
        else readFrames none bs

/-! ### Lanes (R282) -/

/-- Blocks per lane between alignment markers. -/
def markerEvery : Nat := 16384

/-- One block sent: blocks alternate between the lanes in service from the first one after each set of markers; after 16
384 blocks per lane each lane sends its marker. -/
def putBlock (lanes : List Nat) (t : LaneTx) (b : LineBlock) : LaneTx × List (Nat × LineBlock) :=
  let here := (lanes.getD (t.pos % lanes.length) 0, b)
  if t.pos + 1 = markerEvery * lanes.length then
    ({ t with pos := 0, marks := (t.marks + 1) % 65536 }, here :: lanes.map fun l => (l, markerBlock l t.marks))
  else ({ t with pos := t.pos + 1 }, [here])

/-- Blocks sent in order. -/
def putBlocks (lanes : List Nat) : LaneTx → List LineBlock → LaneTx × List (Nat × LineBlock)
  | t, [] => (t, [])
  | t, b :: bs =>
    let (t, x) := putBlock lanes t b
    let (t, y) := putBlocks lanes t bs
    (t, x ++ y)

/-- The blocks of one lane, without its markers. -/
def laneBlocks (lane : Nat) (xs : List (Nat × LineBlock)) : List LineBlock :=
  (xs.filter fun x => x.1 = lane && !(x.2.ctl && x.2.bytes.head? = some 0x4B)).map (·.2)

/-- The blocks of two aligned lanes, one from each in turn. -/
def mergeLanes : List LineBlock → List LineBlock → List LineBlock
  | [], l => l
  | a :: as, [] => a :: as
  | a :: as, b :: bs => a :: b :: mergeLanes as bs

/-- The lanes in service, by the mask of those in block lock (R285). -/
def lanesIn (mask : Nat) : List Nat := (List.range 2).filter mask.testBit

end Sys2Proof.Machine
end

