-- ==== Sys2Proof/Machine/Mem.lean ====
section
/-!
DEFINITION. Sparse maps keyed by a number in one canonical form (keys strictly rising, no entry equal to what an
unlisted key reads as), and the byte memories built on them.
-/
namespace Sys2Proof.Machine

variable {β : Type}

/-- What a key holds: its entry, or the default of the key. -/
def amGet (d : Nat → β) : List (Nat × β) → Nat → β
  | [], k => d k
  | (k', v) :: m, k => if k = k' then v else amGet d m k

/-- The entries whose key lies below, and above, a key. -/
def amBelow (m : List (Nat × β)) (k : Nat) : List (Nat × β) := m.filter fun e => e.1 < k
def amAbove (m : List (Nat × β)) (k : Nat) : List (Nat × β) := m.filter fun e => k < e.1

/-- The map with a key set, in canonical form. -/
def amSet [DecidableEq β] (d : Nat → β) (m : List (Nat × β)) (k : Nat) (v : β) : List (Nat × β) :=
  amBelow m k ++ (if v = d k then amAbove m k else (k, v) :: amAbove m k)

/-- Keys strictly rise from above `lo`, and no entry equals its default. -/
def amWfFrom [DecidableEq β] (d : Nat → β) : Option Nat → List (Nat × β) → Bool
  | _, [] => true
  | lo, (k, v) :: m => (match lo with | none => true | some l => l < k) && v ≠ d k && amWfFrom d (some k) m

/-- The canonical form of a map. -/
def amWf [DecidableEq β] (d : Nat → β) (m : List (Nat × β)) : Bool := amWfFrom d none m

/-- The entry of a key in a list of pairs with rising keys. -/
def alGet? (m : List (Nat × β)) (k : Nat) : Option β := (m.find? fun e => e.1 = k).map (·.2)

/-- The list with a key set, keys rising. -/
def alPut (m : List (Nat × β)) (k : Nat) (v : β) : List (Nat × β) := amBelow m k ++ (k, v) :: amAbove m k

/-- The list without a key. -/
def alDel (m : List (Nat × β)) (k : Nat) : List (Nat × β) := m.filter fun e => e.1 != k

/-- What an unlisted byte of any memory reads as (assumption 7). -/
def unlisted : Nat → Byte := fun _ => 0

/-- One byte of a memory. -/
def memRead (m : List Host.Cell) (a : Nat) : Byte := amGet unlisted m a

/-- The memory with one byte written. -/
def memWrite (m : List Host.Cell) (a : Nat) (b : Byte) : List Host.Cell := amSet unlisted m a b

/-- The canonical form of a memory. -/
def Memory.wf (m : List Host.Cell) : Bool := amWf unlisted m

/-- `n` bytes of a memory from an address. -/
def memBytes (m : List Host.Cell) (a : Nat) : Nat → List Byte
  | 0 => []
  | n + 1 => memRead m a :: memBytes m (a + 1) n

/-- The little-endian value of `n` bytes of a memory. -/
def memLe (m : List Host.Cell) (a n : Nat) : Nat := leNat (memBytes m a n)

/-- The memory with bytes written from an address on. -/
def memPut (m : List Host.Cell) (a : Nat) : List Byte → List Host.Cell
  | [] => m
  | b :: bs => memPut (memWrite m a b) (a + 1) bs

/-- Cells with bytes put from an address on, zero bytes among them: what waits to be written to a memory. -/
def cellsPut (m : List Host.Cell) (a : Nat) : List Byte → List Host.Cell
  | [] => m
  | b :: bs => cellsPut (alPut m a b) (a + 1) bs

/-- The bytes of a list from an address on that differ from what an unlisted byte reads as. -/
def cellsOf (a : Nat) : List Byte → List Host.Cell
  | [] => []
  | b :: bs => if b = 0 then cellsOf (a + 1) bs else (a, b) :: cellsOf (a + 1) bs

/-- The memory with a block of bytes written from an address on: as `memPut`, in one pass. -/
def memBlock (m : List Host.Cell) (a : Nat) (bs : List Byte) : List Host.Cell :=
  (m.filter fun c => c.1 < a) ++ cellsOf a bs ++ m.filter fun c => a + bs.length ≤ c.1

/-- The memory with cells written in order. -/
def memPutCells (m : List Host.Cell) : List Host.Cell → List Host.Cell
  | [] => m
  | (a, b) :: cs => memPutCells (memWrite m a b) cs

/-- The listed cells whose address satisfies a test, which stay in canonical form. -/
def memKeep (p : Nat → Bool) (m : List Host.Cell) : List Host.Cell := m.filter fun c => p c.1

/-- The memory with every byte from `lo` up to below `hi` back at what an unlisted byte reads as. -/
def memClear (m : List Host.Cell) (lo hi : Nat) : List Host.Cell := memKeep (fun a => a < lo || hi ≤ a) m

/-- The part of a memory from `lo` up to below `hi`. -/
def memSlice (m : List Host.Cell) (lo hi : Nat) : List Host.Cell := memKeep (fun a => lo ≤ a && a < hi) m

/-- The memory with the range [lo, hi) taken from another memory. -/
def memCopyRange (src dst : List Host.Cell) (lo hi : Nat) : List Host.Cell :=
  memPutCells (memClear dst lo hi) (memSlice src lo hi)

end Sys2Proof.Machine
end

