-- ==== Sys2Proof/Machine/RegTable.lean ====
section
/-!
DEFINITION. The registers of the control space, transcribed from the register tables of the chapters:
SYS CLK PWR 19 R472 to R474, NSA 03 R88, DPO 04 R115, LPE 05 R136, MTR 06 R161, SCN 10 R269, RED 11 R302,
SES CHK QUE 12 R335 to R337, TIM 13 R359, RTC 14 R377, CAN UART 15 R396 R397, FIO 16 R415, SEC FUSE 17 R437,
EVR 18 R454; bases and offsets 21 R492. Bits that no field names are reserved (R9). Reset values are those of the
tables; a "kept", "fuse", "strap" or "cause" value is the one of assumptions 5 and 6.
-/
namespace Sys2Proof.Machine

/-- The field types of R8. -/
inductive Kind where
  | rw | ro | w1c | w1s | wo | rwl
  deriving DecidableEq, Repr

/-- One field of a register: bits [hi:lo], its type and its reset value. -/
structure FieldDef where
  hi : Nat
  lo : Nat
  kind : Kind
  reset : Nat
  deriving DecidableEq, Repr

/-- One register, or an array of `count` registers `stride` apart, at offset `off` of its block. -/
structure RegDef where
  off : Nat
  stride : Nat
  count : Nat
  fields : List FieldDef
  deriving DecidableEq, Repr

/-- A named field: the address of its register (or of element 0), the stride of the array, and its bits. -/
structure Fld where
  addr : Nat
  stride : Nat
  hi : Nat
  lo : Nat
  deriving DecidableEq, Repr

/-- The registers of the SYS block. -/
def regsSYS : List RegDef := [
  ⟨0x0, 0x0, 1, [⟨8, 8, .w1s, 0⟩]⟩ /- SYS_CTRL -/,
  ⟨0x4, 0x0, 1, [⟨1, 1, .w1c, 0⟩, ⟨0, 0, .w1c, 0⟩]⟩ /- SYS_STATUS -/,
  ⟨0x8, 0x0, 1, [⟨0, 0, .rwl, 1⟩]⟩ /- SYS_CFG -/,
  ⟨0xc, 0x0, 1, [⟨15, 8, .wo, 0⟩, ⟨1, 0, .wo, 0⟩]⟩ /- SYS_RESET -/,
  ⟨0x10, 0x0, 1, [⟨31, 30, .ro, 0⟩, ⟨29, 28, .ro, 0⟩, ⟨16, 16, .ro, 0⟩, ⟨9, 0, .ro, 0⟩]⟩ /- SYS_RESET_CAUSE -/,
  ⟨0x14, 0x0, 1, [⟨31, 0, .ro, 0⟩]⟩ /- SYS_BUS_ERR_LO -/,
  ⟨0x18, 0x0, 1, [⟨31, 0, .ro, 0⟩]⟩ /- SYS_BUS_ERR_HI -/]

/-- The registers of the CLK block. -/
def regsCLK : List RegDef := [
  ⟨0x0, 0x0, 1, [⟨8, 8, .w1s, 0⟩, ⟨2, 2, .wo, 0⟩]⟩ /- CLK_CTRL -/,
  ⟨0x4, 0x0, 1, [⟨31, 31, .ro, 0⟩, ⟨30, 30, .ro, 0⟩, ⟨23, 21, .ro, 0⟩, ⟨4, 0, .ro, 0⟩]⟩ /- CLK_STATUS -/,
  ⟨0x8, 0x0, 1, [⟨3, 3, .w1c, 0⟩, ⟨2, 2, .w1c, 0⟩, ⟨1, 1, .w1c, 0⟩, ⟨0, 0, .w1c, 0⟩]⟩ /- CLK_EVENTS -/,
  ⟨0xc, 0x0, 1, [⟨14, 0, .rwl, 0⟩]⟩ /- CLK_SRC -/,
  ⟨0x10, 0x0, 1, [⟨16, 16, .rw, 0⟩, ⟨15, 15, .rw, 0⟩, ⟨14, 13, .rw, 0⟩, ⟨12, 9, .rw, 0⟩, ⟨8, 8, .rw, 0⟩, ⟨7, 4, .rw, 0⟩, ⟨3, 0, .rw, 0⟩]⟩ /- CLK_GATE_PERI -/,
  ⟨0x14, 0x0, 1, [⟨16, 16, .rw, 1⟩, ⟨15, 15, .rw, 1⟩, ⟨14, 14, .rw, 1⟩, ⟨13, 13, .rw, 1⟩, ⟨12, 12, .rw, 0⟩, ⟨11, 11, .rw, 0⟩, ⟨10, 10, .rw, 0⟩, ⟨9, 9, .rw, 0⟩, ⟨8, 1, .rw, 0⟩, ⟨0, 0, .rw, 0⟩]⟩ /- CLK_GATE_ENG -/,
  ⟨0x18, 0x0, 1, [⟨24, 0, .ro, 0⟩]⟩ /- CLK_QUAL -/,
  ⟨0x1c, 0x0, 1, [⟨31, 0, .ro, 0⟩]⟩ /- CLK_CNT_FALLBACK -/]

/-- The registers of the PWR block. -/
def regsPWR : List RegDef := [
  ⟨0x0, 0x0, 1, [⟨8, 8, .w1s, 0⟩, ⟨2, 2, .wo, 0⟩]⟩ /- PWR_CTRL -/,
  ⟨0x4, 0x0, 1, [⟨4, 4, .ro, 0⟩, ⟨3, 3, .ro, 0⟩, ⟨2, 2, .ro, 0⟩, ⟨1, 1, .ro, 0⟩, ⟨0, 0, .ro, 0⟩]⟩ /- PWR_STATUS -/,
  ⟨0x8, 0x0, 1, [⟨2, 2, .w1c, 0⟩, ⟨1, 1, .w1c, 0⟩, ⟨0, 0, .w1c, 0⟩]⟩ /- PWR_EVENTS -/,
  ⟨0xc, 0x0, 1, [⟨15, 0, .ro, 0⟩]⟩ /- PWR_VIN -/,
  ⟨0x10, 0x0, 1, [⟨15, 0, .ro, 0⟩]⟩ /- PWR_VIN_MIN -/,
  ⟨0x14, 0x0, 1, [⟨15, 0, .ro, 0⟩]⟩ /- PWR_TEMP -/,
  ⟨0x18, 0x0, 1, [⟨31, 0, .ro, 0⟩]⟩ /- PWR_CNT_DIP -/]

/-- The registers of the NSA block. -/
def regsNSA : List RegDef := [
  ⟨0x0, 0x0, 1, [⟨8, 8, .w1s, 0⟩, ⟨2, 2, .wo, 0⟩, ⟨1, 1, .wo, 0⟩]⟩ /- NSA_CTRL -/,
  ⟨0x4, 0x0, 1, [⟨15, 12, .ro, 0⟩, ⟨11, 11, .ro, 0⟩, ⟨10, 10, .ro, 0⟩, ⟨9, 9, .ro, 0⟩, ⟨8, 8, .ro, 0⟩, ⟨1, 1, .ro, 1⟩, ⟨0, 0, .ro, 1⟩]⟩ /- NSA_STATUS -/,
  ⟨0x8, 0x0, 1, [⟨10, 10, .ro, 0⟩, ⟨8, 8, .ro, 0⟩, ⟨6, 4, .ro, 0⟩, ⟨2, 0, .ro, 0⟩]⟩ /- NSA_MODEL_STATUS -/,
  ⟨0xc, 0x0, 1, [⟨31, 24, .ro, 0⟩, ⟨23, 20, .ro, 0⟩, ⟨15, 0, .ro, 0⟩]⟩ /- NSA_MODEL_ERR -/,
  ⟨0x10, 0x0, 1, [⟨31, 0, .ro, 0⟩]⟩ /- NSA_MODEL_SERIAL -/,
  ⟨0x14, 0x0, 1, [⟨31, 0, .ro, 0⟩]⟩ /- NSA_HS_LO -/,
  ⟨0x18, 0x0, 1, [⟨31, 0, .ro, 0⟩]⟩ /- NSA_HS_HI -/,
  ⟨0x1c, 0x0, 1, [⟨31, 0, .ro, 0⟩]⟩ /- NSA_CYCLE_LO -/,
  ⟨0x20, 0x0, 1, [⟨31, 0, .ro, 0⟩]⟩ /- NSA_CYCLE_HI -/,
  ⟨0x24, 0x0, 1, [⟨31, 0, .ro, 0⟩]⟩ /- NSA_HT_LO -/,
  ⟨0x28, 0x0, 1, [⟨31, 0, .ro, 0⟩]⟩ /- NSA_HT_HI -/,
  ⟨0x2c, 0x0, 1, [⟨23, 16, .rwl, 240⟩, ⟨15, 8, .rwl, 15⟩, ⟨7, 0, .rwl, 255⟩]⟩ /- NSA_ALLOC -/,
  ⟨0x30, 0x0, 1, [⟨15, 8, .ro, 0⟩, ⟨7, 0, .ro, 0⟩]⟩ /- NSA_CLUSTER -/,
  ⟨0x34, 0x0, 1, [⟨7, 7, .w1c, 0⟩, ⟨6, 6, .w1c, 0⟩, ⟨5, 5, .w1c, 0⟩, ⟨4, 4, .w1c, 0⟩, ⟨3, 3, .w1c, 0⟩, ⟨2, 2, .w1c, 0⟩, ⟨1, 1, .w1c, 0⟩, ⟨0, 0, .w1c, 0⟩]⟩ /- NSA_EVENTS -/,
  ⟨0x38, 0x0, 1, [⟨5, 5, .w1c, 0⟩, ⟨4, 4, .w1c, 0⟩, ⟨3, 3, .w1c, 0⟩, ⟨2, 2, .w1c, 0⟩, ⟨1, 1, .w1c, 0⟩, ⟨0, 0, .w1c, 0⟩]⟩ /- NSA_SAT -/,
  ⟨0x3c, 0x0, 1, [⟨31, 0, .ro, 0⟩]⟩ /- NSA_CNT_MISSED -/,
  ⟨0x40, 0x0, 1, [⟨31, 0, .ro, 0⟩]⟩ /- NSA_CNT_ABANDON -/,
  ⟨0x44, 0x0, 1, [⟨31, 0, .ro, 0⟩]⟩ /- NSA_CNT_RETRY -/,
  ⟨0x48, 0x0, 1, [⟨31, 0, .ro, 0⟩]⟩ /- NSA_CNT_DEADLINE -/,
  ⟨0x4c, 0x0, 1, [⟨31, 0, .ro, 0⟩]⟩ /- NSA_CNT_PIVOT -/,
  ⟨0x50, 0x0, 1, [⟨31, 0, .ro, 0⟩]⟩ /- NSA_LAST_TIME -/]

/-- The registers of the DPO block. -/
def regsDPO : List RegDef := [
  ⟨0x0, 0x0, 1, [⟨2, 2, .wo, 0⟩, ⟨1, 1, .rw, 0⟩, ⟨0, 0, .rw, 0⟩]⟩ /- DPO_CTRL -/,
  ⟨0x4, 0x0, 1, [⟨15, 12, .ro, 0⟩, ⟨11, 8, .ro, 0⟩, ⟨5, 5, .ro, 0⟩, ⟨4, 4, .ro, 1⟩, ⟨3, 3, .ro, 0⟩, ⟨2, 2, .ro, 1⟩, ⟨1, 1, .ro, 1⟩]⟩ /- DPO_STATUS -/,
  ⟨0x8, 0x0, 1, [⟨31, 0, .ro, 0⟩]⟩ /- DPO_DEC_LO -/,
  ⟨0xc, 0x0, 1, [⟨31, 0, .ro, 0⟩]⟩ /- DPO_DEC_HI -/,
  ⟨0x10, 0x0, 1, [⟨31, 0, .ro, 0⟩]⟩ /- DPO_FCST_SERIAL -/,
  ⟨0x14, 0x0, 1, [⟨4, 4, .ro, 0⟩, ⟨3, 0, .ro, 1⟩]⟩ /- DPO_PLY_LAST -/,
  ⟨0x18, 0x0, 1, [⟨31, 0, .ro, 2147483647⟩]⟩ /- DPO_PLY_RES_P -/,
  ⟨0x1c, 0x0, 1, [⟨31, 0, .ro, 2147483647⟩]⟩ /- DPO_PLY_RES_Q -/,
  ⟨0x20, 0x0, 1, [⟨31, 0, .ro, 2147483647⟩]⟩ /- DPO_PLY_RES_T -/,
  ⟨0x24, 0x0, 1, [⟨6, 6, .w1c, 0⟩, ⟨5, 5, .w1c, 0⟩, ⟨4, 4, .w1c, 0⟩, ⟨3, 3, .w1c, 0⟩, ⟨2, 2, .w1c, 0⟩, ⟨1, 1, .w1c, 0⟩, ⟨0, 0, .w1c, 0⟩]⟩ /- DPO_EVENTS -/,
  ⟨0x28, 0x0, 1, [⟨31, 0, .ro, 0⟩]⟩ /- DPO_CNT_COMMIT -/,
  ⟨0x2c, 0x0, 1, [⟨31, 0, .ro, 0⟩]⟩ /- DPO_CNT_SQUASH -/,
  ⟨0x30, 0x0, 1, [⟨31, 0, .ro, 0⟩]⟩ /- DPO_CNT_NOPLY -/,
  ⟨0x34, 0x0, 1, [⟨31, 0, .ro, 0⟩]⟩ /- DPO_CNT_APPLIED -/,
  ⟨0x38, 0x0, 1, [⟨31, 0, .ro, 0⟩]⟩ /- DPO_CNT_KEPT -/,
  ⟨0x3c, 0x0, 1, [⟨31, 0, .ro, 0⟩]⟩ /- DPO_LAST_TIME -/]

/-- The registers of the LPE block. -/
def regsLPE : List RegDef := [
  ⟨0x0, 0x0, 1, [⟨8, 8, .w1s, 0⟩, ⟨2, 2, .wo, 0⟩, ⟨1, 1, .wo, 0⟩]⟩ /- LPE_CTRL -/,
  ⟨0x4, 0x0, 1, [⟨31, 31, .ro, 0⟩, ⟨30, 30, .ro, 0⟩, ⟨25, 16, .ro, 0⟩, ⟨9, 0, .ro, 0⟩]⟩ /- LPE_STATUS -/,
  ⟨0x8, 0x0, 1, [⟨3, 3, .w1c, 0⟩, ⟨2, 2, .w1c, 0⟩, ⟨1, 1, .w1c, 0⟩, ⟨0, 0, .w1c, 0⟩]⟩ /- LPE_EVENTS -/,
  ⟨0xc, 0x0, 1, [⟨8, 0, .rwl, 500⟩]⟩ /- LPE_CFG -/,
  ⟨0x10, 0x0, 1, [⟨31, 0, .ro, 0⟩]⟩ /- LPE_CNT_EVAL -/,
  ⟨0x14, 0x0, 1, [⟨31, 0, .ro, 0⟩]⟩ /- LPE_CNT_REGION -/,
  ⟨0x18, 0x0, 1, [⟨31, 0, .ro, 0⟩]⟩ /- LPE_CNT_SWITCH -/,
  ⟨0x40, 0x4, 16, [⟨31, 0, .ro, 0⟩]⟩ /- LPE_SAT_SUM -/,
  ⟨0x1000, 0x4, 512, [⟨15, 14, .ro, 0⟩, ⟨13, 11, .ro, 0⟩, ⟨10, 10, .ro, 0⟩, ⟨9, 9, .ro, 0⟩, ⟨8, 8, .ro, 0⟩, ⟨6, 6, .ro, 0⟩, ⟨4, 4, .w1c, 0⟩, ⟨3, 3, .w1c, 0⟩, ⟨2, 2, .w1c, 0⟩, ⟨1, 1, .w1c, 0⟩, ⟨0, 0, .w1c, 0⟩]⟩ /- LPE_LOOP_STAT -/,
  ⟨0x1800, 0x4, 512, [⟨31, 0, .ro, 0⟩]⟩ /- LPE_LOOP_OUT -/,
  ⟨0x2000, 0x4, 64, [⟨31, 31, .ro, 0⟩, ⟨24, 16, .ro, 0⟩, ⟨3, 0, .ro, 0⟩]⟩ /- LPE_GROUP_STAT -/,
  ⟨0x2100, 0x4, 64, [⟨31, 0, .ro, 0⟩]⟩ /- LPE_GROUP_OUT -/]

/-- The registers of the MTR block. -/
def regsMTR : List RegDef := [
  ⟨0x0, 0x0, 1, [⟨2, 2, .wo, 0⟩]⟩ /- MTR_CTRL -/,
  ⟨0x4, 0x0, 1, [⟨3, 3, .ro, 0⟩, ⟨2, 2, .ro, 1⟩, ⟨1, 1, .ro, 0⟩, ⟨0, 0, .ro, 0⟩]⟩ /- MTR_STATUS -/,
  ⟨0x8, 0x0, 1, [⟨16, 16, .ro, 0⟩, ⟨15, 0, .ro, 0⟩]⟩ /- MTR_LATCH_CFG -/,
  ⟨0xc, 0x0, 1, [⟨31, 0, .ro, 0⟩]⟩ /- MTR_LATCH_IDX_LO -/,
  ⟨0x10, 0x0, 1, [⟨31, 0, .ro, 0⟩]⟩ /- MTR_LATCH_IDX_HI -/,
  ⟨0x14, 0x0, 1, [⟨24, 16, .ro, 0⟩, ⟨7, 0, .ro, 0⟩]⟩ /- MTR_ARCH -/,
  ⟨0x18, 0x0, 1, [⟨31, 0, .rw, 0⟩]⟩ /- MTR_ARCH_ACK -/,
  ⟨0x1c, 0x0, 1, [⟨7, 7, .w1c, 0⟩, ⟨6, 6, .w1c, 0⟩, ⟨5, 5, .w1c, 0⟩, ⟨4, 4, .w1c, 0⟩, ⟨3, 3, .w1c, 0⟩, ⟨2, 2, .w1c, 0⟩, ⟨1, 1, .w1c, 0⟩, ⟨0, 0, .w1c, 0⟩]⟩ /- MTR_EVENTS -/,
  ⟨0x20, 0x0, 1, [⟨31, 0, .ro, 0⟩]⟩ /- MTR_CNT_GAP -/,
  ⟨0x24, 0x0, 1, [⟨31, 0, .ro, 0⟩]⟩ /- MTR_CNT_THERM_MISS -/,
  ⟨0x28, 0x0, 1, [⟨31, 0, .ro, 0⟩]⟩ /- MTR_CNT_ARCH_LOST -/,
  ⟨0x2c, 0x0, 1, [⟨31, 0, .ro, 0⟩]⟩ /- MTR_CNT_PULSE_LOST -/,
  ⟨0x40, 0x0, 1, [⟨31, 30, .rw, 0⟩, ⟨27, 16, .rw, 0⟩, ⟨3, 0, .rw, 0⟩]⟩ /- MTR_RD_SEL -/,
  ⟨0x44, 0x0, 1, [⟨31, 0, .ro, 0⟩]⟩ /- MTR_RD_LO -/,
  ⟨0x48, 0x0, 1, [⟨31, 0, .ro, 0⟩]⟩ /- MTR_RD_HI -/,
  ⟨0x4c, 0x0, 1, [⟨31, 0, .ro, 0⟩]⟩ /- MTR_RD_FRAC -/,
  ⟨0x100, 0x4, 32, [⟨31, 31, .ro, 0⟩, ⟨30, 30, .ro, 0⟩, ⟨15, 0, .ro, 0⟩]⟩ /- MTR_SV_STAT -/,
  ⟨0x180, 0x4, 32, [⟨31, 16, .ro, 0⟩, ⟨15, 0, .ro, 0⟩]⟩ /- MTR_SV_SUB -/,
  ⟨0x200, 0x4, 8, [⟨31, 31, .ro, 0⟩, ⟨30, 30, .ro, 0⟩, ⟨27, 16, .ro, 0⟩, ⟨15, 12, .ro, 0⟩, ⟨11, 8, .ro, 0⟩, ⟨7, 0, .ro, 0⟩]⟩ /- MTR_PULSE_CFG -/,
  ⟨0x220, 0x4, 8, [⟨31, 0, .ro, 0⟩]⟩ /- MTR_PULSE_WT -/,
  ⟨0x240, 0x4, 8, [⟨31, 31, .ro, 0⟩, ⟨30, 30, .w1c, 0⟩, ⟨15, 0, .ro, 0⟩]⟩ /- MTR_PULSE_STAT -/]

/-- The registers of the SCN block. -/
def regsSCN : List RegDef := [
  ⟨0x0, 0x0, 1, [⟨8, 8, .w1s, 0⟩, ⟨2, 2, .wo, 0⟩, ⟨1, 1, .wo, 0⟩]⟩ /- SCN_CTRL -/,
  ⟨0x4, 0x0, 1, [⟨31, 31, .ro, 0⟩, ⟨30, 30, .ro, 0⟩, ⟨29, 29, .ro, 0⟩, ⟨9, 8, .ro, 0⟩, ⟨4, 4, .ro, 0⟩, ⟨3, 0, .ro, 0⟩]⟩ /- SCN_STATUS -/,
  ⟨0x8, 0x0, 1, [⟨9, 0, .rwl, 50⟩]⟩ /- SCN_CFG -/,
  ⟨0xc, 0x0, 1, [⟨31, 0, .ro, 0⟩]⟩ /- SCN_PROG_SERIAL -/,
  ⟨0x10, 0x0, 1, [⟨11, 8, .ro, 0⟩, ⟨1, 0, .ro, 0⟩]⟩ /- SCN_EXCH -/,
  ⟨0x14, 0x0, 1, [⟨31, 0, .ro, 0⟩]⟩ /- SCN_EXCH_AT_LO -/,
  ⟨0x18, 0x0, 1, [⟨31, 0, .ro, 0⟩]⟩ /- SCN_EXCH_AT_HI -/,
  ⟨0x1c, 0x0, 1, [⟨26, 16, .ro, 0⟩, ⟨10, 0, .ro, 0⟩]⟩ /- SCN_FORCE_CNT -/,
  ⟨0x20, 0x0, 1, [⟨8, 8, .w1c, 0⟩, ⟨7, 7, .w1c, 0⟩, ⟨6, 6, .w1c, 0⟩, ⟨5, 5, .w1c, 0⟩, ⟨4, 4, .w1c, 0⟩, ⟨3, 3, .w1c, 0⟩, ⟨2, 2, .w1c, 0⟩, ⟨1, 1, .w1c, 0⟩, ⟨0, 0, .w1c, 0⟩]⟩ /- SCN_EVENTS -/,
  ⟨0x24, 0x0, 1, [⟨31, 0, .ro, 0⟩]⟩ /- SCN_CNT_REROLL -/,
  ⟨0x28, 0x0, 1, [⟨31, 0, .ro, 0⟩]⟩ /- SCN_CNT_OVERRUN -/,
  ⟨0x2c, 0x0, 1, [⟨31, 0, .ro, 0⟩]⟩ /- SCN_CNT_PROG_ERR -/,
  ⟨0x30, 0x0, 1, [⟨31, 0, .ro, 0⟩]⟩ /- SCN_CNT_PREEMPT -/,
  ⟨0x40, 0x0, 1, [⟨9, 0, .rw, 0⟩]⟩ /- SCN_FORCE_SEL -/,
  ⟨0x44, 0x0, 1, [⟨31, 31, .rw, 0⟩, ⟨30, 30, .rw, 0⟩, ⟨15, 0, .rw, 0⟩]⟩ /- SCN_FORCE_ENT -/,
  ⟨0x48, 0x0, 1, [⟨31, 0, .rw, 0⟩]⟩ /- SCN_FORCE_VAL_LO -/,
  ⟨0x4c, 0x0, 1, [⟨31, 0, .rw, 0⟩]⟩ /- SCN_FORCE_VAL_HI -/,
  ⟨0x50, 0x0, 1, [⟨1, 0, .wo, 0⟩]⟩ /- SCN_FORCE_CMD -/,
  ⟨0x54, 0x0, 1, [⟨31, 31, .ro, 0⟩, ⟨7, 4, .ro, 0⟩]⟩ /- SCN_FORCE_RES -/,
  ⟨0x100, 0x4, 16, [⟨31, 31, .ro, 0⟩, ⟨27, 26, .ro, 0⟩, ⟨23, 20, .ro, 0⟩, ⟨19, 19, .ro, 0⟩, ⟨15, 12, .ro, 0⟩, ⟨11, 0, .ro, 0⟩]⟩ /- SCN_TASK_CFG -/,
  ⟨0x140, 0x4, 16, [⟨31, 29, .ro, 0⟩, ⟨23, 16, .ro, 0⟩, ⟨15, 8, .ro, 0⟩, ⟨3, 0, .ro, 0⟩]⟩ /- SCN_TASK_STAT -/,
  ⟨0x180, 0x4, 16, [⟨31, 0, .ro, 0⟩]⟩ /- SCN_TASK_TIME -/,
  ⟨0x1c0, 0x4, 16, [⟨31, 0, .ro, 0⟩]⟩ /- SCN_TASK_MAX -/,
  ⟨0x200, 0x4, 16, [⟨31, 0, .ro, 0⟩]⟩ /- SCN_TASK_OVR -/,
  ⟨0x300, 0x4, 4, [⟨31, 31, .ro, 0⟩, ⟨23, 16, .ro, 0⟩, ⟨15, 0, .ro, 0⟩]⟩ /- SCN_CORE_STAT -/]

/-- The registers of the RED block. -/
def regsRED : List RegDef := [
  ⟨0x0, 0x0, 1, [⟨8, 8, .w1s, 0⟩, ⟨2, 2, .wo, 0⟩]⟩ /- RED_CTRL -/,
  ⟨0x4, 0x0, 1, [⟨31, 28, .ro, 0⟩, ⟨27, 24, .ro, 15⟩, ⟨21, 20, .ro, 0⟩, ⟨19, 18, .ro, 0⟩, ⟨17, 17, .ro, 0⟩, ⟨16, 16, .ro, 0⟩, ⟨15, 15, .ro, 0⟩, ⟨8, 8, .ro, 0⟩, ⟨7, 7, .ro, 0⟩, ⟨6, 6, .ro, 0⟩, ⟨5, 5, .ro, 0⟩, ⟨4, 4, .ro, 0⟩, ⟨3, 3, .ro, 0⟩]⟩ /- RED_STATUS -/,
  ⟨0x8, 0x0, 1, [⟨18, 18, .rwl, 1⟩, ⟨17, 17, .rwl, 0⟩, ⟨16, 16, .rwl, 1⟩, ⟨15, 8, .rwl, 32⟩, ⟨7, 0, .rwl, 128⟩]⟩ /- RED_CFG -/,
  ⟨0xc, 0x0, 1, [⟨15, 0, .rwl, 2000⟩]⟩ /- RED_STALE -/,
  ⟨0x10, 0x0, 1, [⟨9, 0, .rwl, 200⟩]⟩ /- RED_KEEPER -/,
  ⟨0x14, 0x0, 1, [⟨7, 0, .wo, 0⟩]⟩ /- RED_REFRESH -/,
  ⟨0x18, 0x0, 1, [⟨31, 24, .ro, 0⟩, ⟨23, 16, .ro, 0⟩, ⟨3, 3, .ro, 0⟩, ⟨2, 2, .ro, 0⟩, ⟨1, 1, .ro, 0⟩, ⟨0, 0, .ro, 0⟩]⟩ /- RED_HEALTH -/,
  ⟨0x1c, 0x0, 1, [⟨13, 0, .ro, 0⟩]⟩ /- RED_PENALTY -/,
  ⟨0x20, 0x0, 1, [⟨2, 0, .wo, 0⟩]⟩ /- RED_CMD -/,
  ⟨0x24, 0x0, 1, [⟨9, 9, .w1c, 0⟩, ⟨8, 8, .w1c, 0⟩, ⟨7, 7, .w1c, 0⟩, ⟨6, 6, .w1c, 0⟩, ⟨5, 5, .w1c, 0⟩, ⟨4, 4, .w1c, 0⟩, ⟨3, 3, .w1c, 0⟩, ⟨2, 2, .w1c, 0⟩, ⟨1, 1, .w1c, 0⟩, ⟨0, 0, .w1c, 0⟩]⟩ /- RED_EVENTS -/,
  ⟨0x28, 0x0, 1, [⟨31, 16, .ro, 0⟩, ⟨11, 8, .ro, 0⟩, ⟨1, 0, .ro, 0⟩]⟩ /- RED_LINK -/,
  ⟨0x2c, 0x0, 1, [⟨31, 28, .ro, 0⟩, ⟨27, 24, .ro, 0⟩, ⟨23, 16, .ro, 0⟩, ⟨3, 2, .ro, 0⟩, ⟨1, 0, .ro, 0⟩]⟩ /- RED_MISMATCH -/,
  ⟨0x30, 0x0, 1, [⟨31, 0, .ro, 0⟩]⟩ /- RED_MIS_IDX_LO -/,
  ⟨0x34, 0x0, 1, [⟨31, 0, .ro, 0⟩]⟩ /- RED_MIS_IDX_HI -/,
  ⟨0x40, 0x0, 1, [⟨31, 0, .ro, 0⟩]⟩ /- RED_CNT_SWITCH -/,
  ⟨0x44, 0x0, 1, [⟨31, 0, .ro, 0⟩]⟩ /- RED_CNT_MISMATCH -/,
  ⟨0x48, 0x0, 1, [⟨31, 0, .ro, 0⟩]⟩ /- RED_CNT_RESYNC -/,
  ⟨0x4c, 0x0, 1, [⟨31, 0, .ro, 0⟩]⟩ /- RED_CNT_RETX -/,
  ⟨0x50, 0x0, 1, [⟨31, 0, .ro, 0⟩]⟩ /- RED_CNT_GCM_FAIL -/,
  ⟨0x54, 0x0, 1, [⟨31, 0, .ro, 0⟩]⟩ /- RED_CNT_LINK_DOWN -/,
  ⟨0x58, 0x0, 1, [⟨15, 0, .ro, 0⟩]⟩ /- RED_LAST_TAKE -/]

/-- The registers of the SES block. -/
def regsSES : List RegDef := [
  ⟨0x0, 0x0, 1, [⟨8, 8, .w1s, 0⟩, ⟨2, 2, .wo, 0⟩]⟩ /- SES_CTRL -/,
  ⟨0x4, 0x0, 1, [⟨31, 31, .ro, 0⟩, ⟨30, 30, .ro, 1⟩, ⟨28, 16, .ro, 0⟩, ⟨12, 0, .ro, 0⟩]⟩ /- SES_STATUS -/,
  ⟨0x8, 0x0, 1, [⟨31, 26, .rwl, 0⟩, ⟨23, 16, .rwl, 3⟩, ⟨8, 0, .rwl, 256⟩]⟩ /- SES_CFG -/,
  ⟨0xc, 0x0, 1, [⟨31, 16, .rwl, 2000⟩, ⟨9, 0, .rwl, 60⟩]⟩ /- SES_CFG2 -/,
  ⟨0x10, 0x0, 1, [⟨5, 5, .w1c, 0⟩, ⟨4, 4, .w1c, 0⟩, ⟨3, 3, .w1c, 0⟩, ⟨2, 2, .w1c, 0⟩, ⟨1, 1, .w1c, 0⟩, ⟨0, 0, .w1c, 0⟩]⟩ /- SES_EVENTS -/,
  ⟨0x20, 0x0, 1, [⟨31, 0, .ro, 0⟩]⟩ /- SES_CNT_OK -/,
  ⟨0x24, 0x0, 1, [⟨31, 0, .ro, 0⟩]⟩ /- SES_CNT_AUTH -/,
  ⟨0x28, 0x0, 1, [⟨31, 0, .ro, 0⟩]⟩ /- SES_CNT_REPLAY -/,
  ⟨0x2c, 0x0, 1, [⟨31, 0, .ro, 0⟩]⟩ /- SES_CNT_LATE -/,
  ⟨0x30, 0x0, 1, [⟨31, 0, .ro, 0⟩]⟩ /- SES_CNT_CRC -/,
  ⟨0x34, 0x0, 1, [⟨31, 0, .ro, 0⟩]⟩ /- SES_CNT_PIP -/,
  ⟨0x38, 0x0, 1, [⟨31, 0, .ro, 0⟩]⟩ /- SES_CNT_TXQ_FULL -/,
  ⟨0x3c, 0x0, 1, [⟨31, 0, .ro, 0⟩]⟩ /- SES_CNT_ADMIT -/,
  ⟨0x40, 0x0, 1, [⟨12, 12, .rw, 0⟩, ⟨11, 0, .rw, 0⟩]⟩ /- SES_SEL -/,
  ⟨0x80, 0x4, 16, [⟨31, 0, .ro, 0⟩]⟩ /- SES_REC -/]

/-- The registers of the CHK block. -/
def regsCHK : List RegDef := [
  ⟨0x0, 0x0, 1, [⟨8, 8, .w1s, 0⟩]⟩ /- CHK_CTRL -/,
  ⟨0x4, 0x0, 1, [⟨15, 8, .ro, 0⟩, ⟨7, 0, .ro, 0⟩]⟩ /- CHK_STATUS -/,
  ⟨0x100, 0x40, 8, [⟨31, 31, .rwl, 0⟩, ⟨30, 30, .rwl, 0⟩, ⟨29, 29, .rwl, 0⟩, ⟨28, 28, .rwl, 0⟩, ⟨27, 27, .rwl, 0⟩, ⟨26, 26, .rwl, 0⟩, ⟨23, 20, .rwl, 0⟩, ⟨19, 8, .rwl, 0⟩, ⟨6, 0, .rwl, 0⟩]⟩ /- CHK_CFG -/,
  ⟨0x104, 0x40, 8, [⟨31, 0, .rwl, 0⟩]⟩ /- CHK_POLY_LO -/,
  ⟨0x108, 0x40, 8, [⟨31, 0, .rwl, 0⟩]⟩ /- CHK_POLY_HI -/,
  ⟨0x10c, 0x40, 8, [⟨31, 0, .rwl, 0⟩]⟩ /- CHK_INIT_LO -/,
  ⟨0x110, 0x40, 8, [⟨31, 0, .rwl, 0⟩]⟩ /- CHK_INIT_HI -/,
  ⟨0x114, 0x40, 8, [⟨31, 0, .rwl, 0⟩]⟩ /- CHK_XOR_LO -/,
  ⟨0x118, 0x40, 8, [⟨31, 0, .rwl, 0⟩]⟩ /- CHK_XOR_HI -/,
  ⟨0x11c, 0x40, 8, [⟨31, 0, .rwl, 0⟩]⟩ /- CHK_EXP_LO -/,
  ⟨0x120, 0x40, 8, [⟨31, 0, .rwl, 0⟩]⟩ /- CHK_EXP_HI -/,
  ⟨0x124, 0x40, 8, [⟨31, 0, .rw, 0⟩]⟩ /- CHK_SRC_LO -/,
  ⟨0x128, 0x40, 8, [⟨7, 0, .rw, 0⟩]⟩ /- CHK_SRC_HI -/,
  ⟨0x12c, 0x40, 8, [⟨23, 0, .rw, 0⟩]⟩ /- CHK_LEN -/,
  ⟨0x130, 0x40, 8, [⟨1, 1, .wo, 0⟩, ⟨0, 0, .wo, 0⟩]⟩ /- CHK_CMD -/,
  ⟨0x134, 0x40, 8, [⟨31, 0, .ro, 0⟩]⟩ /- CHK_RES_LO -/,
  ⟨0x138, 0x40, 8, [⟨31, 0, .ro, 0⟩]⟩ /- CHK_RES_HI -/,
  ⟨0x13c, 0x40, 8, [⟨31, 16, .ro, 0⟩, ⟨15, 8, .ro, 0⟩, ⟨7, 7, .ro, 0⟩, ⟨6, 6, .w1c, 0⟩, ⟨5, 5, .w1c, 0⟩, ⟨4, 4, .w1c, 0⟩, ⟨3, 3, .w1c, 0⟩, ⟨2, 2, .w1c, 0⟩, ⟨1, 1, .w1c, 0⟩, ⟨0, 0, .ro, 0⟩]⟩ /- CHK_STAT -/]

/-- The registers of the TIM block. -/
def regsTIM : List RegDef := [
  ⟨0x0, 0x0, 1, [⟨8, 8, .w1s, 0⟩, ⟨2, 2, .wo, 0⟩]⟩ /- TIM_CTRL -/,
  ⟨0x4, 0x0, 1, [⟨31, 30, .ro, 0⟩, ⟨29, 29, .ro, 0⟩, ⟨28, 28, .ro, 0⟩, ⟨27, 27, .ro, 0⟩, ⟨26, 26, .ro, 0⟩, ⟨7, 4, .ro, 0⟩, ⟨3, 0, .ro, 0⟩]⟩ /- TIM_STATUS -/,
  ⟨0x8, 0x0, 1, [⟨23, 16, .rwl, 0⟩, ⟨13, 13, .rwl, 0⟩, ⟨12, 12, .rwl, 1⟩, ⟨8, 0, .rwl, 100⟩]⟩ /- TIM_CFG -/,
  ⟨0xc, 0x0, 1, [⟨4, 4, .w1c, 0⟩, ⟨3, 3, .w1c, 0⟩, ⟨2, 2, .w1c, 0⟩, ⟨1, 1, .w1c, 0⟩, ⟨0, 0, .w1c, 0⟩]⟩ /- TIM_EVENTS -/,
  ⟨0x10, 0x0, 1, [⟨2, 0, .rw, 0⟩]⟩ /- TIM_TB_SEL -/,
  ⟨0x14, 0x0, 1, [⟨31, 0, .ro, 0⟩]⟩ /- TIM_TB_NS -/,
  ⟨0x18, 0x0, 1, [⟨31, 0, .ro, 0⟩]⟩ /- TIM_TB_SEC_LO -/,
  ⟨0x1c, 0x0, 1, [⟨31, 0, .ro, 0⟩]⟩ /- TIM_TB_SEC_HI -/,
  ⟨0x20, 0x0, 1, [⟨31, 0, .ro, 0⟩]⟩ /- TIM_TB1_RES_LO -/,
  ⟨0x24, 0x0, 1, [⟨31, 0, .ro, 0⟩]⟩ /- TIM_TB1_RES_HI -/,
  ⟨0x28, 0x0, 1, [⟨31, 0, .ro, 0⟩]⟩ /- TIM_PEER_OFS -/,
  ⟨0x2c, 0x0, 1, [⟨31, 0, .rw, 0⟩]⟩ /- TIM_TB7_ADJ -/,
  ⟨0x30, 0x0, 1, [⟨31, 0, .rw, 0⟩]⟩ /- TIM_TB7_NS -/,
  ⟨0x34, 0x0, 1, [⟨31, 0, .rw, 0⟩]⟩ /- TIM_TB7_SEC_LO -/,
  ⟨0x38, 0x0, 1, [⟨15, 0, .rw, 0⟩]⟩ /- TIM_TB7_SEC_HI -/,
  ⟨0x3c, 0x0, 1, [⟨1, 0, .wo, 0⟩]⟩ /- TIM_TB7_CMD -/,
  ⟨0x40, 0, 1, [⟨31, 31, .rwl, 0⟩, ⟨30, 30, .rwl, 0⟩, ⟨29, 28, .rwl, 0⟩, ⟨27, 27, .rwl, 0⟩, ⟨26, 26, .rwl, 0⟩, ⟨23, 16, .rwl, 0⟩, ⟨13, 0, .rwl, 0⟩]⟩ /- TIM_DOM_CFG 0 -/,
  ⟨0x60, 0, 1, [⟨31, 31, .rwl, 0⟩, ⟨30, 30, .rwl, 0⟩, ⟨29, 28, .rwl, 0⟩, ⟨27, 27, .rwl, 0⟩, ⟨26, 26, .rwl, 0⟩, ⟨23, 16, .rwl, 1⟩, ⟨13, 0, .rwl, 0⟩]⟩ /- TIM_DOM_CFG 1 -/,
  ⟨0x44, 0x20, 2, [⟨31, 28, .ro, 0⟩, ⟨27, 24, .ro, 15⟩, ⟨17, 17, .ro, 0⟩, ⟨16, 16, .ro, 0⟩, ⟨15, 0, .ro, 0⟩]⟩ /- TIM_DOM_STAT -/,
  ⟨0x48, 0x20, 2, [⟨31, 0, .ro, 0⟩]⟩ /- TIM_DOM_OFS -/,
  ⟨0x4c, 0x20, 2, [⟨31, 0, .ro, 0⟩]⟩ /- TIM_DOM_ADJ -/,
  ⟨0x50, 0x20, 2, [⟨31, 16, .rwl, 100⟩, ⟨15, 0, .rwl, 1000⟩]⟩ /- TIM_DOM_THR -/,
  ⟨0x54, 0x20, 2, [⟨31, 0, .ro, 0⟩]⟩ /- TIM_DOM_GM_LO -/,
  ⟨0x58, 0x20, 2, [⟨31, 0, .ro, 0⟩]⟩ /- TIM_DOM_GM_HI -/,
  ⟨0x5c, 0x20, 2, [⟨31, 0, .ro, 0⟩]⟩ /- TIM_DOM_MPD -/,
  ⟨0x100, 0x4, 14, [⟨31, 16, .rwl, 0⟩, ⟨15, 0, .rwl, 0⟩]⟩ /- TIM_PORT_DLY -/,
  ⟨0x148, 0x4, 4, [⟨31, 0, .ro, 0⟩]⟩ /- TIM_PORT_PDLY -/,
  ⟨0x200, 0x0, 1, [⟨3, 0, .rw, 0⟩]⟩ /- TIM_TXTS_SEL -/,
  ⟨0x204, 0x0, 1, [⟨31, 31, .ro, 0⟩, ⟨30, 28, .ro, 0⟩, ⟨20, 16, .ro, 0⟩, ⟨15, 0, .ro, 0⟩]⟩ /- TIM_TXTS_HEAD -/,
  ⟨0x208, 0x0, 1, [⟨31, 0, .ro, 0⟩]⟩ /- TIM_TXTS_NS -/,
  ⟨0x20c, 0x0, 1, [⟨31, 0, .ro, 0⟩]⟩ /- TIM_TXTS_SEC_LO -/,
  ⟨0x210, 0x0, 1, [⟨31, 0, .ro, 0⟩]⟩ /- TIM_TXTS_SEC_HI -/,
  ⟨0x214, 0x0, 1, [⟨0, 0, .wo, 0⟩]⟩ /- TIM_TXTS_POP -/,
  ⟨0x218, 0x0, 1, [⟨13, 0, .w1c, 0⟩]⟩ /- TIM_TXTS_OVF -/,
  ⟨0x220, 0x0, 1, [⟨31, 0, .ro, 0⟩]⟩ /- TIM_CNT_TXTS_LOST -/,
  ⟨0x224, 0x0, 1, [⟨31, 0, .ro, 0⟩]⟩ /- TIM_CNT_SWITCH -/,
  ⟨0x228, 0x0, 1, [⟨31, 0, .ro, 0⟩]⟩ /- TIM_CNT_STEP -/,
  ⟨0x22c, 0x0, 1, [⟨31, 0, .ro, 0⟩]⟩ /- TIM_CNT_TC_FWD -/,
  ⟨0x230, 0x0, 1, [⟨31, 0, .ro, 0⟩]⟩ /- TIM_CNT_FOREIGN -/]

/-- The registers of the RTC block. -/
def regsRTC : List RegDef := [
  ⟨0x0, 0x0, 1, [⟨8, 8, .w1s, 0⟩]⟩ /- RTC_CTRL -/,
  ⟨0x4, 0x0, 1, [⟨7, 7, .ro, 1⟩, ⟨6, 6, .ro, 0⟩, ⟨5, 5, .ro, 0⟩, ⟨4, 4, .ro, 0⟩, ⟨3, 2, .ro, 0⟩, ⟨1, 1, .ro, 0⟩, ⟨0, 0, .ro, 0⟩]⟩ /- RTC_STATUS -/,
  ⟨0x8, 0x0, 1, [⟨5, 5, .w1c, 0⟩, ⟨4, 4, .w1c, 0⟩, ⟨3, 3, .w1c, 0⟩, ⟨2, 2, .w1c, 0⟩, ⟨1, 1, .w1c, 0⟩, ⟨0, 0, .w1c, 0⟩]⟩ /- RTC_EVENTS -/,
  ⟨0xc, 0x0, 1, [⟨0, 0, .wo, 0⟩]⟩ /- RTC_SNAP -/,
  ⟨0x10, 0x0, 1, [⟨27, 16, .ro, 0⟩, ⟨11, 8, .ro, 0⟩, ⟨4, 0, .ro, 0⟩]⟩ /- RTC_DATE -/,
  ⟨0x14, 0x0, 1, [⟨26, 24, .ro, 0⟩, ⟨20, 16, .ro, 0⟩, ⟨13, 8, .ro, 0⟩, ⟨5, 0, .ro, 0⟩]⟩ /- RTC_TIME -/,
  ⟨0x18, 0x0, 1, [⟨23, 0, .ro, 0⟩]⟩ /- RTC_SUB -/,
  ⟨0x1c, 0x0, 1, [⟨23, 0, .ro, 0⟩]⟩ /- RTC_CNT_VAL -/,
  ⟨0x20, 0x0, 1, [⟨27, 16, .rw, 0⟩, ⟨11, 8, .rw, 0⟩, ⟨4, 0, .rw, 0⟩]⟩ /- RTC_SET_DATE -/,
  ⟨0x24, 0x0, 1, [⟨26, 24, .rw, 0⟩, ⟨20, 16, .rw, 0⟩, ⟨13, 8, .rw, 0⟩, ⟨5, 0, .rw, 0⟩]⟩ /- RTC_SET_TIME -/,
  ⟨0x28, 0x0, 1, [⟨15, 0, .rw, 0⟩]⟩ /- RTC_SHIFT -/,
  ⟨0x2c, 0x0, 1, [⟨3, 0, .wo, 0⟩]⟩ /- RTC_CMD -/,
  ⟨0x30, 0x0, 1, [⟨31, 31, .rw, 0⟩, ⟨30, 28, .rw, 0⟩, ⟨27, 16, .rw, 0⟩, ⟨11, 8, .rw, 0⟩, ⟨4, 0, .rw, 0⟩]⟩ /- RTC_ALM_DATE -/,
  ⟨0x34, 0x0, 1, [⟨30, 28, .rw, 0⟩, ⟨20, 16, .rw, 0⟩, ⟨13, 8, .rw, 0⟩, ⟨5, 0, .rw, 0⟩]⟩ /- RTC_ALM_TIME -/,
  ⟨0x38, 0x0, 1, [⟨23, 0, .rw, 0⟩]⟩ /- RTC_CNT_LOAD -/,
  ⟨0x3c, 0x0, 1, [⟨18, 18, .rwl, 1⟩, ⟨17, 16, .rwl, 2⟩, ⟨15, 0, .rwl, 3600⟩]⟩ /- RTC_MEAS_CFG -/,
  ⟨0x40, 0x0, 1, [⟨31, 0, .ro, 0⟩]⟩ /- RTC_MEAS_RES -/,
  ⟨0x44, 0x0, 1, [⟨31, 16, .rw, 0⟩, ⟨15, 0, .rw, 1⟩]⟩ /- RTC_TRIM -/]

/-- The registers of the CAN block. -/
def regsCAN : List RegDef := [
  ⟨0x0, 0x4000, 4, [⟨8, 8, .w1s, 0⟩, ⟨2, 2, .wo, 0⟩]⟩ /- CAN_CTRL -/,
  ⟨0x4, 0x4000, 4, [⟨3, 3, .rwl, 1⟩, ⟨2, 2, .rwl, 0⟩, ⟨1, 1, .rwl, 0⟩]⟩ /- CAN_CFG -/,
  ⟨0x8, 0x4000, 4, [⟨15, 8, .rw, 5⟩, ⟨2, 0, .rw, 0⟩]⟩ /- CAN_MODE -/,
  ⟨0xc, 0x4000, 4, [⟨31, 28, .ro, 0⟩, ⟨27, 26, .ro, 0⟩, ⟨25, 16, .ro, 0⟩, ⟨7, 0, .ro, 0⟩]⟩ /- CAN_STATUS -/,
  ⟨0x10, 0x4000, 4, [⟨31, 23, .rwl, 0⟩, ⟨22, 14, .rwl, 0⟩, ⟨13, 7, .rwl, 0⟩, ⟨6, 0, .rwl, 0⟩]⟩ /- CAN_NBT -/,
  ⟨0x14, 0x4000, 4, [⟨31, 23, .rwl, 0⟩, ⟨22, 14, .rwl, 0⟩, ⟨13, 7, .rwl, 0⟩, ⟨6, 0, .rwl, 0⟩]⟩ /- CAN_DBT -/,
  ⟨0x18, 0x4000, 4, [⟨31, 23, .rwl, 0⟩, ⟨22, 14, .rwl, 0⟩, ⟨13, 7, .rwl, 0⟩, ⟨6, 0, .rwl, 0⟩]⟩ /- CAN_XBT -/,
  ⟨0x1c, 0x4000, 4, [⟨15, 15, .rwl, 1⟩, ⟨6, 0, .rwl, 0⟩]⟩ /- CAN_TDC -/,
  ⟨0x20, 0x4000, 4, [⟨31, 0, .rwl, 0⟩]⟩ /- CAN_RX_BASE_LO -/,
  ⟨0x24, 0x4000, 4, [⟨7, 0, .rwl, 0⟩]⟩ /- CAN_RX_BASE_HI -/,
  ⟨0x28, 0x4000, 4, [⟨3, 0, .rwl, 4⟩]⟩ /- CAN_RX_CFG -/,
  ⟨0x2c, 0x4000, 4, [⟨15, 0, .ro, 0⟩]⟩ /- CAN_RX_PUT -/,
  ⟨0x30, 0x4000, 4, [⟨15, 0, .rw, 0⟩]⟩ /- CAN_RX_ACK -/,
  ⟨0x40, 0x4000, 4, [⟨31, 0, .rwl, 0⟩]⟩ /- CAN_TX_BASE_LO -/,
  ⟨0x44, 0x4000, 4, [⟨7, 0, .rwl, 0⟩]⟩ /- CAN_TX_BASE_HI -/,
  ⟨0x48, 0x4000, 4, [⟨3, 0, .rwl, 4⟩]⟩ /- CAN_TX_CFG -/,
  ⟨0x4c, 0x4000, 4, [⟨15, 0, .rw, 0⟩]⟩ /- CAN_TX_PUT -/,
  ⟨0x50, 0x4000, 4, [⟨15, 0, .ro, 0⟩]⟩ /- CAN_TX_DONE -/,
  ⟨0x54, 0x4000, 4, [⟨15, 0, .rw, 0⟩]⟩ /- CAN_TX_ACK -/,
  ⟨0x60, 0x4000, 4, [⟨28, 0, .rwl, 0⟩]⟩ /- CAN_WAKE_ID -/,
  ⟨0x64, 0x4000, 4, [⟨28, 0, .rwl, 0⟩]⟩ /- CAN_WAKE_IDM -/,
  ⟨0x68, 0x4000, 4, [⟨4, 4, .rwl, 0⟩, ⟨3, 0, .rwl, 0⟩]⟩ /- CAN_WAKE_CFG -/,
  ⟨0x6c, 0x4000, 4, [⟨31, 0, .rwl, 0⟩]⟩ /- CAN_WAKE_DM_LO -/,
  ⟨0x70, 0x4000, 4, [⟨31, 0, .rwl, 0⟩]⟩ /- CAN_WAKE_DM_HI -/,
  ⟨0x74, 0x4000, 4, [⟨1, 1, .wo, 0⟩, ⟨0, 0, .wo, 0⟩]⟩ /- CAN_CMD -/,
  ⟨0x78, 0x4000, 4, [⟨4, 4, .w1c, 0⟩, ⟨3, 3, .w1c, 0⟩, ⟨2, 2, .w1c, 0⟩, ⟨1, 1, .w1c, 0⟩, ⟨0, 0, .w1c, 0⟩]⟩ /- CAN_EVENTS -/,
  ⟨0x80, 0x4000, 4, [⟨31, 0, .ro, 0⟩]⟩ /- CAN_CNT_RX_OK -/,
  ⟨0x84, 0x4000, 4, [⟨31, 0, .ro, 0⟩]⟩ /- CAN_CNT_TX_OK -/,
  ⟨0x88, 0x4000, 4, [⟨31, 0, .ro, 0⟩]⟩ /- CAN_CNT_RX_OVF -/,
  ⟨0x8c, 0x4000, 4, [⟨31, 0, .ro, 0⟩]⟩ /- CAN_CNT_ERR -/,
  ⟨0x90, 0x4000, 4, [⟨31, 0, .ro, 0⟩]⟩ /- CAN_CNT_BOFF -/]

/-- The registers of the UART block. -/
def regsUART : List RegDef := [
  ⟨0x0, 0x400, 4, [⟨31, 31, .rw, 0⟩, ⟨30, 30, .rwl, 0⟩, ⟨29, 29, .rwl, 0⟩, ⟨28, 28, .rwl, 1⟩, ⟨27, 27, .rwl, 1⟩, ⟨26, 25, .rwl, 0⟩, ⟨24, 24, .rwl, 0⟩, ⟨23, 16, .rwl, 4⟩, ⟨15, 8, .rwl, 1⟩, ⟨7, 0, .rwl, 1⟩]⟩ /- UART_CFG -/,
  ⟨0x4, 0x400, 4, [⟨21, 6, .rwl, 651⟩, ⟨5, 0, .rwl, 5⟩]⟩ /- UART_BAUD -/,
  ⟨0x20, 0x400, 4, [⟨31, 0, .rwl, 0⟩]⟩ /- UART_RX_BASE_LO -/,
  ⟨0x24, 0x400, 4, [⟨7, 0, .rwl, 0⟩]⟩ /- UART_RX_BASE_HI -/,
  ⟨0x28, 0x400, 4, [⟨3, 0, .rwl, 4⟩]⟩ /- UART_RX_CFG -/,
  ⟨0x2c, 0x400, 4, [⟨15, 0, .ro, 0⟩]⟩ /- UART_RX_PUT -/,
  ⟨0x30, 0x400, 4, [⟨15, 0, .rw, 0⟩]⟩ /- UART_RX_ACK -/,
  ⟨0x40, 0x400, 4, [⟨31, 0, .rwl, 0⟩]⟩ /- UART_TX_BASE_LO -/,
  ⟨0x44, 0x400, 4, [⟨7, 0, .rwl, 0⟩]⟩ /- UART_TX_BASE_HI -/,
  ⟨0x48, 0x400, 4, [⟨3, 0, .rwl, 4⟩]⟩ /- UART_TX_CFG -/,
  ⟨0x4c, 0x400, 4, [⟨15, 0, .rw, 0⟩]⟩ /- UART_TX_PUT -/,
  ⟨0x50, 0x400, 4, [⟨15, 0, .ro, 0⟩]⟩ /- UART_TX_DONE -/,
  ⟨0x54, 0x400, 4, [⟨15, 0, .rw, 0⟩]⟩ /- UART_TX_ACK -/,
  ⟨0x74, 0x400, 4, [⟨0, 0, .wo, 0⟩]⟩ /- UART_CMD -/,
  ⟨0x78, 0x400, 4, [⟨3, 3, .w1c, 0⟩, ⟨2, 2, .w1c, 0⟩, ⟨1, 1, .w1c, 0⟩, ⟨0, 0, .w1c, 0⟩]⟩ /- UART_EVENTS -/,
  ⟨0x80, 0x400, 4, [⟨31, 0, .ro, 0⟩]⟩ /- UART_CNT_RX_OK -/,
  ⟨0x84, 0x400, 4, [⟨31, 0, .ro, 0⟩]⟩ /- UART_CNT_TX_OK -/,
  ⟨0x88, 0x400, 4, [⟨31, 0, .ro, 0⟩]⟩ /- UART_CNT_RX_OVF -/,
  ⟨0x8c, 0x400, 4, [⟨31, 0, .ro, 0⟩]⟩ /- UART_CNT_CRC -/,
  ⟨0x1000, 0x0, 1, [⟨8, 8, .w1s, 0⟩, ⟨2, 2, .wo, 0⟩]⟩ /- UART_CTRL -/]

/-- The registers of the FIO block. -/
def regsFIO : List RegDef := [
  ⟨0x0, 0x0, 1, [⟨8, 8, .w1s, 0⟩]⟩ /- FIO_CTRL -/,
  ⟨0x4, 0x0, 1, [⟨31, 31, .ro, 0⟩, ⟨25, 24, .ro, 0⟩, ⟨3, 3, .ro, 0⟩, ⟨2, 2, .ro, 0⟩, ⟨1, 1, .ro, 0⟩, ⟨0, 0, .ro, 0⟩]⟩ /- FIO_STATUS -/,
  ⟨0x8, 0x0, 1, [⟨2, 2, .w1c, 0⟩, ⟨1, 1, .w1c, 0⟩, ⟨0, 0, .w1c, 0⟩]⟩ /- FIO_EVENTS -/,
  ⟨0xc, 0x0, 1, [⟨31, 0, .ro, 0⟩]⟩ /- FIO_DI -/,
  ⟨0x10, 0x0, 1, [⟨15, 0, .ro, 0⟩]⟩ /- FIO_RB -/,
  ⟨0x14, 0x0, 1, [⟨15, 0, .ro, 0⟩]⟩ /- FIO_DO -/,
  ⟨0x18, 0x0, 1, [⟨15, 0, .rwl, 0⟩]⟩ /- FIO_SAFE -/,
  ⟨0x1c, 0x0, 1, [⟨15, 0, .rwl, 0⟩]⟩ /- FIO_OLD_EN -/,
  ⟨0x20, 0x4, 2, [⟨31, 0, .ro, 0⟩]⟩ /- FIO_VFSUP -/,
  ⟨0x40, 0x4, 4, [⟨31, 0, .rwl, 858993459⟩]⟩ /- FIO_FILT -/,
  ⟨0x100, 0x4, 32, [⟨31, 0, .ro, 0⟩]⟩ /- FIO_CNT -/,
  ⟨0x180, 0x4, 32, [⟨31, 0, .ro, 0⟩]⟩ /- FIO_CNT_OFS -/,
  ⟨0x200, 0x0, 1, [⟨11, 0, .w1c, 0⟩]⟩ /- FIO_AFE_OVR -/,
  ⟨0x240, 0x4, 12, [⟨31, 0, .ro, 0⟩]⟩ /- FIO_AFE_SMP -/]

/-- The registers of the SEC block. -/
def regsSEC : List RegDef := [
  ⟨0x0, 0x0, 1, [⟨8, 8, .w1s, 0⟩, ⟨2, 2, .wo, 0⟩]⟩ /- SEC_CTRL -/,
  ⟨0x4, 0x0, 1, [⟨31, 28, .ro, 0⟩, ⟨27, 26, .ro, 0⟩, ⟨19, 19, .ro, 0⟩, ⟨18, 18, .ro, 0⟩, ⟨17, 17, .ro, 0⟩, ⟨15, 8, .ro, 0⟩, ⟨7, 0, .ro, 0⟩]⟩ /- SEC_STATUS -/,
  ⟨0x8, 0x0, 1, [⟨4, 4, .w1c, 0⟩, ⟨3, 3, .w1c, 0⟩, ⟨2, 2, .w1c, 0⟩, ⟨1, 1, .w1c, 0⟩, ⟨0, 0, .w1c, 0⟩]⟩ /- SEC_EVENTS -/,
  ⟨0xc, 0x0, 1, [⟨31, 0, .ro, 0⟩]⟩ /- SEC_KS_CNT_LO -/,
  ⟨0x10, 0x0, 1, [⟨31, 0, .ro, 0⟩]⟩ /- SEC_KS_CNT_HI -/,
  ⟨0x14, 0x0, 1, [⟨15, 8, .ro, 0⟩, ⟨3, 0, .ro, 0⟩]⟩ /- SEC_UPD_RES -/,
  ⟨0x18, 0x0, 1, [⟨9, 8, .ro, 0⟩, ⟨3, 0, .ro, 0⟩]⟩ /- SEC_IMG_RES -/,
  ⟨0x20, 0x0, 1, [⟨31, 0, .ro, 0⟩]⟩ /- SEC_CNT_ATTR_DENY -/,
  ⟨0x24, 0x0, 1, [⟨31, 0, .ro, 0⟩]⟩ /- SEC_CNT_UPD_REFUSED -/,
  ⟨0x28, 0x0, 1, [⟨31, 0, .ro, 0⟩]⟩ /- SEC_CNT_IMG_REFUSED -/,
  ⟨0x100, 0x4, 64, [⟨31, 31, .ro, 0⟩, ⟨23, 8, .ro, 0⟩, ⟨4, 0, .ro, 0⟩]⟩ /- SEC_SLOT -/,
  ⟨0x200, 0x4, 16, [⟨31, 0, .ro, 0⟩]⟩ /- SEC_ID_HASH -/]

/-- The registers of the EVR block. -/
def regsEVR : List RegDef := [
  ⟨0x0, 0x0, 1, [⟨8, 8, .w1s, 0⟩, ⟨2, 2, .wo, 0⟩]⟩ /- EVR_CTRL -/,
  ⟨0x4, 0x0, 1, [⟨31, 31, .ro, 0⟩, ⟨30, 30, .ro, 1⟩, ⟨29, 29, .ro, 0⟩, ⟨8, 0, .ro, 0⟩]⟩ /- EVR_STATUS -/,
  ⟨0x8, 0x0, 1, [⟨0, 0, .rwl, 1⟩]⟩ /- EVR_CFG -/,
  ⟨0xc, 0x0, 1, [⟨3, 3, .w1c, 0⟩, ⟨2, 2, .w1c, 0⟩, ⟨1, 1, .w1c, 0⟩, ⟨0, 0, .w1c, 0⟩]⟩ /- EVR_EVENTS -/,
  ⟨0x10, 0x0, 1, [⟨31, 0, .ro, 0⟩]⟩ /- EVR_SEQ_NEXT_LO -/,
  ⟨0x14, 0x0, 1, [⟨31, 0, .ro, 0⟩]⟩ /- EVR_SEQ_NEXT_HI -/,
  ⟨0x18, 0x0, 1, [⟨20, 0, .ro, 0⟩]⟩ /- EVR_USED -/,
  ⟨0x1c, 0x0, 1, [⟨31, 0, .rw, 0⟩]⟩ /- EVR_HOST_ACK_LO -/,
  ⟨0x20, 0x0, 1, [⟨31, 0, .rw, 0⟩]⟩ /- EVR_HOST_ACK_HI -/,
  ⟨0x24, 0x0, 1, [⟨31, 0, .ro, 0⟩]⟩ /- EVR_CNT_OVERWRITE -/,
  ⟨0x28, 0x0, 1, [⟨31, 0, .ro, 0⟩]⟩ /- EVR_CNT_UNREAD -/,
  ⟨0x2c, 0x0, 1, [⟨31, 0, .ro, 0⟩]⟩ /- EVR_CNT_STATE_LOST -/,
  ⟨0x30, 0x0, 1, [⟨31, 0, .ro, 0⟩]⟩ /- EVR_CNT_BAD_SLOT -/,
  ⟨0x40, 0x4, 8, [⟨31, 0, .ro, 0⟩]⟩ /- EVR_DROP -/,
  ⟨0x80, 0x0, 1, [⟨31, 0, .rw, 0⟩]⟩ /- EVR_SEEK_LO -/,
  ⟨0x84, 0x0, 1, [⟨31, 0, .rw, 0⟩]⟩ /- EVR_SEEK_HI -/,
  ⟨0x88, 0x0, 1, [⟨31, 31, .ro, 0⟩, ⟨30, 30, .ro, 0⟩, ⟨20, 0, .ro, 0⟩]⟩ /- EVR_SEEK_RES -/,
  ⟨0x8c, 0x0, 1, [⟨20, 0, .rw, 0⟩]⟩ /- EVR_RD_SEL -/,
  ⟨0x100, 0x4, 64, [⟨31, 0, .ro, 0⟩]⟩ /- EVR_RD_BUF -/]

/-- The registers of the QUE block. -/
def regsQUE : List RegDef := [
  ⟨0x0, 0x0, 1, [⟨2, 2, .wo, 0⟩]⟩ /- QUE_CTRL -/,
  ⟨0x4, 0x0, 1, [⟨31, 0, .ro, 0⟩]⟩ /- QUE_CORR_TOTAL -/,
  ⟨0x100, 0x4, 48, [⟨31, 24, .ro, 0⟩, ⟨23, 20, .ro, 0⟩, ⟨19, 10, .ro, 0⟩, ⟨9, 0, .ro, 0⟩]⟩ /- QUE_STAT -/,
  ⟨0x200, 0x4, 48, [⟨31, 0, .ro, 0⟩]⟩ /- QUE_STALL -/]

/-- The registers of the FUSE block. -/
def regsFUSE : List RegDef := [
  ⟨0x0, 0x0, 1, [⟨8, 8, .w1s, 0⟩]⟩ /- FUSE_CTRL -/,
  ⟨0x4, 0x0, 1, [⟨31, 31, .ro, 0⟩, ⟨30, 30, .ro, 0⟩]⟩ /- FUSE_STATUS -/,
  ⟨0x8, 0x0, 1, [⟨8, 0, .ro, 0⟩]⟩ /- FUSE_RT_CNT -/,
  ⟨0xc, 0x0, 1, [⟨8, 0, .ro, 0⟩]⟩ /- FUSE_PG_CNT -/,
  ⟨0x100, 0x4, 128, [⟨31, 0, .ro, 0⟩]⟩ /- FUSE_WORD -/]

/-- The registers of the block whose base has bits [23:16] equal to the number (R442, R492). The ETH and PCI
blocks have no register of their own here: the runtime alone drives them (R492). -/
def blockRegs : Nat → List RegDef
  | 0 => regsSYS
  | 1 => regsCLK
  | 2 => regsPWR
  | 3 => regsNSA
  | 4 => regsDPO
  | 5 => regsLPE
  | 6 => regsMTR
  | 7 => regsSCN
  | 8 => regsRED
  | 9 => regsSES
  | 10 => regsCHK
  | 11 => regsTIM
  | 12 => regsRTC
  | 13 => regsCAN
  | 14 => regsUART
  | 15 => regsFIO
  | 17 => regsSEC
  | 18 => regsEVR
  | 19 => regsQUE
  | 21 => regsFUSE
  | _ => []

/-! Addresses of the registers (element 0 of an array). -/

abbrev R.SYS_CTRL : Nat := 0xF0000000
abbrev R.SYS_STATUS : Nat := 0xF0000004
abbrev R.SYS_CFG : Nat := 0xF0000008
abbrev R.SYS_RESET : Nat := 0xF000000C
abbrev R.SYS_RESET_CAUSE : Nat := 0xF0000010
abbrev R.SYS_BUS_ERR_LO : Nat := 0xF0000014
abbrev R.SYS_BUS_ERR_HI : Nat := 0xF0000018
abbrev R.CLK_CTRL : Nat := 0xF0010000
abbrev R.CLK_STATUS : Nat := 0xF0010004
abbrev R.CLK_EVENTS : Nat := 0xF0010008
abbrev R.CLK_SRC : Nat := 0xF001000C
abbrev R.CLK_GATE_PERI : Nat := 0xF0010010
abbrev R.CLK_GATE_ENG : Nat := 0xF0010014
abbrev R.CLK_QUAL : Nat := 0xF0010018
abbrev R.CLK_CNT_FALLBACK : Nat := 0xF001001C
abbrev R.PWR_CTRL : Nat := 0xF0020000
abbrev R.PWR_STATUS : Nat := 0xF0020004
abbrev R.PWR_EVENTS : Nat := 0xF0020008
abbrev R.PWR_VIN : Nat := 0xF002000C
abbrev R.PWR_VIN_MIN : Nat := 0xF0020010
abbrev R.PWR_TEMP : Nat := 0xF0020014
abbrev R.PWR_CNT_DIP : Nat := 0xF0020018
abbrev R.NSA_CTRL : Nat := 0xF0030000
abbrev R.NSA_STATUS : Nat := 0xF0030004
abbrev R.NSA_MODEL_STATUS : Nat := 0xF0030008
abbrev R.NSA_MODEL_ERR : Nat := 0xF003000C
abbrev R.NSA_MODEL_SERIAL : Nat := 0xF0030010
abbrev R.NSA_HS_LO : Nat := 0xF0030014
abbrev R.NSA_HS_HI : Nat := 0xF0030018
abbrev R.NSA_CYCLE_LO : Nat := 0xF003001C
abbrev R.NSA_CYCLE_HI : Nat := 0xF0030020
abbrev R.NSA_HT_LO : Nat := 0xF0030024
abbrev R.NSA_HT_HI : Nat := 0xF0030028
abbrev R.NSA_ALLOC : Nat := 0xF003002C
abbrev R.NSA_CLUSTER : Nat := 0xF0030030
abbrev R.NSA_EVENTS : Nat := 0xF0030034
abbrev R.NSA_SAT : Nat := 0xF0030038
abbrev R.NSA_CNT_MISSED : Nat := 0xF003003C
abbrev R.NSA_CNT_ABANDON : Nat := 0xF0030040
abbrev R.NSA_CNT_RETRY : Nat := 0xF0030044
abbrev R.NSA_CNT_DEADLINE : Nat := 0xF0030048
abbrev R.NSA_CNT_PIVOT : Nat := 0xF003004C
abbrev R.NSA_LAST_TIME : Nat := 0xF0030050
abbrev R.DPO_CTRL : Nat := 0xF0040000
abbrev R.DPO_STATUS : Nat := 0xF0040004
abbrev R.DPO_DEC_LO : Nat := 0xF0040008
abbrev R.DPO_DEC_HI : Nat := 0xF004000C
abbrev R.DPO_FCST_SERIAL : Nat := 0xF0040010
abbrev R.DPO_PLY_LAST : Nat := 0xF0040014
abbrev R.DPO_PLY_RES_P : Nat := 0xF0040018
abbrev R.DPO_PLY_RES_Q : Nat := 0xF004001C
abbrev R.DPO_PLY_RES_T : Nat := 0xF0040020
abbrev R.DPO_EVENTS : Nat := 0xF0040024
abbrev R.DPO_CNT_COMMIT : Nat := 0xF0040028
abbrev R.DPO_CNT_SQUASH : Nat := 0xF004002C
abbrev R.DPO_CNT_NOPLY : Nat := 0xF0040030
abbrev R.DPO_CNT_APPLIED : Nat := 0xF0040034
abbrev R.DPO_CNT_KEPT : Nat := 0xF0040038
abbrev R.DPO_LAST_TIME : Nat := 0xF004003C
abbrev R.LPE_CTRL : Nat := 0xF0050000
abbrev R.LPE_STATUS : Nat := 0xF0050004
abbrev R.LPE_EVENTS : Nat := 0xF0050008
abbrev R.LPE_CFG : Nat := 0xF005000C
abbrev R.LPE_CNT_EVAL : Nat := 0xF0050010
abbrev R.LPE_CNT_REGION : Nat := 0xF0050014
abbrev R.LPE_CNT_SWITCH : Nat := 0xF0050018
abbrev R.LPE_SAT_SUM : Nat := 0xF0050040
abbrev R.LPE_LOOP_STAT : Nat := 0xF0051000
abbrev R.LPE_LOOP_OUT : Nat := 0xF0051800
abbrev R.LPE_GROUP_STAT : Nat := 0xF0052000
abbrev R.LPE_GROUP_OUT : Nat := 0xF0052100
abbrev R.MTR_CTRL : Nat := 0xF0060000
abbrev R.MTR_STATUS : Nat := 0xF0060004
abbrev R.MTR_LATCH_CFG : Nat := 0xF0060008
abbrev R.MTR_LATCH_IDX_LO : Nat := 0xF006000C
abbrev R.MTR_LATCH_IDX_HI : Nat := 0xF0060010
abbrev R.MTR_ARCH : Nat := 0xF0060014
abbrev R.MTR_ARCH_ACK : Nat := 0xF0060018
abbrev R.MTR_EVENTS : Nat := 0xF006001C
abbrev R.MTR_CNT_GAP : Nat := 0xF0060020
abbrev R.MTR_CNT_THERM_MISS : Nat := 0xF0060024
abbrev R.MTR_CNT_ARCH_LOST : Nat := 0xF0060028
abbrev R.MTR_CNT_PULSE_LOST : Nat := 0xF006002C
abbrev R.MTR_RD_SEL : Nat := 0xF0060040
abbrev R.MTR_RD_LO : Nat := 0xF0060044
abbrev R.MTR_RD_HI : Nat := 0xF0060048
abbrev R.MTR_RD_FRAC : Nat := 0xF006004C
abbrev R.MTR_SV_STAT : Nat := 0xF0060100
abbrev R.MTR_SV_SUB : Nat := 0xF0060180
abbrev R.MTR_PULSE_CFG : Nat := 0xF0060200
abbrev R.MTR_PULSE_WT : Nat := 0xF0060220
abbrev R.MTR_PULSE_STAT : Nat := 0xF0060240
abbrev R.SCN_CTRL : Nat := 0xF0070000
abbrev R.SCN_STATUS : Nat := 0xF0070004
abbrev R.SCN_CFG : Nat := 0xF0070008
abbrev R.SCN_PROG_SERIAL : Nat := 0xF007000C
abbrev R.SCN_EXCH : Nat := 0xF0070010
abbrev R.SCN_EXCH_AT_LO : Nat := 0xF0070014
abbrev R.SCN_EXCH_AT_HI : Nat := 0xF0070018
abbrev R.SCN_FORCE_CNT : Nat := 0xF007001C
abbrev R.SCN_EVENTS : Nat := 0xF0070020
abbrev R.SCN_CNT_REROLL : Nat := 0xF0070024
abbrev R.SCN_CNT_OVERRUN : Nat := 0xF0070028
abbrev R.SCN_CNT_PROG_ERR : Nat := 0xF007002C
abbrev R.SCN_CNT_PREEMPT : Nat := 0xF0070030
abbrev R.SCN_FORCE_SEL : Nat := 0xF0070040
abbrev R.SCN_FORCE_ENT : Nat := 0xF0070044
abbrev R.SCN_FORCE_VAL_LO : Nat := 0xF0070048
abbrev R.SCN_FORCE_VAL_HI : Nat := 0xF007004C
abbrev R.SCN_FORCE_CMD : Nat := 0xF0070050
abbrev R.SCN_FORCE_RES : Nat := 0xF0070054
abbrev R.SCN_TASK_CFG : Nat := 0xF0070100
abbrev R.SCN_TASK_STAT : Nat := 0xF0070140
abbrev R.SCN_TASK_TIME : Nat := 0xF0070180
abbrev R.SCN_TASK_MAX : Nat := 0xF00701C0
abbrev R.SCN_TASK_OVR : Nat := 0xF0070200
abbrev R.SCN_CORE_STAT : Nat := 0xF0070300
abbrev R.RED_CTRL : Nat := 0xF0080000
abbrev R.RED_STATUS : Nat := 0xF0080004
abbrev R.RED_CFG : Nat := 0xF0080008
abbrev R.RED_STALE : Nat := 0xF008000C
abbrev R.RED_KEEPER : Nat := 0xF0080010
abbrev R.RED_REFRESH : Nat := 0xF0080014
abbrev R.RED_HEALTH : Nat := 0xF0080018
abbrev R.RED_PENALTY : Nat := 0xF008001C
abbrev R.RED_CMD : Nat := 0xF0080020
abbrev R.RED_EVENTS : Nat := 0xF0080024
abbrev R.RED_LINK : Nat := 0xF0080028
abbrev R.RED_MISMATCH : Nat := 0xF008002C
abbrev R.RED_MIS_IDX_LO : Nat := 0xF0080030
abbrev R.RED_MIS_IDX_HI : Nat := 0xF0080034
abbrev R.RED_CNT_SWITCH : Nat := 0xF0080040
abbrev R.RED_CNT_MISMATCH : Nat := 0xF0080044
abbrev R.RED_CNT_RESYNC : Nat := 0xF0080048
abbrev R.RED_CNT_RETX : Nat := 0xF008004C
abbrev R.RED_CNT_GCM_FAIL : Nat := 0xF0080050
abbrev R.RED_CNT_LINK_DOWN : Nat := 0xF0080054
abbrev R.RED_LAST_TAKE : Nat := 0xF0080058
abbrev R.SES_CTRL : Nat := 0xF0090000
abbrev R.SES_STATUS : Nat := 0xF0090004
abbrev R.SES_CFG : Nat := 0xF0090008
abbrev R.SES_CFG2 : Nat := 0xF009000C
abbrev R.SES_EVENTS : Nat := 0xF0090010
abbrev R.SES_CNT_OK : Nat := 0xF0090020
abbrev R.SES_CNT_AUTH : Nat := 0xF0090024
abbrev R.SES_CNT_REPLAY : Nat := 0xF0090028
abbrev R.SES_CNT_LATE : Nat := 0xF009002C
abbrev R.SES_CNT_CRC : Nat := 0xF0090030
abbrev R.SES_CNT_PIP : Nat := 0xF0090034
abbrev R.SES_CNT_TXQ_FULL : Nat := 0xF0090038
abbrev R.SES_CNT_ADMIT : Nat := 0xF009003C
abbrev R.SES_SEL : Nat := 0xF0090040
abbrev R.SES_REC : Nat := 0xF0090080
abbrev R.CHK_CTRL : Nat := 0xF00A0000
abbrev R.CHK_STATUS : Nat := 0xF00A0004
abbrev R.CHK_CFG : Nat := 0xF00A0100
abbrev R.CHK_POLY_LO : Nat := 0xF00A0104
abbrev R.CHK_POLY_HI : Nat := 0xF00A0108
abbrev R.CHK_INIT_LO : Nat := 0xF00A010C
abbrev R.CHK_INIT_HI : Nat := 0xF00A0110
abbrev R.CHK_XOR_LO : Nat := 0xF00A0114
abbrev R.CHK_XOR_HI : Nat := 0xF00A0118
abbrev R.CHK_EXP_LO : Nat := 0xF00A011C
abbrev R.CHK_EXP_HI : Nat := 0xF00A0120
abbrev R.CHK_SRC_LO : Nat := 0xF00A0124
abbrev R.CHK_SRC_HI : Nat := 0xF00A0128
abbrev R.CHK_LEN : Nat := 0xF00A012C
abbrev R.CHK_CMD : Nat := 0xF00A0130
abbrev R.CHK_RES_LO : Nat := 0xF00A0134
abbrev R.CHK_RES_HI : Nat := 0xF00A0138
abbrev R.CHK_STAT : Nat := 0xF00A013C
abbrev R.TIM_CTRL : Nat := 0xF00B0000
abbrev R.TIM_STATUS : Nat := 0xF00B0004
abbrev R.TIM_CFG : Nat := 0xF00B0008
abbrev R.TIM_EVENTS : Nat := 0xF00B000C
abbrev R.TIM_TB_SEL : Nat := 0xF00B0010
abbrev R.TIM_TB_NS : Nat := 0xF00B0014
abbrev R.TIM_TB_SEC_LO : Nat := 0xF00B0018
abbrev R.TIM_TB_SEC_HI : Nat := 0xF00B001C
abbrev R.TIM_TB1_RES_LO : Nat := 0xF00B0020
abbrev R.TIM_TB1_RES_HI : Nat := 0xF00B0024
abbrev R.TIM_PEER_OFS : Nat := 0xF00B0028
abbrev R.TIM_TB7_ADJ : Nat := 0xF00B002C
abbrev R.TIM_TB7_NS : Nat := 0xF00B0030
abbrev R.TIM_TB7_SEC_LO : Nat := 0xF00B0034
abbrev R.TIM_TB7_SEC_HI : Nat := 0xF00B0038
abbrev R.TIM_TB7_CMD : Nat := 0xF00B003C
abbrev R.TIM_DOM_CFG : Nat := 0xF00B0040
abbrev R.TIM_DOM_STAT : Nat := 0xF00B0044
abbrev R.TIM_DOM_OFS : Nat := 0xF00B0048
abbrev R.TIM_DOM_ADJ : Nat := 0xF00B004C
abbrev R.TIM_DOM_THR : Nat := 0xF00B0050
abbrev R.TIM_DOM_GM_LO : Nat := 0xF00B0054
abbrev R.TIM_DOM_GM_HI : Nat := 0xF00B0058
abbrev R.TIM_DOM_MPD : Nat := 0xF00B005C
abbrev R.TIM_PORT_DLY : Nat := 0xF00B0100
abbrev R.TIM_PORT_PDLY : Nat := 0xF00B0140
abbrev R.TIM_TXTS_SEL : Nat := 0xF00B0200
abbrev R.TIM_TXTS_HEAD : Nat := 0xF00B0204
abbrev R.TIM_TXTS_NS : Nat := 0xF00B0208
abbrev R.TIM_TXTS_SEC_LO : Nat := 0xF00B020C
abbrev R.TIM_TXTS_SEC_HI : Nat := 0xF00B0210
abbrev R.TIM_TXTS_POP : Nat := 0xF00B0214
abbrev R.TIM_TXTS_OVF : Nat := 0xF00B0218
abbrev R.TIM_CNT_TXTS_LOST : Nat := 0xF00B0220
abbrev R.TIM_CNT_SWITCH : Nat := 0xF00B0224
abbrev R.TIM_CNT_STEP : Nat := 0xF00B0228
abbrev R.TIM_CNT_TC_FWD : Nat := 0xF00B022C
abbrev R.TIM_CNT_FOREIGN : Nat := 0xF00B0230
abbrev R.RTC_CTRL : Nat := 0xF00C0000
abbrev R.RTC_STATUS : Nat := 0xF00C0004
abbrev R.RTC_EVENTS : Nat := 0xF00C0008
abbrev R.RTC_SNAP : Nat := 0xF00C000C
abbrev R.RTC_DATE : Nat := 0xF00C0010
abbrev R.RTC_TIME : Nat := 0xF00C0014
abbrev R.RTC_SUB : Nat := 0xF00C0018
abbrev R.RTC_CNT_VAL : Nat := 0xF00C001C
abbrev R.RTC_SET_DATE : Nat := 0xF00C0020
abbrev R.RTC_SET_TIME : Nat := 0xF00C0024
abbrev R.RTC_SHIFT : Nat := 0xF00C0028
abbrev R.RTC_CMD : Nat := 0xF00C002C
abbrev R.RTC_ALM_DATE : Nat := 0xF00C0030
abbrev R.RTC_ALM_TIME : Nat := 0xF00C0034
abbrev R.RTC_CNT_LOAD : Nat := 0xF00C0038
abbrev R.RTC_MEAS_CFG : Nat := 0xF00C003C
abbrev R.RTC_MEAS_RES : Nat := 0xF00C0040
abbrev R.RTC_TRIM : Nat := 0xF00C0044
abbrev R.CAN_CTRL : Nat := 0xF00D0000
abbrev R.CAN_CFG : Nat := 0xF00D0004
abbrev R.CAN_MODE : Nat := 0xF00D0008
abbrev R.CAN_STATUS : Nat := 0xF00D000C
abbrev R.CAN_NBT : Nat := 0xF00D0010
abbrev R.CAN_DBT : Nat := 0xF00D0014
abbrev R.CAN_XBT : Nat := 0xF00D0018
abbrev R.CAN_TDC : Nat := 0xF00D001C
abbrev R.CAN_RX_BASE_LO : Nat := 0xF00D0020
abbrev R.CAN_RX_BASE_HI : Nat := 0xF00D0024
abbrev R.CAN_RX_CFG : Nat := 0xF00D0028
abbrev R.CAN_RX_PUT : Nat := 0xF00D002C
abbrev R.CAN_RX_ACK : Nat := 0xF00D0030
abbrev R.CAN_TX_BASE_LO : Nat := 0xF00D0040
abbrev R.CAN_TX_BASE_HI : Nat := 0xF00D0044
abbrev R.CAN_TX_CFG : Nat := 0xF00D0048
abbrev R.CAN_TX_PUT : Nat := 0xF00D004C
abbrev R.CAN_TX_DONE : Nat := 0xF00D0050
abbrev R.CAN_TX_ACK : Nat := 0xF00D0054
abbrev R.CAN_WAKE_ID : Nat := 0xF00D0060
abbrev R.CAN_WAKE_IDM : Nat := 0xF00D0064
abbrev R.CAN_WAKE_CFG : Nat := 0xF00D0068
abbrev R.CAN_WAKE_DM_LO : Nat := 0xF00D006C
abbrev R.CAN_WAKE_DM_HI : Nat := 0xF00D0070
abbrev R.CAN_CMD : Nat := 0xF00D0074
abbrev R.CAN_EVENTS : Nat := 0xF00D0078
abbrev R.CAN_CNT_RX_OK : Nat := 0xF00D0080
abbrev R.CAN_CNT_TX_OK : Nat := 0xF00D0084
abbrev R.CAN_CNT_RX_OVF : Nat := 0xF00D0088
abbrev R.CAN_CNT_ERR : Nat := 0xF00D008C
abbrev R.CAN_CNT_BOFF : Nat := 0xF00D0090
abbrev R.UART_CFG : Nat := 0xF00E0000
abbrev R.UART_BAUD : Nat := 0xF00E0004
abbrev R.UART_RX_BASE_LO : Nat := 0xF00E0020
abbrev R.UART_RX_BASE_HI : Nat := 0xF00E0024
abbrev R.UART_RX_CFG : Nat := 0xF00E0028
abbrev R.UART_RX_PUT : Nat := 0xF00E002C
abbrev R.UART_RX_ACK : Nat := 0xF00E0030
abbrev R.UART_TX_BASE_LO : Nat := 0xF00E0040
abbrev R.UART_TX_BASE_HI : Nat := 0xF00E0044
abbrev R.UART_TX_CFG : Nat := 0xF00E0048
abbrev R.UART_TX_PUT : Nat := 0xF00E004C
abbrev R.UART_TX_DONE : Nat := 0xF00E0050
abbrev R.UART_TX_ACK : Nat := 0xF00E0054
abbrev R.UART_CMD : Nat := 0xF00E0074
abbrev R.UART_EVENTS : Nat := 0xF00E0078
abbrev R.UART_CNT_RX_OK : Nat := 0xF00E0080
abbrev R.UART_CNT_TX_OK : Nat := 0xF00E0084
abbrev R.UART_CNT_RX_OVF : Nat := 0xF00E0088
abbrev R.UART_CNT_CRC : Nat := 0xF00E008C
abbrev R.UART_CTRL : Nat := 0xF00E1000
abbrev R.FIO_CTRL : Nat := 0xF00F0000
abbrev R.FIO_STATUS : Nat := 0xF00F0004
abbrev R.FIO_EVENTS : Nat := 0xF00F0008
abbrev R.FIO_DI : Nat := 0xF00F000C
abbrev R.FIO_RB : Nat := 0xF00F0010
abbrev R.FIO_DO : Nat := 0xF00F0014
abbrev R.FIO_SAFE : Nat := 0xF00F0018
abbrev R.FIO_OLD_EN : Nat := 0xF00F001C
abbrev R.FIO_VFSUP : Nat := 0xF00F0020
abbrev R.FIO_FILT : Nat := 0xF00F0040
abbrev R.FIO_CNT : Nat := 0xF00F0100
abbrev R.FIO_CNT_OFS : Nat := 0xF00F0180
abbrev R.FIO_AFE_OVR : Nat := 0xF00F0200
abbrev R.FIO_AFE_SMP : Nat := 0xF00F0240
abbrev R.SEC_CTRL : Nat := 0xF0110000
abbrev R.SEC_STATUS : Nat := 0xF0110004
abbrev R.SEC_EVENTS : Nat := 0xF0110008
abbrev R.SEC_KS_CNT_LO : Nat := 0xF011000C
abbrev R.SEC_KS_CNT_HI : Nat := 0xF0110010
abbrev R.SEC_UPD_RES : Nat := 0xF0110014
abbrev R.SEC_IMG_RES : Nat := 0xF0110018
abbrev R.SEC_CNT_ATTR_DENY : Nat := 0xF0110020
abbrev R.SEC_CNT_UPD_REFUSED : Nat := 0xF0110024
abbrev R.SEC_CNT_IMG_REFUSED : Nat := 0xF0110028
abbrev R.SEC_SLOT : Nat := 0xF0110100
abbrev R.SEC_ID_HASH : Nat := 0xF0110200
abbrev R.EVR_CTRL : Nat := 0xF0120000
abbrev R.EVR_STATUS : Nat := 0xF0120004
abbrev R.EVR_CFG : Nat := 0xF0120008
abbrev R.EVR_EVENTS : Nat := 0xF012000C
abbrev R.EVR_SEQ_NEXT_LO : Nat := 0xF0120010
abbrev R.EVR_SEQ_NEXT_HI : Nat := 0xF0120014
abbrev R.EVR_USED : Nat := 0xF0120018
abbrev R.EVR_HOST_ACK_LO : Nat := 0xF012001C
abbrev R.EVR_HOST_ACK_HI : Nat := 0xF0120020
abbrev R.EVR_CNT_OVERWRITE : Nat := 0xF0120024
abbrev R.EVR_CNT_UNREAD : Nat := 0xF0120028
abbrev R.EVR_CNT_STATE_LOST : Nat := 0xF012002C
abbrev R.EVR_CNT_BAD_SLOT : Nat := 0xF0120030
abbrev R.EVR_DROP : Nat := 0xF0120040
abbrev R.EVR_SEEK_LO : Nat := 0xF0120080
abbrev R.EVR_SEEK_HI : Nat := 0xF0120084
abbrev R.EVR_SEEK_RES : Nat := 0xF0120088
abbrev R.EVR_RD_SEL : Nat := 0xF012008C
abbrev R.EVR_RD_BUF : Nat := 0xF0120100
abbrev R.QUE_CTRL : Nat := 0xF0130000
abbrev R.QUE_CORR_TOTAL : Nat := 0xF0130004
abbrev R.QUE_STAT : Nat := 0xF0130100
abbrev R.QUE_STALL : Nat := 0xF0130200
abbrev R.FUSE_CTRL : Nat := 0xF0150000
abbrev R.FUSE_STATUS : Nat := 0xF0150004
abbrev R.FUSE_RT_CNT : Nat := 0xF0150008
abbrev R.FUSE_PG_CNT : Nat := 0xF015000C
abbrev R.FUSE_WORD : Nat := 0xF0150100

/-! The named fields. -/

def F.SYS_CTRL_LOCK : Fld := ⟨0xF0000000, 0x0, 8, 8⟩
def F.SYS_STATUS_BUS_ERR : Fld := ⟨0xF0000004, 0x0, 1, 1⟩
def F.SYS_STATUS_CFG_ERR : Fld := ⟨0xF0000004, 0x0, 0, 0⟩
def F.SYS_CFG_PWR_WARM : Fld := ⟨0xF0000008, 0x0, 0, 0⟩
def F.SYS_RESET_KEY : Fld := ⟨0xF000000C, 0x0, 15, 8⟩
def F.SYS_RESET_KIND : Fld := ⟨0xF000000C, 0x0, 1, 0⟩
def F.SYS_RESET_CAUSE_KIND : Fld := ⟨0xF0000010, 0x0, 31, 30⟩
def F.SYS_RESET_CAUSE_RESTART : Fld := ⟨0xF0000010, 0x0, 29, 28⟩
def F.SYS_RESET_CAUSE_SAVE_USED : Fld := ⟨0xF0000010, 0x0, 16, 16⟩
def F.SYS_RESET_CAUSE_CAUSE : Fld := ⟨0xF0000010, 0x0, 9, 0⟩
def F.SYS_BUS_ERR_LO_ADDR : Fld := ⟨0xF0000014, 0x0, 31, 0⟩
def F.SYS_BUS_ERR_HI_ADDR : Fld := ⟨0xF0000018, 0x0, 31, 0⟩
def F.CLK_CTRL_LOCK : Fld := ⟨0xF0010000, 0x0, 8, 8⟩
def F.CLK_CTRL_CLR_CNT : Fld := ⟨0xF0010000, 0x0, 2, 2⟩
def F.CLK_STATUS_REF_OK : Fld := ⟨0xF0010004, 0x0, 31, 31⟩
def F.CLK_STATUS_SWITCHING : Fld := ⟨0xF0010004, 0x0, 30, 30⟩
def F.CLK_STATUS_QUAL_CODE : Fld := ⟨0xF0010004, 0x0, 23, 21⟩
def F.CLK_STATUS_PLL_LOCK : Fld := ⟨0xF0010004, 0x0, 4, 0⟩
def F.CLK_EVENTS_GATE_REFUSED : Fld := ⟨0xF0010008, 0x0, 3, 3⟩
def F.CLK_EVENTS_SW_FALLBACK : Fld := ⟨0xF0010008, 0x0, 2, 2⟩
def F.CLK_EVENTS_PLL_UNLOCK : Fld := ⟨0xF0010008, 0x0, 1, 1⟩
def F.CLK_EVENTS_REF_LOST : Fld := ⟨0xF0010008, 0x0, 0, 0⟩
def F.CLK_SRC_PLL : Fld := ⟨0xF001000C, 0x0, 14, 0⟩
def F.CLK_GATE_PERI_AFE : Fld := ⟨0xF0010010, 0x0, 16, 16⟩
def F.CLK_GATE_PERI_PCIE : Fld := ⟨0xF0010010, 0x0, 15, 15⟩
def F.CLK_GATE_PERI_XGE : Fld := ⟨0xF0010010, 0x0, 14, 13⟩
def F.CLK_GATE_PERI_GE : Fld := ⟨0xF0010010, 0x0, 12, 9⟩
def F.CLK_GATE_PERI_T1L : Fld := ⟨0xF0010010, 0x0, 8, 8⟩
def F.CLK_GATE_PERI_UART : Fld := ⟨0xF0010010, 0x0, 7, 4⟩
def F.CLK_GATE_PERI_CAN : Fld := ⟨0xF0010010, 0x0, 3, 0⟩
def F.CLK_GATE_ENG_PQC : Fld := ⟨0xF0010014, 0x0, 16, 16⟩
def F.CLK_GATE_ENG_KMAC : Fld := ⟨0xF0010014, 0x0, 15, 15⟩
def F.CLK_GATE_ENG_GCM : Fld := ⟨0xF0010014, 0x0, 14, 14⟩
def F.CLK_GATE_ENG_SECENG : Fld := ⟨0xF0010014, 0x0, 13, 13⟩
def F.CLK_GATE_ENG_CHK : Fld := ⟨0xF0010014, 0x0, 12, 12⟩
def F.CLK_GATE_ENG_MTR : Fld := ⟨0xF0010014, 0x0, 11, 11⟩
def F.CLK_GATE_ENG_LPE : Fld := ⟨0xF0010014, 0x0, 10, 10⟩
def F.CLK_GATE_ENG_FABENG : Fld := ⟨0xF0010014, 0x0, 9, 9⟩
def F.CLK_GATE_ENG_CL : Fld := ⟨0xF0010014, 0x0, 8, 1⟩
def F.CLK_GATE_ENG_SOLV : Fld := ⟨0xF0010014, 0x0, 0, 0⟩
def F.CLK_QUAL_N : Fld := ⟨0xF0010018, 0x0, 24, 0⟩
def F.CLK_CNT_FALLBACK_COUNT : Fld := ⟨0xF001001C, 0x0, 31, 0⟩
def F.PWR_CTRL_LOCK : Fld := ⟨0xF0020000, 0x0, 8, 8⟩
def F.PWR_CTRL_CLR_CNT : Fld := ⟨0xF0020000, 0x0, 2, 2⟩
def F.PWR_STATUS_HOLDUP_OK : Fld := ⟨0xF0020004, 0x0, 4, 4⟩
def F.PWR_STATUS_SAVING : Fld := ⟨0xF0020004, 0x0, 3, 3⟩
def F.PWR_STATUS_SAVE_VALID : Fld := ⟨0xF0020004, 0x0, 2, 2⟩
def F.PWR_STATUS_FROZEN : Fld := ⟨0xF0020004, 0x0, 1, 1⟩
def F.PWR_STATUS_WARN : Fld := ⟨0xF0020004, 0x0, 0, 0⟩
def F.PWR_EVENTS_OVER : Fld := ⟨0xF0020008, 0x0, 2, 2⟩
def F.PWR_EVENTS_SAVE_FAIL : Fld := ⟨0xF0020008, 0x0, 1, 1⟩
def F.PWR_EVENTS_WARN : Fld := ⟨0xF0020008, 0x0, 0, 0⟩
def F.PWR_VIN_MV : Fld := ⟨0xF002000C, 0x0, 15, 0⟩
def F.PWR_VIN_MIN_MV : Fld := ⟨0xF0020010, 0x0, 15, 0⟩
def F.PWR_TEMP_DECI_C : Fld := ⟨0xF0020014, 0x0, 15, 0⟩
def F.PWR_CNT_DIP_COUNT : Fld := ⟨0xF0020018, 0x0, 31, 0⟩
def F.NSA_CTRL_LOCK : Fld := ⟨0xF0030000, 0x0, 8, 8⟩
def F.NSA_CTRL_CLR_CNT : Fld := ⟨0xF0030000, 0x0, 2, 2⟩
def F.NSA_CTRL_CANCEL_STUDY : Fld := ⟨0xF0030000, 0x0, 1, 1⟩
def F.NSA_STATUS_LAST_OUTCOME : Fld := ⟨0xF0030004, 0x0, 15, 12⟩
def F.NSA_STATUS_STUDY_BUSY : Fld := ⟨0xF0030004, 0x0, 11, 11⟩
def F.NSA_STATUS_PLY_BUSY : Fld := ⟨0xF0030004, 0x0, 10, 10⟩
def F.NSA_STATUS_DPO_BUSY : Fld := ⟨0xF0030004, 0x0, 9, 9⟩
def F.NSA_STATUS_HYD_BUSY : Fld := ⟨0xF0030004, 0x0, 8, 8⟩
def F.NSA_STATUS_NO_DESC : Fld := ⟨0xF0030004, 0x0, 1, 1⟩
def F.NSA_STATUS_NO_MODEL : Fld := ⟨0xF0030004, 0x0, 0, 0⟩
def F.NSA_MODEL_STATUS_PREPARING : Fld := ⟨0xF0030008, 0x0, 10, 10⟩
def F.NSA_MODEL_STATUS_ACTIVE_SLOT : Fld := ⟨0xF0030008, 0x0, 8, 8⟩
def F.NSA_MODEL_STATUS_SLOT_B_STATE : Fld := ⟨0xF0030008, 0x0, 6, 4⟩
def F.NSA_MODEL_STATUS_SLOT_A_STATE : Fld := ⟨0xF0030008, 0x0, 2, 0⟩
def F.NSA_MODEL_ERR_CODE : Fld := ⟨0xF003000C, 0x0, 31, 24⟩
def F.NSA_MODEL_ERR_TABLE : Fld := ⟨0xF003000C, 0x0, 23, 20⟩
def F.NSA_MODEL_ERR_INDEX : Fld := ⟨0xF003000C, 0x0, 15, 0⟩
def F.NSA_MODEL_SERIAL_SERIAL : Fld := ⟨0xF0030010, 0x0, 31, 0⟩
def F.NSA_HS_LO_HS : Fld := ⟨0xF0030014, 0x0, 31, 0⟩
def F.NSA_HS_HI_HS : Fld := ⟨0xF0030018, 0x0, 31, 0⟩
def F.NSA_CYCLE_LO_CYCLE : Fld := ⟨0xF003001C, 0x0, 31, 0⟩
def F.NSA_CYCLE_HI_CYCLE : Fld := ⟨0xF0030020, 0x0, 31, 0⟩
def F.NSA_HT_LO_HT : Fld := ⟨0xF0030024, 0x0, 31, 0⟩
def F.NSA_HT_HI_HT : Fld := ⟨0xF0030028, 0x0, 31, 0⟩
def F.NSA_ALLOC_DPO : Fld := ⟨0xF003002C, 0x0, 23, 16⟩
def F.NSA_ALLOC_PLY : Fld := ⟨0xF003002C, 0x0, 15, 8⟩
def F.NSA_ALLOC_HYD : Fld := ⟨0xF003002C, 0x0, 7, 0⟩
def F.NSA_CLUSTER_BUSY : Fld := ⟨0xF0030030, 0x0, 15, 8⟩
def F.NSA_CLUSTER_FAULTY : Fld := ⟨0xF0030030, 0x0, 7, 0⟩
def F.NSA_EVENTS_MISSED : Fld := ⟨0xF0030034, 0x0, 7, 7⟩
def F.NSA_EVENTS_FAULT : Fld := ⟨0xF0030034, 0x0, 6, 6⟩
def F.NSA_EVENTS_THERM_SKIPPED : Fld := ⟨0xF0030034, 0x0, 5, 5⟩
def F.NSA_EVENTS_WARM_REFUSED : Fld := ⟨0xF0030034, 0x0, 4, 4⟩
def F.NSA_EVENTS_BREAKDOWN : Fld := ⟨0xF0030034, 0x0, 3, 3⟩
def F.NSA_EVENTS_PIVOT_REG : Fld := ⟨0xF0030034, 0x0, 2, 2⟩
def F.NSA_EVENTS_PRECOND_FALLBACK : Fld := ⟨0xF0030034, 0x0, 1, 1⟩
def F.NSA_EVENTS_DEADLINE : Fld := ⟨0xF0030034, 0x0, 0, 0⟩
def F.NSA_SAT_WARM : Fld := ⟨0xF0030038, 0x0, 5, 5⟩
def F.NSA_SAT_THERM : Fld := ⟨0xF0030038, 0x0, 4, 4⟩
def F.NSA_SAT_FACT : Fld := ⟨0xF0030038, 0x0, 3, 3⟩
def F.NSA_SAT_CG : Fld := ⟨0xF0030038, 0x0, 2, 2⟩
def F.NSA_SAT_LAW : Fld := ⟨0xF0030038, 0x0, 1, 1⟩
def F.NSA_SAT_FLOW : Fld := ⟨0xF0030038, 0x0, 0, 0⟩
def F.NSA_CNT_MISSED_COUNT : Fld := ⟨0xF003003C, 0x0, 31, 0⟩
def F.NSA_CNT_ABANDON_COUNT : Fld := ⟨0xF0030040, 0x0, 31, 0⟩
def F.NSA_CNT_RETRY_COUNT : Fld := ⟨0xF0030044, 0x0, 31, 0⟩
def F.NSA_CNT_DEADLINE_COUNT : Fld := ⟨0xF0030048, 0x0, 31, 0⟩
def F.NSA_CNT_PIVOT_COUNT : Fld := ⟨0xF003004C, 0x0, 31, 0⟩
def F.NSA_LAST_TIME_ELAPSED : Fld := ⟨0xF0030050, 0x0, 31, 0⟩
def F.DPO_CTRL_CLR_CNT : Fld := ⟨0xF0040000, 0x0, 2, 2⟩
def F.DPO_CTRL_PLY_OFF : Fld := ⟨0xF0040000, 0x0, 1, 1⟩
def F.DPO_CTRL_DPO_OFF : Fld := ⟨0xF0040000, 0x0, 0, 0⟩
def F.DPO_STATUS_LAST_OUTCOME : Fld := ⟨0xF0040004, 0x0, 15, 12⟩
def F.DPO_STATUS_LAST_REFUSE : Fld := ⟨0xF0040004, 0x0, 11, 8⟩
def F.DPO_STATUS_FCST_EXTENDED : Fld := ⟨0xF0040004, 0x0, 5, 5⟩
def F.DPO_STATUS_NO_FCST : Fld := ⟨0xF0040004, 0x0, 4, 4⟩
def F.DPO_STATUS_DEC_VALID : Fld := ⟨0xF0040004, 0x0, 3, 3⟩
def F.DPO_STATUS_NO_DPO_DESC : Fld := ⟨0xF0040004, 0x0, 2, 2⟩
def F.DPO_STATUS_NO_PLY_DESC : Fld := ⟨0xF0040004, 0x0, 1, 1⟩
def F.DPO_DEC_LO_DISPATCH : Fld := ⟨0xF0040008, 0x0, 31, 0⟩
def F.DPO_DEC_HI_DISPATCH : Fld := ⟨0xF004000C, 0x0, 31, 0⟩
def F.DPO_FCST_SERIAL_SERIAL : Fld := ⟨0xF0040010, 0x0, 31, 0⟩
def F.DPO_PLY_LAST_REFINE_DL : Fld := ⟨0xF0040014, 0x0, 4, 4⟩
def F.DPO_PLY_LAST_REASON : Fld := ⟨0xF0040014, 0x0, 3, 0⟩
def F.DPO_PLY_RES_P_RES : Fld := ⟨0xF0040018, 0x0, 31, 0⟩
def F.DPO_PLY_RES_Q_RES : Fld := ⟨0xF004001C, 0x0, 31, 0⟩
def F.DPO_PLY_RES_T_RES : Fld := ⟨0xF0040020, 0x0, 31, 0⟩
def F.DPO_EVENTS_FCST_REFUSED : Fld := ⟨0xF0040024, 0x0, 6, 6⟩
def F.DPO_EVENTS_NO_FCST : Fld := ⟨0xF0040024, 0x0, 5, 5⟩
def F.DPO_EVENTS_NO_STATE : Fld := ⟨0xF0040024, 0x0, 4, 4⟩
def F.DPO_EVENTS_REJECTED : Fld := ⟨0xF0040024, 0x0, 3, 3⟩
def F.DPO_EVENTS_FAULT : Fld := ⟨0xF0040024, 0x0, 2, 2⟩
def F.DPO_EVENTS_DEADLINE : Fld := ⟨0xF0040024, 0x0, 1, 1⟩
def F.DPO_EVENTS_REFUSED : Fld := ⟨0xF0040024, 0x0, 0, 0⟩
def F.DPO_CNT_COMMIT_COUNT : Fld := ⟨0xF0040028, 0x0, 31, 0⟩
def F.DPO_CNT_SQUASH_COUNT : Fld := ⟨0xF004002C, 0x0, 31, 0⟩
def F.DPO_CNT_NOPLY_COUNT : Fld := ⟨0xF0040030, 0x0, 31, 0⟩
def F.DPO_CNT_APPLIED_COUNT : Fld := ⟨0xF0040034, 0x0, 31, 0⟩
def F.DPO_CNT_KEPT_COUNT : Fld := ⟨0xF0040038, 0x0, 31, 0⟩
def F.DPO_LAST_TIME_ELAPSED : Fld := ⟨0xF004003C, 0x0, 31, 0⟩
def F.LPE_CTRL_LOCK : Fld := ⟨0xF0050000, 0x0, 8, 8⟩
def F.LPE_CTRL_CLR_CNT : Fld := ⟨0xF0050000, 0x0, 2, 2⟩
def F.LPE_CTRL_CLR_SAT : Fld := ⟨0xF0050000, 0x0, 1, 1⟩
def F.LPE_STATUS_SCHED_OLD_ANY : Fld := ⟨0xF0050004, 0x0, 31, 31⟩
def F.LPE_STATUS_SRC_LOST_ANY : Fld := ⟨0xF0050004, 0x0, 30, 30⟩
def F.LPE_STATUS_N_RUN : Fld := ⟨0xF0050004, 0x0, 25, 16⟩
def F.LPE_STATUS_PEAK_LOAD : Fld := ⟨0xF0050004, 0x0, 9, 0⟩
def F.LPE_EVENTS_REFUSED : Fld := ⟨0xF0050008, 0x0, 3, 3⟩
def F.LPE_EVENTS_SCHED_OLD : Fld := ⟨0xF0050008, 0x0, 2, 2⟩
def F.LPE_EVENTS_SRC_LOST : Fld := ⟨0xF0050008, 0x0, 1, 1⟩
def F.LPE_EVENTS_SAT : Fld := ⟨0xF0050008, 0x0, 0, 0⟩
def F.LPE_CFG_MAX_LOAD : Fld := ⟨0xF005000C, 0x0, 8, 0⟩
def F.LPE_CNT_EVAL_COUNT : Fld := ⟨0xF0050010, 0x0, 31, 0⟩
def F.LPE_CNT_REGION_COUNT : Fld := ⟨0xF0050014, 0x0, 31, 0⟩
def F.LPE_CNT_SWITCH_COUNT : Fld := ⟨0xF0050018, 0x0, 31, 0⟩
def F.LPE_SAT_SUM_ANY : Fld := ⟨0xF0050040, 0x4, 31, 0⟩
def F.LPE_LOOP_STAT_MODE : Fld := ⟨0xF0051000, 0x4, 15, 14⟩
def F.LPE_LOOP_STAT_REGION : Fld := ⟨0xF0051000, 0x4, 13, 11⟩
def F.LPE_LOOP_STAT_BLENDING : Fld := ⟨0xF0051000, 0x4, 10, 10⟩
def F.LPE_LOOP_STAT_WINNER : Fld := ⟨0xF0051000, 0x4, 9, 9⟩
def F.LPE_LOOP_STAT_SCHED_OLD : Fld := ⟨0xF0051000, 0x4, 8, 8⟩
def F.LPE_LOOP_STAT_SRC_LOST : Fld := ⟨0xF0051000, 0x4, 6, 6⟩
def F.LPE_LOOP_STAT_SAT_SCHED : Fld := ⟨0xF0051000, 0x4, 4, 4⟩
def F.LPE_LOOP_STAT_SAT_OUT : Fld := ⟨0xF0051000, 0x4, 3, 3⟩
def F.LPE_LOOP_STAT_SAT_D : Fld := ⟨0xF0051000, 0x4, 2, 2⟩
def F.LPE_LOOP_STAT_SAT_I : Fld := ⟨0xF0051000, 0x4, 1, 1⟩
def F.LPE_LOOP_STAT_SAT_P : Fld := ⟨0xF0051000, 0x4, 0, 0⟩
def F.LPE_LOOP_OUT_C : Fld := ⟨0xF0051800, 0x4, 31, 0⟩
def F.LPE_GROUP_STAT_DRIVEN : Fld := ⟨0xF0052000, 0x4, 31, 31⟩
def F.LPE_GROUP_STAT_WINNER : Fld := ⟨0xF0052000, 0x4, 24, 16⟩
def F.LPE_GROUP_STAT_N_MEMBERS : Fld := ⟨0xF0052000, 0x4, 3, 0⟩
def F.LPE_GROUP_OUT_W : Fld := ⟨0xF0052100, 0x4, 31, 0⟩
def F.MTR_CTRL_CLR_CNT : Fld := ⟨0xF0060000, 0x0, 2, 2⟩
def F.MTR_STATUS_NO_LATCH : Fld := ⟨0xF0060004, 0x0, 3, 3⟩
def F.MTR_STATUS_NO_CFG : Fld := ⟨0xF0060004, 0x0, 2, 2⟩
def F.MTR_STATUS_CFG_PENDING : Fld := ⟨0xF0060004, 0x0, 1, 1⟩
def F.MTR_STATUS_ARCH_FROZEN : Fld := ⟨0xF0060004, 0x0, 0, 0⟩
def F.MTR_LATCH_CFG_F_NOM : Fld := ⟨0xF0060008, 0x0, 16, 16⟩
def F.MTR_LATCH_CFG_N_LINE : Fld := ⟨0xF0060008, 0x0, 15, 0⟩
def F.MTR_LATCH_IDX_LO_IDX : Fld := ⟨0xF006000C, 0x0, 31, 0⟩
def F.MTR_LATCH_IDX_HI_IDX : Fld := ⟨0xF0060010, 0x0, 31, 0⟩
def F.MTR_ARCH_VALID : Fld := ⟨0xF0060014, 0x0, 24, 16⟩
def F.MTR_ARCH_HEAD : Fld := ⟨0xF0060014, 0x0, 7, 0⟩
def F.MTR_ARCH_ACK_SEQ : Fld := ⟨0xF0060018, 0x0, 31, 0⟩
def F.MTR_EVENTS_CFG_REFUSED : Fld := ⟨0xF006001C, 0x0, 7, 7⟩
def F.MTR_EVENTS_ARCH_LOST : Fld := ⟨0xF006001C, 0x0, 6, 6⟩
def F.MTR_EVENTS_PULSE_OVF : Fld := ⟨0xF006001C, 0x0, 5, 5⟩
def F.MTR_EVENTS_WRAP : Fld := ⟨0xF006001C, 0x0, 4, 4⟩
def F.MTR_EVENTS_SV_UNSYNC : Fld := ⟨0xF006001C, 0x0, 3, 3⟩
def F.MTR_EVENTS_SV_LOST : Fld := ⟨0xF006001C, 0x0, 2, 2⟩
def F.MTR_EVENTS_GAP : Fld := ⟨0xF006001C, 0x0, 1, 1⟩
def F.MTR_EVENTS_THERM_MISSING : Fld := ⟨0xF006001C, 0x0, 0, 0⟩
def F.MTR_CNT_GAP_COUNT : Fld := ⟨0xF0060020, 0x0, 31, 0⟩
def F.MTR_CNT_THERM_MISS_COUNT : Fld := ⟨0xF0060024, 0x0, 31, 0⟩
def F.MTR_CNT_ARCH_LOST_COUNT : Fld := ⟨0xF0060028, 0x0, 31, 0⟩
def F.MTR_CNT_PULSE_LOST_COUNT : Fld := ⟨0xF006002C, 0x0, 31, 0⟩
def F.MTR_RD_SEL_SPACE : Fld := ⟨0xF0060040, 0x0, 31, 30⟩
def F.MTR_RD_SEL_CH : Fld := ⟨0xF0060040, 0x0, 27, 16⟩
def F.MTR_RD_SEL_REG : Fld := ⟨0xF0060040, 0x0, 3, 0⟩
def F.MTR_RD_LO_DATA : Fld := ⟨0xF0060044, 0x0, 31, 0⟩
def F.MTR_RD_HI_DATA : Fld := ⟨0xF0060048, 0x0, 31, 0⟩
def F.MTR_RD_FRAC_DATA : Fld := ⟨0xF006004C, 0x0, 31, 0⟩
def F.MTR_SV_STAT_LOST : Fld := ⟨0xF0060100, 0x4, 31, 31⟩
def F.MTR_SV_STAT_UNSYNC : Fld := ⟨0xF0060100, 0x4, 30, 30⟩
def F.MTR_SV_STAT_MISSING : Fld := ⟨0xF0060100, 0x4, 15, 0⟩
def F.MTR_SV_SUB_APPID : Fld := ⟨0xF0060180, 0x4, 31, 16⟩
def F.MTR_SV_SUB_MAC_LO : Fld := ⟨0xF0060180, 0x4, 15, 0⟩
def F.MTR_PULSE_CFG_ENABLE : Fld := ⟨0xF0060200, 0x4, 31, 31⟩
def F.MTR_PULSE_CFG_THERM : Fld := ⟨0xF0060200, 0x4, 30, 30⟩
def F.MTR_PULSE_CFG_CH : Fld := ⟨0xF0060200, 0x4, 27, 16⟩
def F.MTR_PULSE_CFG_REG : Fld := ⟨0xF0060200, 0x4, 15, 12⟩
def F.MTR_PULSE_CFG_DO : Fld := ⟨0xF0060200, 0x4, 11, 8⟩
def F.MTR_PULSE_CFG_WIDTH : Fld := ⟨0xF0060200, 0x4, 7, 0⟩
def F.MTR_PULSE_WT_WEIGHT : Fld := ⟨0xF0060220, 0x4, 31, 0⟩
def F.MTR_PULSE_STAT_ACTIVE : Fld := ⟨0xF0060240, 0x4, 31, 31⟩
def F.MTR_PULSE_STAT_OVF : Fld := ⟨0xF0060240, 0x4, 30, 30⟩
def F.MTR_PULSE_STAT_BACKLOG : Fld := ⟨0xF0060240, 0x4, 15, 0⟩
def F.SCN_CTRL_LOCK : Fld := ⟨0xF0070000, 0x0, 8, 8⟩
def F.SCN_CTRL_CLR_CNT : Fld := ⟨0xF0070000, 0x0, 2, 2⟩
def F.SCN_CTRL_CLR_MAX : Fld := ⟨0xF0070000, 0x0, 1, 1⟩
def F.SCN_STATUS_FORCED : Fld := ⟨0xF0070004, 0x0, 31, 31⟩
def F.SCN_STATUS_HALTED_ANY : Fld := ⟨0xF0070004, 0x0, 30, 30⟩
def F.SCN_STATUS_EXCH_PENDING : Fld := ⟨0xF0070004, 0x0, 29, 29⟩
def F.SCN_STATUS_RUN : Fld := ⟨0xF0070004, 0x0, 9, 8⟩
def F.SCN_STATUS_PROG_SLOT : Fld := ⟨0xF0070004, 0x0, 4, 4⟩
def F.SCN_STATUS_CORE_FAULTY : Fld := ⟨0xF0070004, 0x0, 3, 0⟩
def F.SCN_CFG_WDOG_US : Fld := ⟨0xF0070008, 0x0, 9, 0⟩
def F.SCN_PROG_SERIAL_SERIAL : Fld := ⟨0xF007000C, 0x0, 31, 0⟩
def F.SCN_EXCH_REFUSE : Fld := ⟨0xF0070010, 0x0, 11, 8⟩
def F.SCN_EXCH_STATE : Fld := ⟨0xF0070010, 0x0, 1, 0⟩
def F.SCN_EXCH_AT_LO_TIME : Fld := ⟨0xF0070014, 0x0, 31, 0⟩
def F.SCN_EXCH_AT_HI_TIME : Fld := ⟨0xF0070018, 0x0, 31, 0⟩
def F.SCN_FORCE_CNT_OUTPUT : Fld := ⟨0xF007001C, 0x0, 26, 16⟩
def F.SCN_FORCE_CNT_INPUT : Fld := ⟨0xF007001C, 0x0, 10, 0⟩
def F.SCN_EVENTS_MEM_FAULT : Fld := ⟨0xF0070020, 0x0, 8, 8⟩
def F.SCN_EVENTS_FORCE_RELEASED : Fld := ⟨0xF0070020, 0x0, 7, 7⟩
def F.SCN_EVENTS_EXCH_REFUSED : Fld := ⟨0xF0070020, 0x0, 6, 6⟩
def F.SCN_EVENTS_EXCH_DONE : Fld := ⟨0xF0070020, 0x0, 5, 5⟩
def F.SCN_EVENTS_HALT : Fld := ⟨0xF0070020, 0x0, 4, 4⟩
def F.SCN_EVENTS_CORE_FAULT : Fld := ⟨0xF0070020, 0x0, 3, 3⟩
def F.SCN_EVENTS_REROLL : Fld := ⟨0xF0070020, 0x0, 2, 2⟩
def F.SCN_EVENTS_PROG_ERR : Fld := ⟨0xF0070020, 0x0, 1, 1⟩
def F.SCN_EVENTS_OVERRUN : Fld := ⟨0xF0070020, 0x0, 0, 0⟩
def F.SCN_CNT_REROLL_COUNT : Fld := ⟨0xF0070024, 0x0, 31, 0⟩
def F.SCN_CNT_OVERRUN_COUNT : Fld := ⟨0xF0070028, 0x0, 31, 0⟩
def F.SCN_CNT_PROG_ERR_COUNT : Fld := ⟨0xF007002C, 0x0, 31, 0⟩
def F.SCN_CNT_PREEMPT_COUNT : Fld := ⟨0xF0070030, 0x0, 31, 0⟩
def F.SCN_FORCE_SEL_INDEX : Fld := ⟨0xF0070040, 0x0, 9, 0⟩
def F.SCN_FORCE_ENT_ENABLE : Fld := ⟨0xF0070044, 0x0, 31, 31⟩
def F.SCN_FORCE_ENT_KIND : Fld := ⟨0xF0070044, 0x0, 30, 30⟩
def F.SCN_FORCE_ENT_TARGET : Fld := ⟨0xF0070044, 0x0, 15, 0⟩
def F.SCN_FORCE_VAL_LO_VALUE : Fld := ⟨0xF0070048, 0x0, 31, 0⟩
def F.SCN_FORCE_VAL_HI_VALUE : Fld := ⟨0xF007004C, 0x0, 31, 0⟩
def F.SCN_FORCE_CMD_CMD : Fld := ⟨0xF0070050, 0x0, 1, 0⟩
def F.SCN_FORCE_RES_BUSY : Fld := ⟨0xF0070054, 0x0, 31, 31⟩
def F.SCN_FORCE_RES_CODE : Fld := ⟨0xF0070054, 0x0, 7, 4⟩
def F.SCN_TASK_CFG_DECLARED : Fld := ⟨0xF0070100, 0x4, 31, 31⟩
def F.SCN_TASK_CFG_CORE : Fld := ⟨0xF0070100, 0x4, 27, 26⟩
def F.SCN_TASK_CFG_PRIO : Fld := ⟨0xF0070100, 0x4, 23, 20⟩
def F.SCN_TASK_CFG_POLICY : Fld := ⟨0xF0070100, 0x4, 19, 19⟩
def F.SCN_TASK_CFG_OVR_MAX : Fld := ⟨0xF0070100, 0x4, 15, 12⟩
def F.SCN_TASK_CFG_PERIOD : Fld := ⟨0xF0070100, 0x4, 11, 0⟩
def F.SCN_TASK_STAT_STATE : Fld := ⟨0xF0070140, 0x4, 31, 29⟩
def F.SCN_TASK_STAT_LAST_CODE : Fld := ⟨0xF0070140, 0x4, 23, 16⟩
def F.SCN_TASK_STAT_ERR_RUN : Fld := ⟨0xF0070140, 0x4, 15, 8⟩
def F.SCN_TASK_STAT_SKIPPED : Fld := ⟨0xF0070140, 0x4, 3, 0⟩
def F.SCN_TASK_TIME_VALUE : Fld := ⟨0xF0070180, 0x4, 31, 0⟩
def F.SCN_TASK_MAX_VALUE : Fld := ⟨0xF00701C0, 0x4, 31, 0⟩
def F.SCN_TASK_OVR_VALUE : Fld := ⟨0xF0070200, 0x4, 31, 0⟩
def F.SCN_CORE_STAT_FAULTY : Fld := ⟨0xF0070300, 0x4, 31, 31⟩
def F.SCN_CORE_STAT_REROLLS : Fld := ⟨0xF0070300, 0x4, 23, 16⟩
def F.SCN_CORE_STAT_ECC_CORR : Fld := ⟨0xF0070300, 0x4, 15, 0⟩
def F.RED_CTRL_LOCK : Fld := ⟨0xF0080000, 0x0, 8, 8⟩
def F.RED_CTRL_CLR_CNT : Fld := ⟨0xF0080000, 0x0, 2, 2⟩
def F.RED_STATUS_ROLE : Fld := ⟨0xF0080004, 0x0, 31, 28⟩
def F.RED_STATUS_PEER_ROLE : Fld := ⟨0xF0080004, 0x0, 27, 24⟩
def F.RED_STATUS_POSITION : Fld := ⟨0xF0080004, 0x0, 21, 20⟩
def F.RED_STATUS_LANES : Fld := ⟨0xF0080004, 0x0, 19, 18⟩
def F.RED_STATUS_LINK_UP : Fld := ⟨0xF0080004, 0x0, 17, 17⟩
def F.RED_STATUS_IN_SYNC : Fld := ⟨0xF0080004, 0x0, 16, 16⟩
def F.RED_STATUS_MTR_JOINED : Fld := ⟨0xF0080004, 0x0, 15, 15⟩
def F.RED_STATUS_STALEMATE : Fld := ⟨0xF0080004, 0x0, 8, 8⟩
def F.RED_STATUS_SAFE : Fld := ⟨0xF0080004, 0x0, 7, 7⟩
def F.RED_STATUS_LATCHED : Fld := ⟨0xF0080004, 0x0, 6, 6⟩
def F.RED_STATUS_KEEPER_TRIPPED : Fld := ⟨0xF0080004, 0x0, 5, 5⟩
def F.RED_STATUS_TOKEN_IN : Fld := ⟨0xF0080004, 0x0, 4, 4⟩
def F.RED_STATUS_TOKEN_OUT : Fld := ⟨0xF0080004, 0x0, 3, 3⟩
def F.RED_CFG_WARN_SWITCH : Fld := ⟨0xF0080008, 0x0, 18, 18⟩
def F.RED_CFG_COLD_TAKE : Fld := ⟨0xF0080008, 0x0, 17, 17⟩
def F.RED_CFG_AUTO_RESYNC : Fld := ⟨0xF0080008, 0x0, 16, 16⟩
def F.RED_CFG_MARGIN : Fld := ⟨0xF0080008, 0x0, 15, 8⟩
def F.RED_CFG_ELIG_MIN : Fld := ⟨0xF0080008, 0x0, 7, 0⟩
def F.RED_STALE_HOLD_MS : Fld := ⟨0xF008000C, 0x0, 15, 0⟩
def F.RED_KEEPER_TIMEOUT_US : Fld := ⟨0xF0080010, 0x0, 9, 0⟩
def F.RED_REFRESH_KEY : Fld := ⟨0xF0080014, 0x0, 7, 0⟩
def F.RED_HEALTH_PEER_SCORE : Fld := ⟨0xF0080018, 0x0, 31, 24⟩
def F.RED_HEALTH_SCORE : Fld := ⟨0xF0080018, 0x0, 23, 16⟩
def F.RED_HEALTH_PEER_ELIGIBLE : Fld := ⟨0xF0080018, 0x0, 3, 3⟩
def F.RED_HEALTH_ELIGIBLE : Fld := ⟨0xF0080018, 0x0, 2, 2⟩
def F.RED_HEALTH_PEER_FATAL : Fld := ⟨0xF0080018, 0x0, 1, 1⟩
def F.RED_HEALTH_FATAL : Fld := ⟨0xF0080018, 0x0, 0, 0⟩
def F.RED_PENALTY_COND : Fld := ⟨0xF008001C, 0x0, 13, 0⟩
def F.RED_CMD_CMD : Fld := ⟨0xF0080020, 0x0, 2, 0⟩
def F.RED_EVENTS_CMD_REFUSED : Fld := ⟨0xF0080024, 0x0, 9, 9⟩
def F.RED_EVENTS_TOKEN_WIRE : Fld := ⟨0xF0080024, 0x0, 8, 8⟩
def F.RED_EVENTS_CONTENTION : Fld := ⟨0xF0080024, 0x0, 7, 7⟩
def F.RED_EVENTS_STALEMATE : Fld := ⟨0xF0080024, 0x0, 6, 6⟩
def F.RED_EVENTS_LOCKOUT : Fld := ⟨0xF0080024, 0x0, 5, 5⟩
def F.RED_EVENTS_SWITCH : Fld := ⟨0xF0080024, 0x0, 4, 4⟩
def F.RED_EVENTS_MISMATCH : Fld := ⟨0xF0080024, 0x0, 3, 3⟩
def F.RED_EVENTS_SYNC_LOST : Fld := ⟨0xF0080024, 0x0, 2, 2⟩
def F.RED_EVENTS_LANE_DOWN : Fld := ⟨0xF0080024, 0x0, 1, 1⟩
def F.RED_EVENTS_LINK_DOWN : Fld := ⟨0xF0080024, 0x0, 0, 0⟩
def F.RED_LINK_EPOCH : Fld := ⟨0xF0080028, 0x0, 31, 16⟩
def F.RED_LINK_TRAIN : Fld := ⟨0xF0080028, 0x0, 11, 8⟩
def F.RED_LINK_LOCK : Fld := ⟨0xF0080028, 0x0, 1, 0⟩
def F.RED_MISMATCH_SOURCE : Fld := ⟨0xF008002C, 0x0, 31, 28⟩
def F.RED_MISMATCH_KIND : Fld := ⟨0xF008002C, 0x0, 27, 24⟩
def F.RED_MISMATCH_TASK : Fld := ⟨0xF008002C, 0x0, 23, 16⟩
def F.RED_MISMATCH_PEER_DIAG : Fld := ⟨0xF008002C, 0x0, 3, 2⟩
def F.RED_MISMATCH_OWN_DIAG : Fld := ⟨0xF008002C, 0x0, 1, 0⟩
def F.RED_MIS_IDX_LO_IDX : Fld := ⟨0xF0080030, 0x0, 31, 0⟩
def F.RED_MIS_IDX_HI_IDX : Fld := ⟨0xF0080034, 0x0, 31, 0⟩
def F.RED_CNT_SWITCH_COUNT : Fld := ⟨0xF0080040, 0x0, 31, 0⟩
def F.RED_CNT_MISMATCH_COUNT : Fld := ⟨0xF0080044, 0x0, 31, 0⟩
def F.RED_CNT_RESYNC_COUNT : Fld := ⟨0xF0080048, 0x0, 31, 0⟩
def F.RED_CNT_RETX_COUNT : Fld := ⟨0xF008004C, 0x0, 31, 0⟩
def F.RED_CNT_GCM_FAIL_COUNT : Fld := ⟨0xF0080050, 0x0, 31, 0⟩
def F.RED_CNT_LINK_DOWN_COUNT : Fld := ⟨0xF0080054, 0x0, 31, 0⟩
def F.RED_LAST_TAKE_US : Fld := ⟨0xF0080058, 0x0, 15, 0⟩
def F.SES_CTRL_LOCK : Fld := ⟨0xF0090000, 0x0, 8, 8⟩
def F.SES_CTRL_CLR_CNT : Fld := ⟨0xF0090000, 0x0, 2, 2⟩
def F.SES_STATUS_KEY_BAD : Fld := ⟨0xF0090004, 0x0, 31, 31⟩
def F.SES_STATUS_NO_BIND : Fld := ⟨0xF0090004, 0x0, 30, 30⟩
def F.SES_STATUS_N_PENDING : Fld := ⟨0xF0090004, 0x0, 28, 16⟩
def F.SES_STATUS_N_ADMITTED : Fld := ⟨0xF0090004, 0x0, 12, 0⟩
def F.SES_CFG_KEY_SLOT : Fld := ⟨0xF0090008, 0x0, 31, 26⟩
def F.SES_CFG_PIP_TOL : Fld := ⟨0xF0090008, 0x0, 23, 16⟩
def F.SES_CFG_ADMIT_RATE : Fld := ⟨0xF0090008, 0x0, 8, 0⟩
def F.SES_CFG2_LEAD_US : Fld := ⟨0xF009000C, 0x0, 31, 16⟩
def F.SES_CFG2_DROP_S : Fld := ⟨0xF009000C, 0x0, 9, 0⟩
def F.SES_EVENTS_KEY_BAD : Fld := ⟨0xF0090010, 0x0, 5, 5⟩
def F.SES_EVENTS_DROPPED : Fld := ⟨0xF0090010, 0x0, 4, 4⟩
def F.SES_EVENTS_TXQ_FULL : Fld := ⟨0xF0090010, 0x0, 3, 3⟩
def F.SES_EVENTS_PIP : Fld := ⟨0xF0090010, 0x0, 2, 2⟩
def F.SES_EVENTS_CRC : Fld := ⟨0xF0090010, 0x0, 1, 1⟩
def F.SES_EVENTS_AUTH : Fld := ⟨0xF0090010, 0x0, 0, 0⟩
def F.SES_CNT_OK_COUNT : Fld := ⟨0xF0090020, 0x0, 31, 0⟩
def F.SES_CNT_AUTH_COUNT : Fld := ⟨0xF0090024, 0x0, 31, 0⟩
def F.SES_CNT_REPLAY_COUNT : Fld := ⟨0xF0090028, 0x0, 31, 0⟩
def F.SES_CNT_LATE_COUNT : Fld := ⟨0xF009002C, 0x0, 31, 0⟩
def F.SES_CNT_CRC_COUNT : Fld := ⟨0xF0090030, 0x0, 31, 0⟩
def F.SES_CNT_PIP_COUNT : Fld := ⟨0xF0090034, 0x0, 31, 0⟩
def F.SES_CNT_TXQ_FULL_COUNT : Fld := ⟨0xF0090038, 0x0, 31, 0⟩
def F.SES_CNT_ADMIT_COUNT : Fld := ⟨0xF009003C, 0x0, 31, 0⟩
def F.SES_SEL_SNAP : Fld := ⟨0xF0090040, 0x0, 12, 12⟩
def F.SES_SEL_INDEX : Fld := ⟨0xF0090040, 0x0, 11, 0⟩
def F.SES_REC_DATA : Fld := ⟨0xF0090080, 0x4, 31, 0⟩
def F.CHK_CTRL_LOCK : Fld := ⟨0xF00A0000, 0x0, 8, 8⟩
def F.CHK_STATUS_MISMATCH : Fld := ⟨0xF00A0004, 0x0, 15, 8⟩
def F.CHK_STATUS_BUSY : Fld := ⟨0xF00A0004, 0x0, 7, 0⟩
def F.CHK_CFG_PROG : Fld := ⟨0xF00A0100, 0x40, 31, 31⟩
def F.CHK_CFG_PIP_EN : Fld := ⟨0xF00A0100, 0x40, 30, 30⟩
def F.CHK_CFG_CMP_EN : Fld := ⟨0xF00A0100, 0x40, 29, 29⟩
def F.CHK_CFG_IRQ_EN : Fld := ⟨0xF00A0100, 0x40, 28, 28⟩
def F.CHK_CFG_REFOUT : Fld := ⟨0xF00A0100, 0x40, 27, 27⟩
def F.CHK_CFG_REFIN : Fld := ⟨0xF00A0100, 0x40, 26, 26⟩
def F.CHK_CFG_PW : Fld := ⟨0xF00A0100, 0x40, 23, 20⟩
def F.CHK_CFG_PIP_OFF : Fld := ⟨0xF00A0100, 0x40, 19, 8⟩
def F.CHK_CFG_WIDTH : Fld := ⟨0xF00A0100, 0x40, 6, 0⟩
def F.CHK_POLY_LO_VALUE : Fld := ⟨0xF00A0104, 0x40, 31, 0⟩
def F.CHK_POLY_HI_VALUE : Fld := ⟨0xF00A0108, 0x40, 31, 0⟩
def F.CHK_INIT_LO_VALUE : Fld := ⟨0xF00A010C, 0x40, 31, 0⟩
def F.CHK_INIT_HI_VALUE : Fld := ⟨0xF00A0110, 0x40, 31, 0⟩
def F.CHK_XOR_LO_VALUE : Fld := ⟨0xF00A0114, 0x40, 31, 0⟩
def F.CHK_XOR_HI_VALUE : Fld := ⟨0xF00A0118, 0x40, 31, 0⟩
def F.CHK_EXP_LO_VALUE : Fld := ⟨0xF00A011C, 0x40, 31, 0⟩
def F.CHK_EXP_HI_VALUE : Fld := ⟨0xF00A0120, 0x40, 31, 0⟩
def F.CHK_SRC_LO_ADDR : Fld := ⟨0xF00A0124, 0x40, 31, 0⟩
def F.CHK_SRC_HI_ADDR : Fld := ⟨0xF00A0128, 0x40, 7, 0⟩
def F.CHK_LEN_LEN : Fld := ⟨0xF00A012C, 0x40, 23, 0⟩
def F.CHK_CMD_RESET_PIP : Fld := ⟨0xF00A0130, 0x40, 1, 1⟩
def F.CHK_CMD_START : Fld := ⟨0xF00A0130, 0x40, 0, 0⟩
def F.CHK_RES_LO_RES : Fld := ⟨0xF00A0134, 0x40, 31, 0⟩
def F.CHK_RES_HI_RES : Fld := ⟨0xF00A0138, 0x40, 31, 0⟩
def F.CHK_STAT_PIP_LAST : Fld := ⟨0xF00A013C, 0x40, 31, 16⟩
def F.CHK_STAT_SKIP : Fld := ⟨0xF00A013C, 0x40, 15, 8⟩
def F.CHK_STAT_PIP_VALID : Fld := ⟨0xF00A013C, 0x40, 7, 7⟩
def F.CHK_STAT_PIP_OOR : Fld := ⟨0xF00A013C, 0x40, 6, 6⟩
def F.CHK_STAT_DMA_ERR : Fld := ⟨0xF00A013C, 0x40, 5, 5⟩
def F.CHK_STAT_PIP_SKIP : Fld := ⟨0xF00A013C, 0x40, 4, 4⟩
def F.CHK_STAT_PIP_REPEAT : Fld := ⟨0xF00A013C, 0x40, 3, 3⟩
def F.CHK_STAT_MISMATCH : Fld := ⟨0xF00A013C, 0x40, 2, 2⟩
def F.CHK_STAT_DONE : Fld := ⟨0xF00A013C, 0x40, 1, 1⟩
def F.CHK_STAT_BUSY : Fld := ⟨0xF00A013C, 0x40, 0, 0⟩
def F.TIM_CTRL_LOCK : Fld := ⟨0xF00B0000, 0x0, 8, 8⟩
def F.TIM_CTRL_CLR_CNT : Fld := ⟨0xF00B0000, 0x0, 2, 2⟩
def F.TIM_STATUS_TB1_SRC : Fld := ⟨0xF00B0004, 0x0, 31, 30⟩
def F.TIM_STATUS_HOLDOVER : Fld := ⟨0xF00B0004, 0x0, 29, 29⟩
def F.TIM_STATUS_SLEWING : Fld := ⟨0xF00B0004, 0x0, 28, 28⟩
def F.TIM_STATUS_SEALED : Fld := ⟨0xF00B0004, 0x0, 27, 27⟩
def F.TIM_STATUS_PEER_VALID : Fld := ⟨0xF00B0004, 0x0, 26, 26⟩
def F.TIM_STATUS_DOM_B : Fld := ⟨0xF00B0004, 0x0, 7, 4⟩
def F.TIM_STATUS_DOM_A : Fld := ⟨0xF00B0004, 0x0, 3, 0⟩
def F.TIM_CFG_REVERT_S : Fld := ⟨0xF00B0008, 0x0, 23, 16⟩
def F.TIM_CFG_PREF : Fld := ⟨0xF00B0008, 0x0, 13, 13⟩
def F.TIM_CFG_AUTO : Fld := ⟨0xF00B0008, 0x0, 12, 12⟩
def F.TIM_CFG_SLEW_PPM : Fld := ⟨0xF00B0008, 0x0, 8, 0⟩
def F.TIM_EVENTS_PEER_LOST : Fld := ⟨0xF00B000C, 0x0, 4, 4⟩
def F.TIM_EVENTS_TXTS_OVF : Fld := ⟨0xF00B000C, 0x0, 3, 3⟩
def F.TIM_EVENTS_DOM_STEP : Fld := ⟨0xF00B000C, 0x0, 2, 2⟩
def F.TIM_EVENTS_HOLDOVER : Fld := ⟨0xF00B000C, 0x0, 1, 1⟩
def F.TIM_EVENTS_SRC_SWITCH : Fld := ⟨0xF00B000C, 0x0, 0, 0⟩
def F.TIM_TB_SEL_TB : Fld := ⟨0xF00B0010, 0x0, 2, 0⟩
def F.TIM_TB_NS_VALUE : Fld := ⟨0xF00B0014, 0x0, 31, 0⟩
def F.TIM_TB_SEC_LO_VALUE : Fld := ⟨0xF00B0018, 0x0, 31, 0⟩
def F.TIM_TB_SEC_HI_VALUE : Fld := ⟨0xF00B001C, 0x0, 31, 0⟩
def F.TIM_TB1_RES_LO_RES : Fld := ⟨0xF00B0020, 0x0, 31, 0⟩
def F.TIM_TB1_RES_HI_RES : Fld := ⟨0xF00B0024, 0x0, 31, 0⟩
def F.TIM_PEER_OFS_OFS : Fld := ⟨0xF00B0028, 0x0, 31, 0⟩
def F.TIM_TB7_ADJ_ADJ : Fld := ⟨0xF00B002C, 0x0, 31, 0⟩
def F.TIM_TB7_NS_VALUE : Fld := ⟨0xF00B0030, 0x0, 31, 0⟩
def F.TIM_TB7_SEC_LO_VALUE : Fld := ⟨0xF00B0034, 0x0, 31, 0⟩
def F.TIM_TB7_SEC_HI_VALUE : Fld := ⟨0xF00B0038, 0x0, 15, 0⟩
def F.TIM_TB7_CMD_CMD : Fld := ⟨0xF00B003C, 0x0, 1, 0⟩
def F.TIM_DOM_CFG_ENABLE : Fld := ⟨0xF00B0040, 0x20, 31, 31⟩
def F.TIM_DOM_CFG_PROFILE : Fld := ⟨0xF00B0040, 0x20, 30, 30⟩
def F.TIM_DOM_CFG_TRANSPORT : Fld := ⟨0xF00B0040, 0x20, 29, 28⟩
def F.TIM_DOM_CFG_ONE_STEP : Fld := ⟨0xF00B0040, 0x20, 27, 27⟩
def F.TIM_DOM_CFG_TC_EN : Fld := ⟨0xF00B0040, 0x20, 26, 26⟩
def F.TIM_DOM_CFG_DOMAIN : Fld := ⟨0xF00B0040, 0x20, 23, 16⟩
def F.TIM_DOM_CFG_PORTS : Fld := ⟨0xF00B0040, 0x20, 13, 0⟩
def F.TIM_DOM_STAT_STATE : Fld := ⟨0xF00B0044, 0x20, 31, 28⟩
def F.TIM_DOM_STAT_PORT : Fld := ⟨0xF00B0044, 0x20, 27, 24⟩
def F.TIM_DOM_STAT_PTP_TS : Fld := ⟨0xF00B0044, 0x20, 17, 17⟩
def F.TIM_DOM_STAT_UTC_VALID : Fld := ⟨0xF00B0044, 0x20, 16, 16⟩
def F.TIM_DOM_STAT_UTC_OFS : Fld := ⟨0xF00B0044, 0x20, 15, 0⟩
def F.TIM_DOM_OFS_VALUE : Fld := ⟨0xF00B0048, 0x20, 31, 0⟩
def F.TIM_DOM_ADJ_VALUE : Fld := ⟨0xF00B004C, 0x20, 31, 0⟩
def F.TIM_DOM_THR_STEP_US : Fld := ⟨0xF00B0050, 0x20, 31, 16⟩
def F.TIM_DOM_THR_LOCK_NS : Fld := ⟨0xF00B0050, 0x20, 15, 0⟩
def F.TIM_DOM_GM_LO_VALUE : Fld := ⟨0xF00B0054, 0x20, 31, 0⟩
def F.TIM_DOM_GM_HI_VALUE : Fld := ⟨0xF00B0058, 0x20, 31, 0⟩
def F.TIM_DOM_MPD_VALUE : Fld := ⟨0xF00B005C, 0x20, 31, 0⟩
def F.TIM_PORT_DLY_EGRESS : Fld := ⟨0xF00B0100, 0x4, 31, 16⟩
def F.TIM_PORT_DLY_INGRESS : Fld := ⟨0xF00B0100, 0x4, 15, 0⟩
def F.TIM_PORT_PDLY_NS : Fld := ⟨0xF00B0140, 0x4, 31, 0⟩
def F.TIM_TXTS_SEL_PORT : Fld := ⟨0xF00B0200, 0x0, 3, 0⟩
def F.TIM_TXTS_HEAD_VALID : Fld := ⟨0xF00B0204, 0x0, 31, 31⟩
def F.TIM_TXTS_HEAD_TB : Fld := ⟨0xF00B0204, 0x0, 30, 28⟩
def F.TIM_TXTS_HEAD_COUNT : Fld := ⟨0xF00B0204, 0x0, 20, 16⟩
def F.TIM_TXTS_HEAD_ID : Fld := ⟨0xF00B0204, 0x0, 15, 0⟩
def F.TIM_TXTS_NS_VALUE : Fld := ⟨0xF00B0208, 0x0, 31, 0⟩
def F.TIM_TXTS_SEC_LO_VALUE : Fld := ⟨0xF00B020C, 0x0, 31, 0⟩
def F.TIM_TXTS_SEC_HI_VALUE : Fld := ⟨0xF00B0210, 0x0, 31, 0⟩
def F.TIM_TXTS_POP_POP : Fld := ⟨0xF00B0214, 0x0, 0, 0⟩
def F.TIM_TXTS_OVF_PORT : Fld := ⟨0xF00B0218, 0x0, 13, 0⟩
def F.TIM_CNT_TXTS_LOST_COUNT : Fld := ⟨0xF00B0220, 0x0, 31, 0⟩
def F.TIM_CNT_SWITCH_COUNT : Fld := ⟨0xF00B0224, 0x0, 31, 0⟩
def F.TIM_CNT_STEP_COUNT : Fld := ⟨0xF00B0228, 0x0, 31, 0⟩
def F.TIM_CNT_TC_FWD_COUNT : Fld := ⟨0xF00B022C, 0x0, 31, 0⟩
def F.TIM_CNT_FOREIGN_COUNT : Fld := ⟨0xF00B0230, 0x0, 31, 0⟩
def F.RTC_CTRL_LOCK : Fld := ⟨0xF00C0000, 0x0, 8, 8⟩
def F.RTC_STATUS_OSF : Fld := ⟨0xF00C0004, 0x0, 7, 7⟩
def F.RTC_STATUS_BUSY : Fld := ⟨0xF00C0004, 0x0, 6, 6⟩
def F.RTC_STATUS_VSRC : Fld := ⟨0xF00C0004, 0x0, 5, 5⟩
def F.RTC_STATUS_LEAP_SEC : Fld := ⟨0xF00C0004, 0x0, 4, 4⟩
def F.RTC_STATUS_LEAP_ARM : Fld := ⟨0xF00C0004, 0x0, 3, 2⟩
def F.RTC_STATUS_CNT_RUN : Fld := ⟨0xF00C0004, 0x0, 1, 1⟩
def F.RTC_STATUS_MEAS_RUN : Fld := ⟨0xF00C0004, 0x0, 0, 0⟩
def F.RTC_EVENTS_MEAS_ERR : Fld := ⟨0xF00C0008, 0x0, 5, 5⟩
def F.RTC_EVENTS_MEAS_DONE : Fld := ⟨0xF00C0008, 0x0, 4, 4⟩
def F.RTC_EVENTS_CNT_ZERO : Fld := ⟨0xF00C0008, 0x0, 3, 3⟩
def F.RTC_EVENTS_ALM_SKIPPED : Fld := ⟨0xF00C0008, 0x0, 2, 2⟩
def F.RTC_EVENTS_ALM : Fld := ⟨0xF00C0008, 0x0, 1, 1⟩
def F.RTC_EVENTS_DATE_ERR : Fld := ⟨0xF00C0008, 0x0, 0, 0⟩
def F.RTC_SNAP_CAPTURE : Fld := ⟨0xF00C000C, 0x0, 0, 0⟩
def F.RTC_DATE_YEAR : Fld := ⟨0xF00C0010, 0x0, 27, 16⟩
def F.RTC_DATE_MONTH : Fld := ⟨0xF00C0010, 0x0, 11, 8⟩
def F.RTC_DATE_DAY : Fld := ⟨0xF00C0010, 0x0, 4, 0⟩
def F.RTC_TIME_WDAY : Fld := ⟨0xF00C0014, 0x0, 26, 24⟩
def F.RTC_TIME_HOUR : Fld := ⟨0xF00C0014, 0x0, 20, 16⟩
def F.RTC_TIME_MIN : Fld := ⟨0xF00C0014, 0x0, 13, 8⟩
def F.RTC_TIME_SEC : Fld := ⟨0xF00C0014, 0x0, 5, 0⟩
def F.RTC_SUB_VALUE : Fld := ⟨0xF00C0018, 0x0, 23, 0⟩
def F.RTC_CNT_VAL_VALUE : Fld := ⟨0xF00C001C, 0x0, 23, 0⟩
def F.RTC_SET_DATE_YEAR : Fld := ⟨0xF00C0020, 0x0, 27, 16⟩
def F.RTC_SET_DATE_MONTH : Fld := ⟨0xF00C0020, 0x0, 11, 8⟩
def F.RTC_SET_DATE_DAY : Fld := ⟨0xF00C0020, 0x0, 4, 0⟩
def F.RTC_SET_TIME_WDAY : Fld := ⟨0xF00C0024, 0x0, 26, 24⟩
def F.RTC_SET_TIME_HOUR : Fld := ⟨0xF00C0024, 0x0, 20, 16⟩
def F.RTC_SET_TIME_MIN : Fld := ⟨0xF00C0024, 0x0, 13, 8⟩
def F.RTC_SET_TIME_SEC : Fld := ⟨0xF00C0024, 0x0, 5, 0⟩
def F.RTC_SHIFT_PULSES : Fld := ⟨0xF00C0028, 0x0, 15, 0⟩
def F.RTC_CMD_CMD : Fld := ⟨0xF00C002C, 0x0, 3, 0⟩
def F.RTC_ALM_DATE_EN : Fld := ⟨0xF00C0030, 0x0, 31, 31⟩
def F.RTC_ALM_DATE_MASK : Fld := ⟨0xF00C0030, 0x0, 30, 28⟩
def F.RTC_ALM_DATE_YEAR : Fld := ⟨0xF00C0030, 0x0, 27, 16⟩
def F.RTC_ALM_DATE_MONTH : Fld := ⟨0xF00C0030, 0x0, 11, 8⟩
def F.RTC_ALM_DATE_DAY : Fld := ⟨0xF00C0030, 0x0, 4, 0⟩
def F.RTC_ALM_TIME_MASK : Fld := ⟨0xF00C0034, 0x0, 30, 28⟩
def F.RTC_ALM_TIME_HOUR : Fld := ⟨0xF00C0034, 0x0, 20, 16⟩
def F.RTC_ALM_TIME_MIN : Fld := ⟨0xF00C0034, 0x0, 13, 8⟩
def F.RTC_ALM_TIME_SEC : Fld := ⟨0xF00C0034, 0x0, 5, 0⟩
def F.RTC_CNT_LOAD_SECONDS : Fld := ⟨0xF00C0038, 0x0, 23, 0⟩
def F.RTC_MEAS_CFG_AUTO : Fld := ⟨0xF00C003C, 0x0, 18, 18⟩
def F.RTC_MEAS_CFG_REF : Fld := ⟨0xF00C003C, 0x0, 17, 16⟩
def F.RTC_MEAS_CFG_MEAS_S : Fld := ⟨0xF00C003C, 0x0, 15, 0⟩
def F.RTC_MEAS_RES_COUNT : Fld := ⟨0xF00C0040, 0x0, 31, 0⟩
def F.RTC_TRIM_TRIM_N : Fld := ⟨0xF00C0044, 0x0, 31, 16⟩
def F.RTC_TRIM_TRIM_WIN : Fld := ⟨0xF00C0044, 0x0, 15, 0⟩
def F.CAN_CTRL_LOCK : Fld := ⟨0xF00D0000, 0x4000, 8, 8⟩
def F.CAN_CTRL_CLR_CNT : Fld := ⟨0xF00D0000, 0x4000, 2, 2⟩
def F.CAN_CFG_BOFF_FLUSH : Fld := ⟨0xF00D0004, 0x4000, 3, 3⟩
def F.CAN_CFG_XL_EN : Fld := ⟨0xF00D0004, 0x4000, 2, 2⟩
def F.CAN_CFG_FD_EN : Fld := ⟨0xF00D0004, 0x4000, 1, 1⟩
def F.CAN_MODE_WAKE_US : Fld := ⟨0xF00D0008, 0x4000, 15, 8⟩
def F.CAN_MODE_MODE : Fld := ⟨0xF00D0008, 0x4000, 2, 0⟩
def F.CAN_STATUS_STATE : Fld := ⟨0xF00D000C, 0x4000, 31, 28⟩
def F.CAN_STATUS_WAKE_SRC : Fld := ⟨0xF00D000C, 0x4000, 27, 26⟩
def F.CAN_STATUS_TEC : Fld := ⟨0xF00D000C, 0x4000, 25, 16⟩
def F.CAN_STATUS_REC : Fld := ⟨0xF00D000C, 0x4000, 7, 0⟩
def F.CAN_NBT_BRP : Fld := ⟨0xF00D0010, 0x4000, 31, 23⟩
def F.CAN_NBT_TSEG1 : Fld := ⟨0xF00D0010, 0x4000, 22, 14⟩
def F.CAN_NBT_TSEG2 : Fld := ⟨0xF00D0010, 0x4000, 13, 7⟩
def F.CAN_NBT_SJW : Fld := ⟨0xF00D0010, 0x4000, 6, 0⟩
def F.CAN_DBT_BRP : Fld := ⟨0xF00D0014, 0x4000, 31, 23⟩
def F.CAN_DBT_TSEG1 : Fld := ⟨0xF00D0014, 0x4000, 22, 14⟩
def F.CAN_DBT_TSEG2 : Fld := ⟨0xF00D0014, 0x4000, 13, 7⟩
def F.CAN_DBT_SJW : Fld := ⟨0xF00D0014, 0x4000, 6, 0⟩
def F.CAN_XBT_BRP : Fld := ⟨0xF00D0018, 0x4000, 31, 23⟩
def F.CAN_XBT_TSEG1 : Fld := ⟨0xF00D0018, 0x4000, 22, 14⟩
def F.CAN_XBT_TSEG2 : Fld := ⟨0xF00D0018, 0x4000, 13, 7⟩
def F.CAN_XBT_SJW : Fld := ⟨0xF00D0018, 0x4000, 6, 0⟩
def F.CAN_TDC_EN : Fld := ⟨0xF00D001C, 0x4000, 15, 15⟩
def F.CAN_TDC_OFFSET : Fld := ⟨0xF00D001C, 0x4000, 6, 0⟩
def F.CAN_RX_BASE_LO_ADDR : Fld := ⟨0xF00D0020, 0x4000, 31, 0⟩
def F.CAN_RX_BASE_HI_ADDR : Fld := ⟨0xF00D0024, 0x4000, 7, 0⟩
def F.CAN_RX_CFG_LOG2 : Fld := ⟨0xF00D0028, 0x4000, 3, 0⟩
def F.CAN_RX_PUT_INDEX : Fld := ⟨0xF00D002C, 0x4000, 15, 0⟩
def F.CAN_RX_ACK_INDEX : Fld := ⟨0xF00D0030, 0x4000, 15, 0⟩
def F.CAN_TX_BASE_LO_ADDR : Fld := ⟨0xF00D0040, 0x4000, 31, 0⟩
def F.CAN_TX_BASE_HI_ADDR : Fld := ⟨0xF00D0044, 0x4000, 7, 0⟩
def F.CAN_TX_CFG_LOG2 : Fld := ⟨0xF00D0048, 0x4000, 3, 0⟩
def F.CAN_TX_PUT_INDEX : Fld := ⟨0xF00D004C, 0x4000, 15, 0⟩
def F.CAN_TX_DONE_INDEX : Fld := ⟨0xF00D0050, 0x4000, 15, 0⟩
def F.CAN_TX_ACK_INDEX : Fld := ⟨0xF00D0054, 0x4000, 15, 0⟩
def F.CAN_WAKE_ID_ID : Fld := ⟨0xF00D0060, 0x4000, 28, 0⟩
def F.CAN_WAKE_IDM_ID : Fld := ⟨0xF00D0064, 0x4000, 28, 0⟩
def F.CAN_WAKE_CFG_WAKE_EXT : Fld := ⟨0xF00D0068, 0x4000, 4, 4⟩
def F.CAN_WAKE_CFG_WAKE_DLC : Fld := ⟨0xF00D0068, 0x4000, 3, 0⟩
def F.CAN_WAKE_DM_LO_DM : Fld := ⟨0xF00D006C, 0x4000, 31, 0⟩
def F.CAN_WAKE_DM_HI_DM : Fld := ⟨0xF00D0070, 0x4000, 31, 0⟩
def F.CAN_CMD_ABORT : Fld := ⟨0xF00D0074, 0x4000, 1, 1⟩
def F.CAN_CMD_RECOVER : Fld := ⟨0xF00D0074, 0x4000, 0, 0⟩
def F.CAN_EVENTS_CMD_IGN : Fld := ⟨0xF00D0078, 0x4000, 4, 4⟩
def F.CAN_EVENTS_WAKE : Fld := ⟨0xF00D0078, 0x4000, 3, 3⟩
def F.CAN_EVENTS_BUS_OFF : Fld := ⟨0xF00D0078, 0x4000, 2, 2⟩
def F.CAN_EVENTS_PASSIVE : Fld := ⟨0xF00D0078, 0x4000, 1, 1⟩
def F.CAN_EVENTS_RX_OVF : Fld := ⟨0xF00D0078, 0x4000, 0, 0⟩
def F.CAN_CNT_RX_OK_COUNT : Fld := ⟨0xF00D0080, 0x4000, 31, 0⟩
def F.CAN_CNT_TX_OK_COUNT : Fld := ⟨0xF00D0084, 0x4000, 31, 0⟩
def F.CAN_CNT_RX_OVF_COUNT : Fld := ⟨0xF00D0088, 0x4000, 31, 0⟩
def F.CAN_CNT_ERR_COUNT : Fld := ⟨0xF00D008C, 0x4000, 31, 0⟩
def F.CAN_CNT_BOFF_COUNT : Fld := ⟨0xF00D0090, 0x4000, 31, 0⟩
def F.UART_CFG_ENABLE : Fld := ⟨0xF00E0000, 0x400, 31, 31⟩
def F.UART_CFG_MODBUS : Fld := ⟨0xF00E0000, 0x400, 30, 30⟩
def F.UART_CFG_ECHO : Fld := ⟨0xF00E0000, 0x400, 29, 29⟩
def F.UART_CFG_OVS : Fld := ⟨0xF00E0000, 0x400, 28, 28⟩
def F.UART_CFG_DATA8 : Fld := ⟨0xF00E0000, 0x400, 27, 27⟩
def F.UART_CFG_PARITY : Fld := ⟨0xF00E0000, 0x400, 26, 25⟩
def F.UART_CFG_STOP2 : Fld := ⟨0xF00E0000, 0x400, 24, 24⟩
def F.UART_CFG_GAP : Fld := ⟨0xF00E0000, 0x400, 23, 16⟩
def F.UART_CFG_DE_LEAD : Fld := ⟨0xF00E0000, 0x400, 15, 8⟩
def F.UART_CFG_DE_TRAIL : Fld := ⟨0xF00E0000, 0x400, 7, 0⟩
def F.UART_BAUD_DIV_I : Fld := ⟨0xF00E0004, 0x400, 21, 6⟩
def F.UART_BAUD_DIV_F : Fld := ⟨0xF00E0004, 0x400, 5, 0⟩
def F.UART_RX_BASE_LO_ADDR : Fld := ⟨0xF00E0020, 0x400, 31, 0⟩
def F.UART_RX_BASE_HI_ADDR : Fld := ⟨0xF00E0024, 0x400, 7, 0⟩
def F.UART_RX_CFG_LOG2 : Fld := ⟨0xF00E0028, 0x400, 3, 0⟩
def F.UART_RX_PUT_INDEX : Fld := ⟨0xF00E002C, 0x400, 15, 0⟩
def F.UART_RX_ACK_INDEX : Fld := ⟨0xF00E0030, 0x400, 15, 0⟩
def F.UART_TX_BASE_LO_ADDR : Fld := ⟨0xF00E0040, 0x400, 31, 0⟩
def F.UART_TX_BASE_HI_ADDR : Fld := ⟨0xF00E0044, 0x400, 7, 0⟩
def F.UART_TX_CFG_LOG2 : Fld := ⟨0xF00E0048, 0x400, 3, 0⟩
def F.UART_TX_PUT_INDEX : Fld := ⟨0xF00E004C, 0x400, 15, 0⟩
def F.UART_TX_DONE_INDEX : Fld := ⟨0xF00E0050, 0x400, 15, 0⟩
def F.UART_TX_ACK_INDEX : Fld := ⟨0xF00E0054, 0x400, 15, 0⟩
def F.UART_CMD_ABORT : Fld := ⟨0xF00E0074, 0x400, 0, 0⟩
def F.UART_EVENTS_ECHO_ERR : Fld := ⟨0xF00E0078, 0x400, 3, 3⟩
def F.UART_EVENTS_CRC : Fld := ⟨0xF00E0078, 0x400, 2, 2⟩
def F.UART_EVENTS_LINE : Fld := ⟨0xF00E0078, 0x400, 1, 1⟩
def F.UART_EVENTS_RX_OVF : Fld := ⟨0xF00E0078, 0x400, 0, 0⟩
def F.UART_CNT_RX_OK_COUNT : Fld := ⟨0xF00E0080, 0x400, 31, 0⟩
def F.UART_CNT_TX_OK_COUNT : Fld := ⟨0xF00E0084, 0x400, 31, 0⟩
def F.UART_CNT_RX_OVF_COUNT : Fld := ⟨0xF00E0088, 0x400, 31, 0⟩
def F.UART_CNT_CRC_COUNT : Fld := ⟨0xF00E008C, 0x400, 31, 0⟩
def F.UART_CTRL_LOCK : Fld := ⟨0xF00E1000, 0x0, 8, 8⟩
def F.UART_CTRL_CLR_CNT : Fld := ⟨0xF00E1000, 0x0, 2, 2⟩
def F.FIO_CTRL_LOCK : Fld := ⟨0xF00F0000, 0x0, 8, 8⟩
def F.FIO_STATUS_FAULT : Fld := ⟨0xF00F0004, 0x0, 31, 31⟩
def F.FIO_STATUS_DRIVE : Fld := ⟨0xF00F0004, 0x0, 25, 24⟩
def F.FIO_STATUS_REV1 : Fld := ⟨0xF00F0004, 0x0, 3, 3⟩
def F.FIO_STATUS_REV0 : Fld := ⟨0xF00F0004, 0x0, 2, 2⟩
def F.FIO_STATUS_FSUP1_OK : Fld := ⟨0xF00F0004, 0x0, 1, 1⟩
def F.FIO_STATUS_FSUP0_OK : Fld := ⟨0xF00F0004, 0x0, 0, 0⟩
def F.FIO_EVENTS_AFE_OVR : Fld := ⟨0xF00F0008, 0x0, 2, 2⟩
def F.FIO_EVENTS_FSUP : Fld := ⟨0xF00F0008, 0x0, 1, 1⟩
def F.FIO_EVENTS_FAULT : Fld := ⟨0xF00F0008, 0x0, 0, 0⟩
def F.FIO_DI_VALUE : Fld := ⟨0xF00F000C, 0x0, 31, 0⟩
def F.FIO_RB_VALUE : Fld := ⟨0xF00F0010, 0x0, 15, 0⟩
def F.FIO_DO_VALUE : Fld := ⟨0xF00F0014, 0x0, 15, 0⟩
def F.FIO_SAFE_VALUE : Fld := ⟨0xF00F0018, 0x0, 15, 0⟩
def F.FIO_OLD_EN_VALUE : Fld := ⟨0xF00F001C, 0x0, 15, 0⟩
def F.FIO_VFSUP_MV : Fld := ⟨0xF00F0020, 0x4, 31, 0⟩
def F.FIO_FILT_FILT : Fld := ⟨0xF00F0040, 0x4, 31, 0⟩
def F.FIO_CNT_VALUE : Fld := ⟨0xF00F0100, 0x4, 31, 0⟩
def F.FIO_CNT_OFS_VALUE : Fld := ⟨0xF00F0180, 0x4, 31, 0⟩
def F.FIO_AFE_OVR_OVR : Fld := ⟨0xF00F0200, 0x0, 11, 0⟩
def F.FIO_AFE_SMP_SAMPLE : Fld := ⟨0xF00F0240, 0x4, 31, 0⟩
def F.SEC_CTRL_LOCK : Fld := ⟨0xF0110000, 0x0, 8, 8⟩
def F.SEC_CTRL_CLR_CNT : Fld := ⟨0xF0110000, 0x0, 2, 2⟩
def F.SEC_STATUS_LIFECYCLE : Fld := ⟨0xF0110004, 0x0, 31, 28⟩
def F.SEC_STATUS_RT_SLOT : Fld := ⟨0xF0110004, 0x0, 27, 26⟩
def F.SEC_STATUS_UPD_BUSY : Fld := ⟨0xF0110004, 0x0, 19, 19⟩
def F.SEC_STATUS_KS_READY : Fld := ⟨0xF0110004, 0x0, 18, 18⟩
def F.SEC_STATUS_ID_READY : Fld := ⟨0xF0110004, 0x0, 17, 17⟩
def F.SEC_STATUS_OWNER_VALID : Fld := ⟨0xF0110004, 0x0, 15, 8⟩
def F.SEC_STATUS_BOOT_CODE : Fld := ⟨0xF0110004, 0x0, 7, 0⟩
def F.SEC_EVENTS_JOURNAL_REPAIR : Fld := ⟨0xF0110008, 0x0, 4, 4⟩
def F.SEC_EVENTS_IMG_REFUSED : Fld := ⟨0xF0110008, 0x0, 3, 3⟩
def F.SEC_EVENTS_UPD_DONE : Fld := ⟨0xF0110008, 0x0, 2, 2⟩
def F.SEC_EVENTS_UPD_REFUSED : Fld := ⟨0xF0110008, 0x0, 1, 1⟩
def F.SEC_EVENTS_ATTR_DENY : Fld := ⟨0xF0110008, 0x0, 0, 0⟩
def F.SEC_KS_CNT_LO_COUNTER : Fld := ⟨0xF011000C, 0x0, 31, 0⟩
def F.SEC_KS_CNT_HI_COUNTER : Fld := ⟨0xF0110010, 0x0, 31, 0⟩
def F.SEC_UPD_RES_TYPE : Fld := ⟨0xF0110014, 0x0, 15, 8⟩
def F.SEC_UPD_RES_CODE : Fld := ⟨0xF0110014, 0x0, 3, 0⟩
def F.SEC_IMG_RES_KIND : Fld := ⟨0xF0110018, 0x0, 9, 8⟩
def F.SEC_IMG_RES_CODE : Fld := ⟨0xF0110018, 0x0, 3, 0⟩
def F.SEC_CNT_ATTR_DENY_COUNT : Fld := ⟨0xF0110020, 0x0, 31, 0⟩
def F.SEC_CNT_UPD_REFUSED_COUNT : Fld := ⟨0xF0110024, 0x0, 31, 0⟩
def F.SEC_CNT_IMG_REFUSED_COUNT : Fld := ⟨0xF0110028, 0x0, 31, 0⟩
def F.SEC_SLOT_VALID : Fld := ⟨0xF0110100, 0x4, 31, 31⟩
def F.SEC_SLOT_GEN : Fld := ⟨0xF0110100, 0x4, 23, 8⟩
def F.SEC_SLOT_ATTR : Fld := ⟨0xF0110100, 0x4, 4, 0⟩
def F.SEC_ID_HASH_HASH : Fld := ⟨0xF0110200, 0x4, 31, 0⟩
def F.EVR_CTRL_LOCK : Fld := ⟨0xF0120000, 0x0, 8, 8⟩
def F.EVR_CTRL_CLR_CNT : Fld := ⟨0xF0120000, 0x0, 2, 2⟩
def F.EVR_STATUS_FROZEN : Fld := ⟨0xF0120004, 0x0, 31, 31⟩
def F.EVR_STATUS_RESTORING : Fld := ⟨0xF0120004, 0x0, 30, 30⟩
def F.EVR_STATUS_SEAL_NOKEY : Fld := ⟨0xF0120004, 0x0, 29, 29⟩
def F.EVR_STATUS_BUF_LEVEL : Fld := ⟨0xF0120004, 0x0, 8, 0⟩
def F.EVR_CFG_SEAL_EN : Fld := ⟨0xF0120008, 0x0, 0, 0⟩
def F.EVR_EVENTS_STATE_LOST : Fld := ⟨0xF012000C, 0x0, 3, 3⟩
def F.EVR_EVENTS_UNREAD_LOST : Fld := ⟨0xF012000C, 0x0, 2, 2⟩
def F.EVR_EVENTS_BAD_SLOT : Fld := ⟨0xF012000C, 0x0, 1, 1⟩
def F.EVR_EVENTS_DROP : Fld := ⟨0xF012000C, 0x0, 0, 0⟩
def F.EVR_SEQ_NEXT_LO_SEQ : Fld := ⟨0xF0120010, 0x0, 31, 0⟩
def F.EVR_SEQ_NEXT_HI_SEQ : Fld := ⟨0xF0120014, 0x0, 31, 0⟩
def F.EVR_USED_SLOTS : Fld := ⟨0xF0120018, 0x0, 20, 0⟩
def F.EVR_HOST_ACK_LO_SEQ : Fld := ⟨0xF012001C, 0x0, 31, 0⟩
def F.EVR_HOST_ACK_HI_SEQ : Fld := ⟨0xF0120020, 0x0, 31, 0⟩
def F.EVR_CNT_OVERWRITE_COUNT : Fld := ⟨0xF0120024, 0x0, 31, 0⟩
def F.EVR_CNT_UNREAD_COUNT : Fld := ⟨0xF0120028, 0x0, 31, 0⟩
def F.EVR_CNT_STATE_LOST_COUNT : Fld := ⟨0xF012002C, 0x0, 31, 0⟩
def F.EVR_CNT_BAD_SLOT_COUNT : Fld := ⟨0xF0120030, 0x0, 31, 0⟩
def F.EVR_DROP_COUNT : Fld := ⟨0xF0120040, 0x4, 31, 0⟩
def F.EVR_SEEK_LO_SEQ : Fld := ⟨0xF0120080, 0x0, 31, 0⟩
def F.EVR_SEEK_HI_SEQ : Fld := ⟨0xF0120084, 0x0, 31, 0⟩
def F.EVR_SEEK_RES_DONE : Fld := ⟨0xF0120088, 0x0, 31, 31⟩
def F.EVR_SEEK_RES_FOUND : Fld := ⟨0xF0120088, 0x0, 30, 30⟩
def F.EVR_SEEK_RES_SLOT : Fld := ⟨0xF0120088, 0x0, 20, 0⟩
def F.EVR_RD_SEL_SLOT : Fld := ⟨0xF012008C, 0x0, 20, 0⟩
def F.EVR_RD_BUF_DATA : Fld := ⟨0xF0120100, 0x4, 31, 0⟩
def F.QUE_CTRL_CLR_CNT : Fld := ⟨0xF0130000, 0x0, 2, 2⟩
def F.QUE_CORR_TOTAL_COUNT : Fld := ⟨0xF0130004, 0x0, 31, 0⟩
def F.QUE_STAT_CORR : Fld := ⟨0xF0130100, 0x4, 31, 24⟩
def F.QUE_STAT_UNCORR : Fld := ⟨0xF0130100, 0x4, 23, 20⟩
def F.QUE_STAT_PEAK : Fld := ⟨0xF0130100, 0x4, 19, 10⟩
def F.QUE_STAT_LEVEL : Fld := ⟨0xF0130100, 0x4, 9, 0⟩
def F.QUE_STALL_COUNT : Fld := ⟨0xF0130200, 0x4, 31, 0⟩
def F.FUSE_CTRL_LOCK : Fld := ⟨0xF0150000, 0x0, 8, 8⟩
def F.FUSE_STATUS_READ_ERR : Fld := ⟨0xF0150004, 0x0, 31, 31⟩
def F.FUSE_STATUS_BURNING : Fld := ⟨0xF0150004, 0x0, 30, 30⟩
def F.FUSE_RT_CNT_VALUE : Fld := ⟨0xF0150008, 0x0, 8, 0⟩
def F.FUSE_PG_CNT_VALUE : Fld := ⟨0xF015000C, 0x0, 8, 0⟩
def F.FUSE_WORD_VALUE : Fld := ⟨0xF0150100, 0x4, 31, 0⟩

/-- A register pair named _LO and _HI (R7): the address of _LO, the array's stride and count, and how far _HI lies
above _LO. -/
structure RegPair where
  lo : Nat
  stride : Nat
  count : Nat
  delta : Nat
  deriving DecidableEq, Repr

/-- Every pair of the control space. -/
def regPairs : List RegPair := [
  ⟨0xF0000014, 0x0, 1, 4⟩ /- SYS_BUS_ERR_LO -/,
  ⟨0xF0030014, 0x0, 1, 4⟩ /- NSA_HS_LO -/,
  ⟨0xF003001C, 0x0, 1, 4⟩ /- NSA_CYCLE_LO -/,
  ⟨0xF0030024, 0x0, 1, 4⟩ /- NSA_HT_LO -/,
  ⟨0xF0040008, 0x0, 1, 4⟩ /- DPO_DEC_LO -/,
  ⟨0xF006000C, 0x0, 1, 4⟩ /- MTR_LATCH_IDX_LO -/,
  ⟨0xF0060044, 0x0, 1, 4⟩ /- MTR_RD_LO -/,
  ⟨0xF0070014, 0x0, 1, 4⟩ /- SCN_EXCH_AT_LO -/,
  ⟨0xF0070048, 0x0, 1, 4⟩ /- SCN_FORCE_VAL_LO -/,
  ⟨0xF0080030, 0x0, 1, 4⟩ /- RED_MIS_IDX_LO -/,
  ⟨0xF00A0104, 0x40, 8, 4⟩ /- CHK_POLY_LO -/,
  ⟨0xF00A010C, 0x40, 8, 4⟩ /- CHK_INIT_LO -/,
  ⟨0xF00A0114, 0x40, 8, 4⟩ /- CHK_XOR_LO -/,
  ⟨0xF00A011C, 0x40, 8, 4⟩ /- CHK_EXP_LO -/,
  ⟨0xF00A0124, 0x40, 8, 4⟩ /- CHK_SRC_LO -/,
  ⟨0xF00A0134, 0x40, 8, 4⟩ /- CHK_RES_LO -/,
  ⟨0xF00B0018, 0x0, 1, 4⟩ /- TIM_TB_SEC_LO -/,
  ⟨0xF00B0020, 0x0, 1, 4⟩ /- TIM_TB1_RES_LO -/,
  ⟨0xF00B0034, 0x0, 1, 4⟩ /- TIM_TB7_SEC_LO -/,
  ⟨0xF00B0054, 0x20, 2, 4⟩ /- TIM_DOM_GM_LO -/,
  ⟨0xF00B020C, 0x0, 1, 4⟩ /- TIM_TXTS_SEC_LO -/,
  ⟨0xF00D0020, 0x4000, 4, 4⟩ /- CAN_RX_BASE_LO -/,
  ⟨0xF00D0040, 0x4000, 4, 4⟩ /- CAN_TX_BASE_LO -/,
  ⟨0xF00D006C, 0x4000, 4, 4⟩ /- CAN_WAKE_DM_LO -/,
  ⟨0xF00E0020, 0x400, 4, 4⟩ /- UART_RX_BASE_LO -/,
  ⟨0xF00E0040, 0x400, 4, 4⟩ /- UART_TX_BASE_LO -/,
  ⟨0xF011000C, 0x0, 1, 4⟩ /- SEC_KS_CNT_LO -/,
  ⟨0xF0120010, 0x0, 1, 4⟩ /- EVR_SEQ_NEXT_LO -/,
  ⟨0xF012001C, 0x0, 1, 4⟩ /- EVR_HOST_ACK_LO -/,
  ⟨0xF0120080, 0x0, 1, 4⟩ /- EVR_SEEK_LO -/]

end Sys2Proof.Machine
end

