-- ==== Sys2Proof/Machine/State.lean ====
section
/-!
DEFINITION. The state of the block as plain data, its reasons to stop, and the state right after reset.
-/
namespace Sys2Proof.Machine

/-- Why a command stops with a fault. -/
inductive Fault where
  /-- No meaning raises it: every fault the manual describes is an effect on the state. Safe. -/
  | none
  deriving DecidableEq, Repr

/-- Why a command is refused. -/
inductive Refusal where
  /-- A command that has no meaning yet, by its mnemonic; raised by Dispatch only. Safe. -/
  | notModelled (mnemonic : String)
  deriving DecidableEq, Repr

/-- The state of the module. -/
structure State where
  /-- The registers of the control space by address, where they differ from their reset value (R6, R492). -/
  regs : List (Nat × Word)
  /-- The latched high words of register pairs whose low word was read last (R7), by the address of _HI. -/
  hiLatch : List (Nat × Word)
  /-- Bytes of the physical address space outside the control space: MRAM, solver SRAM, DRAM (R485). -/
  mem : Mem
  /-- Instance memory, by scan-mode address (R170). -/
  inst : Mem
  /-- Mailboxes, by scan-mode address (R170, R229). -/
  mbox : Mem
  /-- The input image's latest sample and the output image (R512), by offset. -/
  inImg : Mem
  outImg : Mem
  /-- Bytes that wait to be written while MRAM writes are frozen, by physical address (R464). -/
  journal : List Host.Cell
  cores : Vector Core 6
  tasks : Vector Task 16
  prog : Option Program
  /-- The force table: what has been accepted, and what is in effect (R257, R259). -/
  forces : List (Nat × Force)
  forcesEff : List (Nat × Force)
  /-- Interrupt lines waiting for a system core (R184). -/
  irqs : List Nat
  /-- The runtime executes on the system cores (R477 step 3). -/
  runtimeUp : Bool
  /-- The module is in run state (R478). -/
  runState : Bool
  /-- A memory fault of R256 has been reported to the health score. -/
  memFault : Bool
  /-- The PROT bits as sensed at the latest reset (R419). -/
  prot : Nat
  nsa : Nsa
  dpo : Dpo
  lpe : Lpe
  mtr : Mtr
  ses : Ses
  qhc : Qhc
  /-- The network settings in force, and the inter-domain queues, by index, that are not empty (R325, R332). -/
  net : NetCfg
  que : List (Nat × DomainQueue)
  sec : Sec
  red : Red
  tim : Tim
  evr : Evr
  rtc : Rtc
  ser : Ser
  fio : Fio
  /-- The configuration partition, the two save areas, and an exchange that is pending. -/
  cfg : Settings
  saveA : Option Save
  saveB : Option Save
  exch : Option Exchange
  boot : Boot
  /-- Messages that the module has sent, newest first (the model's own record of its outputs). -/
  sent : List OutMsg
  /-- The number of free values taken so far (assumption 8). -/
  free : Nat
  /-- The commands that wait, first in, first out. -/
  pending : List Instr
  deriving DecidableEq, Repr

/-- All general and binary64 registers zero (R165). -/
def RegCtx.zero : RegCtx := { g := Vector.replicate 32 0, d := Vector.replicate 16 0, pc := 0, flg := 0 }

/-- A core at reset: supervisor mode, every register zero (assumption 6). -/
def Core.reset : Core :=
  { ctx := RegCtx.zero, stat := 1, epc := 0, ecause := 0, eaddr := 0, vbase := 0, sstat := 0,
    running := none, waiting := false }

/-- A task that has not run. -/
def Task.reset : Task :=
  { scan := none, image := [], committed := false, pendEmit := false, pendShared := [], pendCalls := [],
    tickets := 0, posts := [], nextInfo := 0, emitted := false, pidx := 0 }

def PtpDom.reset : PtpDom :=
  { masters := [], master := none, held := none, early := none, syncs := [], good := 0, bad := 0, lastSync := 0, syncInt := 0, mpd := 0,
    d21 := 0, dreq := none, lockedSince := 0, lockAdj := 0 }

def Tim.reset : Tim :=
  { tb0 := 0, tb1 := 0, tb2 := 0, tb3 := 0, tb7 := 0, phase := 0, d1 := 0, holdAdj := 0, tick := 0, peer := 0, estimates := [],
    peerRx := 0, domA := PtpDom.reset,
    domB := PtpDom.reset, txts := [], pdelay := [], tc := [] }

/-- The calendar of a backup domain that has never been set (assumption 5). -/
def Rtc.reset : Rtc :=
  { year := 2000, month := 1, day := 1, hour := 0, min := 0, sec := 0, wday := 0, sub := 0, raw := 0, cnt := 0, cmd := none, edge := 0,
    cntPre := 0, measAt := 0, measFrom := 0, crossings := 0, mainsNeg := false, trimDue := none, setAt := none }

def CanCh.reset : CanCh := { seq := 0, lost := false, wakeErr := 0, abortTo := none, modeTo := none, boffAt := 0 }
def UartCh.reset : UartCh := { seq := 0, lost := false, echo := false, abortTo := none, idle := 0 }

def Ser.reset : Ser :=
  { can := Vector.replicate 4 CanCh.reset, uart := Vector.replicate 4 UartCh.reset, canRx := [], canTx := [], polls := [] }

def Fio.reset : Fio :=
  { filt := 0, cnt := [], prevRef := 0, disagree := [], capTick := 0, held := [], seen := false,
    chOff := [], grpOff := [], latch := 0, unbound := false, safe := 0,
    emitted := 0 }

/-- A configuration partition that nothing has written (assumption 5). -/
def Settings.reset : Settings :=
  { rtSlot := 0, progSlot := 0, modelSlot := none, furovEpoch := 0, taiOffset := 37, pwrWarm := true, gates := 0, safe := 0,
    retDir := [], values := [] }

def Boot.reset : Boot :=
  { stage := 0, kind := 1, causes := 1, restart := 2, qualified := false, power := false, hot := false, before := 0,
    runtimeAt := 0, linkAt := none, saveSeq := 0, waitOver := false, network := false, ranProg := false, switching := [],
    dipAt := 0, unit := 0, saveDue := false, dipMin := 0, strap := none, tb1Seen := false, stored := none,
     sysFault := [], pllLate := [], cutOff := false, resetDue := none, ports := [], recovery := [], effect := false,
    runAt := 0 }

def Evr.reset : Evr :=
  { buf := [], carried := [], index := [], retired := [], sealKey := none, seeking := false, states := [] }

def Nsa.reset : Nsa :=
  { model := none, cycleDesc := none, plyDesc := none, dispDesc := none, pendDesc := [], mask := [], maskIds := [], pendMask := [],
    isolated := [], isoDue := true, committed := none, inForce := none, base := none, plugs := [], factor := none,
    open_ := none, snap := none, prevSnap := none, hyd := none, ply := none, plyDone := none, plyReason := none,
    studies := [], activation := none, instant := none, cycleOpen := none, validating := [] }

def Dpo.reset : Dpo :=
  { forecast := none, pendForecast := none, invalid := false, table := none, next := none, job := none, jobIndex := 0,
    jobFcst := none, jobFree := 0, retried := false, instant := none, ended := none, nextModel := none, due := none, prevPlan := none, late := none,
     plan := none, plyOff := false, dpoOff := false,
    ctrlAt := 0 }

def Lpe.reset : Lpe := { loops := [], groups := [], emitted := [], due := [] }

def Mtr.reset : Mtr :=
  { regs := [], chans := [], eint := [], tint := [], demT := [], demMiss := [], viewT := [], viewMiss := [], viewE := [],
    latch := none, elec := [], therm := [], tables := [], subs := [], pulses := [], stored := false, pend := [],
    clears := [], serial := 0, latching := none, copied := [], cfgChanged := false, restarted := true, slots := [],
    seq := 0, arch := [], since := 0, svLast := [], fwd := [], pacc := [], poff := [] }

def Ses.reset : Ses :=
  { live := [], frozen := [], snap := [], prev := [], early := [], acc := 0, txq := [], sent := [], epochs := [], refusedAt := [],
    txLast := [] }

def Qhc.reset : Qhc :=
  { parts := [], lost := true, lastRx := 0, out := [], nextId := 0, macSlot := [], macKey := [], pcieUp := false, outSeen := false,
    outBox := [], outQ := [], inFull := false, inBox := [], kept := [], evSent := 0 }

def NetCfg.reset : NetCfg :=
  { modV4 := 0, lenV4 := 0, modV6 := 0, lenV6 := 0, svcV4 := 0, svcV6 := 0, gwV4 := 0, gwV6 := 0, hostV4 := 0, hostV6 := 0,
    vlan := [], ampl := [] }

def Sec.reset : Sec :=
  { fuses := [], keys := [], ksA := none, ksB := none, repair := none, imageKey := false, cfgOver := [], owners := [], msg := none, burning := [],
    commits := [], gen := 1, remask := 0, shares := [] }

def Red.reset : Red :=
  { own := [], peer := [], fall := none, lastSwitch := none, peerHolds := false, peerRelease := (0, 0), keeperKey := none,
    keeperOk := false, keeperTest := true, latched := false, holdOver := false, restartDue := none, diagnosing := false, diagFailed := false,
     takeCalled := false, passPass := [], lockedOut := false,
    switchAsked := false, taking := false, announceAt := [], txSeq := 0, rxSeq := 0, unacked := [], laneTx := ⟨0, 0, 0⟩, peerSame := false,
    joining := false,
    rerolls := [], corrected := [], tickDue := false, peerLocked := false, linkDownAt := none, inputDue := [], forceChg := [], forcesAt := [],
    jobFacts := [], jobEnds := [], switchAt := none, tickHeld := none, sentParts := [], mtrSent := false, gotParts := [], furovKey := none }

/-- The machine right after reset (assumption 3). -/
def State.reset : State :=
  { regs := [], hiLatch := [], mem := [], inst := [], mbox := [], inImg := [], outImg := [], journal := [],
    cores := Vector.replicate 6 Core.reset, tasks := Vector.replicate 16 Task.reset, prog := none,
    forces := [], forcesEff := [], irqs := [], runtimeUp := false, runState := false, memFault := false, prot := 0,
    nsa := Nsa.reset, dpo := Dpo.reset, lpe := Lpe.reset, mtr := Mtr.reset, ses := Ses.reset, qhc := Qhc.reset, net := NetCfg.reset,
     que := [], sec := Sec.reset, red := Red.reset,
    tim := Tim.reset, evr := Evr.reset, rtc := Rtc.reset, ser := Ser.reset, fio := Fio.reset, cfg := Settings.reset,
    saveA := none, saveB := none, exch := none, boot := Boot.reset, sent := [], free := 0, pending := [] }

end Sys2Proof.Machine
end

