-- ==== Sys2Proof/Machine/Ops.lean ====
section
/-!
DEFINITION. The named operations over registers, events, time and memory.
-/
namespace Sys2Proof.Machine

/-! ### The register file (R6 to R13, R492) -/

/-- The base of control space and the number of its blocks (R485). -/
def ctlBase : Nat := 0xF0000000
def ctlEnd : Nat := 0xF0160000

/-- The block number of a control-space address (R442). -/
def blockOf (a : Nat) : Nat := (a - ctlBase) / 0x10000

/-- The offset of an address inside its block. -/
def offOf (a : Nat) : Nat := (a - ctlBase) % 0x10000

/-- Whether a register definition has an element at an offset. -/
def RegDef.covers (r : RegDef) (off : Nat) : Bool :=
  if r.stride = 0 then off = r.off
  else r.off ≤ off && (off - r.off) % r.stride = 0 && (off - r.off) / r.stride < r.count

/-- The definition of the register at an address, if one is defined there (R492). -/
def regDefAt (a : Nat) : Option RegDef := (blockRegs (blockOf a)).find? fun r => r.covers (offOf a)

/-- The reset value of a register definition. -/
def RegDef.resetVal (r : RegDef) : Word :=
  BitVec.ofNat 32 (r.fields.foldl (fun v f => v ||| f.reset <<< f.lo) 0)

/-- The reset value of the register at an address; 0 where none is defined (R11). -/
def resetWord (a : Nat) : Word :=
  (regDefAt a).elim 0 RegDef.resetVal

/-- The register at an address. -/
def getReg (s : State) (a : Nat) : Word := amGet resetWord s.regs a

/-- The state with a register set, whatever its type. -/
def setReg (s : State) (a : Nat) (v : Word) : State := { s with regs := amSet resetWord s.regs a v }

/-- The address of element `i` of a named field. -/
def Fld.at (f : Fld) (i : Nat) : Nat := f.addr + f.stride * i

/-- A named field of element `i`. -/
def getFi (s : State) (f : Fld) (i : Nat) : Nat := fieldOf f.hi f.lo (getReg s (f.at i))

/-- A named field. -/
def getF (s : State) (f : Fld) : Nat := getFi s f 0

/-- The state with a named field of element `i` set to the low bits of a value. -/
def setFi (s : State) (f : Fld) (i : Nat) (v : Nat) : State :=
  setReg s (f.at i) (BitVec.ofNat 32 (putBits f.hi f.lo v (getReg s (f.at i)).toNat))

/-- The state with a named field set. -/
def setF (s : State) (f : Fld) (v : Nat) : State := setFi s f 0 v

/-- A one-bit field as a flag. -/
def flag (s : State) (f : Fld) : Bool := getF s f != 0

/-- The width of a field in bits. -/
def Fld.width (f : Fld) : Nat := f.hi + 1 - f.lo

/-- A counter field raised by `n`, wrapping at its width. -/
def bumpBy (s : State) (f : Fld) (i n : Nat) : State := setFi s f i (getFi s f i + n)

/-- A counter field raised by one, wrapping. -/
def bump (s : State) (f : Fld) : State := bumpBy s f 0 1

/-- A counter field raised by `n`, saturating at its width. -/
def bumpSat (s : State) (f : Fld) (i n : Nat) : State :=
  setFi s f i (min (getFi s f i + n) (2 ^ f.width - 1))

/-- A 64-bit quantity in two registers (R7). -/
def get64 (s : State) (lo hi : Nat) : Nat := (getReg s lo).toNat + (getReg s hi).toNat * 2 ^ 32

/-- The state with a 64-bit quantity set. -/
def set64 (s : State) (lo hi v : Nat) : State :=
  setReg (setReg s lo (BitVec.ofNat 32 v)) hi (BitVec.ofNat 32 (v / 2 ^ 32))

/-- A write was discarded under R9, R10, R11 or a register's own rule. -/
def cfgErr (s : State) : State := setF s F.SYS_STATUS_CFG_ERR 1

/-- A bus error at an address (R461, R486): SYS_BUS_ERR is a 40-bit address. -/
def busErr (s : State) (a : Nat) : State :=
  set64 (setF s F.SYS_STATUS_BUS_ERR 1) R.SYS_BUS_ERR_LO R.SYS_BUS_ERR_HI (a % 2 ^ 40)

/-! ### Time (R338 to R340) -/

/-- 2⁻³⁹ ns per ns. -/
def tbUnit : Nat := 2 ^ 39

/-- Whole nanoseconds of a time base. -/
def tbNs (t : Nat) : Nat := t / tbUnit

/-- TB1 as an exact count of ns since the epoch (R339). -/
def nowNs (s : State) : Nat := tbNs s.tim.tb1

/-- The 64-bit view of TB1 (R339). -/
def now64 (s : State) : Nat := nowNs s % 2 ^ 64

/-- The signed difference of two 64-bit times (R340). -/
def tdiff (a b : Nat) : Int := sInt 64 ((a + 2 ^ 64 - b % 2 ^ 64) % 2 ^ 64)

/-! ### Events (R439 to R443) -/

/-- The low word of the cycle number of the latest committed state, 0 when none (R440). -/
def latestCycle (s : State) : Nat := (getReg s R.NSA_CYCLE_LO).toNat

/-- A record submitted to the buffer of the recorder; dropped when 256 wait (R443). -/
def evrSubmit (s : State) (r : EvrRec) : State :=
  if s.evr.buf.length < 256 then
    setF { s with evr := { s.evr with buf := s.evr.buf ++ [r] } } F.EVR_STATUS_BUF_LEVEL (s.evr.buf.length + 1)
  else
    setF (bumpBy s F.EVR_DROP_COUNT r.sev 1) F.EVR_EVENTS_DROP 1

/-- An event of a block, with the task it concerns (255 for none) and its items (R440 to R442). -/
def evTask (s : State) (block event sev task : Nat) (items : List Nat) : State :=
  evrSubmit s { time := now64 s, deferred := flag s F.EVR_STATUS_FROZEN, unsealed := !flag s F.TIM_STATUS_SEALED,
                sev := sev, task := task, block := block, event := event, cycle := latestCycle s,
                items := items.map (· % 2 ^ 64) }

/-- An event that concerns no task. -/
def ev (s : State) (block event sev : Nat) (items : List Nat) : State := evTask s block event sev 255 items

/-- An event that sets bit `lo` of its block's _EVENTS register: EVENT is the bit (R442). -/
def evBit (s : State) (f : Fld) (sev : Nat) (items : List Nat) : State :=
  ev (setF s f 1) (blockOf f.addr) f.lo sev items

/-- As `evBit`, for an event that concerns a task. -/
def evBitTask (s : State) (f : Fld) (sev task : Nat) (items : List Nat) : State :=
  evTask (setF s f 1) (blockOf f.addr) f.lo sev task items

/-- The block numbers of events raised by number (R442). -/
def blkSYS : Nat := 0x00
def blkCLK : Nat := 0x01
def blkPWR : Nat := 0x02
def blkNSA : Nat := 0x03
def blkDPO : Nat := 0x04
def blkLPE : Nat := 0x05
def blkMTR : Nat := 0x06
def blkSCN : Nat := 0x07
def blkRED : Nat := 0x08
def blkSES : Nat := 0x09
def blkTIM : Nat := 0x0B
def blkRTC : Nat := 0x0C
def blkCAN : Nat := 0x0D
def blkFIO : Nat := 0x0F
def blkSEC : Nat := 0x11
def blkEVR : Nat := 0x12
def blkQUE : Nat := 0x13

/-! ### Roles and digests (R271, R289) -/

/-- The role of R271. -/
def roleOf (s : State) : Nat := getF s F.RED_STATUS_ROLE
def roINIT : Nat := 0
def roSINGLE : Nat := 1
def roSYNCING : Nat := 2
def roSTANDBY : Nat := 3
def roACTIVE : Nat := 4
def roSOLO : Nat := 5
def roDEGRADED : Nat := 6
def roLOCKED_OUT : Nat := 7
def roUNSYNCED : Nat := 8

/-- The module is a member of a pair: position A or B (R270). -/
def isPair (s : State) : Bool := getF s F.RED_STATUS_POSITION = 1 || getF s F.RED_STATUS_POSITION = 2

/-- The module holds the token (R272). -/
def holds (s : State) : Bool := flag s F.RED_STATUS_TOKEN_OUT

/-- The module executes scans, loops and jobs: on its own inputs, or in shadow (R271); a take puts it
off until its emission (R277). -/
def executes (s : State) : Bool :=
  !s.red.taking && (roleOf s = roSINGLE || roleOf s = roSTANDBY || roleOf s = roACTIVE || roleOf s = roSOLO)

/-- The parameters of the digest unit (R289). -/
def digestCrc : CrcParams :=
  { width := 64, poly := 0x42F0E1EBA9EA3693, init := 0xFFFFFFFFFFFFFFFF, xorOut := 0xFFFFFFFFFFFFFFFF, refIn := true,
    refOut := true }

/-- A message recorded as sent. -/
def send (s : State) (m : OutMsg) : State := { s with sent := m :: s.sent }

/-! ### Keys (R430) -/

/-- Attribute bits (R430). -/
def atMACSEC : Nat := 0
def atSES : Nat := 1
def atFUROV : Nat := 2
def atSEAL : Nat := 3
def atIMAGE : Nat := 4

/-- A slot that holds a key with an attribute. -/
def keyOf (s : State) (slot attr : Nat) : Option (List Byte) :=
  ((alGet? s.sec.keys slot).filter fun k => k.attr.testBit attr).map KeySlot.key

/-- The first slot that carries an attribute. -/
def slotWith (s : State) (attr : Nat) : Option Nat := (s.sec.keys.find? fun e => e.2.attr.testBit attr).map (·.1)

/-! ### Frames of the Furov link (R282 to R285) -/

/-- EPOCH of the frames that the module sends: bit 31 is its direction (R283). -/
def ownEpoch (s : State) : Nat := s.cfg.furovEpoch + 2 ^ 31 * bNat (getF s F.RED_STATUS_POSITION = 2)

/-- A frame put on the lanes in service, after the idle blocks before it (R282). -/
def putFrame (s : State) (f : FurovFrame) : State :=
  let key := s.red.furovKey.getD []
  let t := s.red.laneTx
  let x := putBlocks (lanesIn (getF s F.RED_LINK_LOCK)) { t with frames := t.frames + 1 }
    (List.replicate (Config.idleBlocks t.frames) idleBlock ++ frameBlocks (frameBytes key f))
  send { s with red := { s.red with laneTx := x.1 } } (.furov f x.2)

/-- A frame sent over the Furov link, while it is up; it waits for its acknowledgement (R283, R285). -/
def furovSend (s : State) (b : FurovBody) : State :=
  if flag s F.RED_STATUS_LINK_UP then
    let f : FurovFrame := { retx := false, epoch := ownEpoch s, seq := s.red.txSeq + 1, body := b }
    putFrame { s with red := { s.red with txSeq := f.seq, unacked := s.red.unacked ++ [(f, 0)] } } f
  else s

/-- A unit of committed work digested and sent to the peer (R289). -/
def digestUnit (s : State) (source task inst : Nat) (bytes : List Byte) : State :=
  if isPair s && (roleOf s = roSTANDBY || roleOf s = roACTIVE) then
    let e : DigestEntry := { source := source, task := task, inst := inst, digest := crcOf digestCrc bytes, at_ := nowNs s }
    furovSend { s with red := { s.red with own := s.red.own ++ [e] } } (.digest e)
  else s

/-! ### Small state helpers -/

/-- The state with one core changed. -/
def modCore (s : State) (c : Fin 6) (f : Core → Core) : State :=
  { s with cores := s.cores.set c.val (f (s.cores[c.val]'c.isLt)) c.isLt }

/-- The state with one task changed. -/
def modTask (s : State) (t : Fin 16) (f : Task → Task) : State :=
  { s with tasks := s.tasks.set t.val (f (s.tasks[t.val]'t.isLt)) t.isLt }

/-- A core of the state. -/
def coreOf (s : State) (c : Fin 6) : Core := s.cores[c.val]'c.isLt

/-- A task of the state. -/
def taskOf (s : State) (t : Fin 16) : Task := s.tasks[t.val]'t.isLt

/-- An interrupt line raised to the system cores; an IDLEW that waits goes on (R184, R207). -/
def raiseIrq (s : State) (line : Nat) : State :=
  { s with irqs := if s.irqs.contains line then s.irqs else s.irqs ++ [line],
           cores := s.cores.map fun k => { k with waiting := false } }

/-- A corrected error noted for the health score (R292). -/
def noteCorrected (s : State) : State := { s with red := { s.red with corrected := s.red.corrected ++ [nowNs s] } }

/-- An effect on every element of a list, in order. -/
def forAll {α : Type} (s : State) (l : List α) (f : State → α → State) : State := l.foldl f s

end Sys2Proof.Machine
end

