-- ==== Sys2Proof/Machine/Phys.lean ====
section
/-!
DEFINITION. The physical address space outside the control space (21 R485 to R488, 03 R57), reads of registers with
the latch of 00 R7, and free values.
-/
namespace Sys2Proof.Machine

/-- The next free value, and the state with the count advanced (assumption 8). -/
def takeFree (s : State) : Nat × State := (Config.freeValue s.free, { s with free := s.free + 1 })

/-! ### Clusters (R83, R86, R462) -/

/-- The clusters in service: those neither faulty nor gated off (R83, R86, R462). -/
def healthyClusters (s : State) : Nat :=
  if flag s F.CLK_GATE_ENG_SOLV then getF s F.CLK_GATE_ENG_CL &&& (255 - getF s F.NSA_CLUSTER_FAULTY) else 0

/-- The clusters that a class of jobs has now, its effective mask: a hydraulic job takes those of its mask from the other
classes, the ply comes before the dispatch job, and a study has what is left (R86). A job keeps the mask that NSA_ALLOC gave
at its start (R88). -/
def laneMask (s : State) (sel : JobSel) : Nat :=
  let mask := fun (j : Option Job) => (j.map (·.mask)).getD 0
  let hyd := mask s.nsa.hyd
  let ply := mask s.nsa.ply
  healthyClusters s &&& (match sel with
    | .hyd => hyd
    | .ply => ply &&& (255 - hyd)
    | .dpo => mask s.dpo.job &&& (255 - (hyd ||| ply))
    | .study => 255 - (hyd ||| ply ||| mask s.dpo.job))

/-- A job without a cluster waits, until a deadline ends its work (R86). -/
def waits (s : State) (sel : JobSel) (j : Job) : Bool := laneMask s sel = 0 && j.stop.isNone && !j.thermSkip

/-- NSA_CLUSTER.BUSY: the clusters of the classes that have a job (R86, R88, assumption 55). -/
def busyClusters (s : State) : Nat :=
  laneMask s .hyd ||| laneMask s .ply ||| laneMask s .dpo ||| (if s.nsa.studies = [] then 0 else laneMask s .study)

/-- The regions of R485; MRAM's reserved partition is apart (R488). -/
inductive Region where
  | rom | mram | mramReserved | solverNsa | solverUser | ctl | dram | none
  deriving DecidableEq, Repr

def mramBase : Nat := 0x40000000
def retainBase : Nat := 0x48000000
def archBase : Nat := 0x4C000000
def logBase : Nat := 0x50000000
def cfgPartBase : Nat := 0x47000000
def userBase : Nat := 0xE1000000
def userSize : Nat := 0x800000

/-- The region of a physical address (R485, R487, R57). -/
def regionOf (a : Nat) : Region :=
  if a < 0x40000 then .rom
  else if 0x40000000 ≤ a && a < 0x60000000 then (if 0x47800000 ≤ a && a < 0x48000000 then .mramReserved else .mram)
  else if 0xE0000000 ≤ a && a < userBase then .solverNsa
  else if userBase ≤ a && a < userBase + userSize then .solverUser
  else if ctlBase ≤ a && a < ctlEnd then .ctl
  else if 0x100000000 ≤ a && a < 0x480000000 then .dram
  else .none

/-! ### The key store as it stands in MRAM (R417, R434, R491) -/

/-- A word of the fuse array. -/
def fuseWord (s : State) (w : Nat) : Nat := amGet (fun _ => 0) s.sec.fuses w

/-- The bytes of a fuse field of `n` words from word `w`. -/
def fuseBytes (s : State) (w n : Nat) : List Byte := (List.range n).flatMap fun i => leBytes 4 (fuseWord s (w + i))

/-- The 48 bytes of each key slot in a copy before encryption (R434). -/
def ksPlain (c : KsCopy) : List Byte :=
  (List.range 64).flatMap fun i => match alGet? c.slots i with
    | some k => leBytes 4 (2 ^ 31 + k.attr % 32) ++ leBytes 4 0 ++ k.key ++ leBytes 8 0
    | none => leBytes 48 0

/-- The stored bytes of a key-store copy, 0 for copy A and 1 for copy B, encrypted and tagged (R434). -/
def ksBytes (s : State) (c : KsCopy) (letter : Nat) : List Byte :=
  let head := leBytes 4 0x514E4B53 ++ leBytes 4 1 ++ leBytes 8 c.counter ++ leBytes 48 0
  let key := kmac256 (fuseBytes s 52 8) (asciiBytes "KEK") 32 (asciiBytes "QN-884 key store")
  let nonce := leBytes 8 c.counter ++ leBytes 4 letter
  head ++ (List.range 3072).map (Config.gcmByte key nonce head (ksPlain c)) ++
    (List.range 16).map (Config.gcmTag key nonce head (ksPlain c))

/-- The part of the configuration partition whose stored bytes the state holds by their meaning: key store, owner key
record, settings and saves (R489). -/
def inCfgPart (a : Nat) : Bool := cfgPartBase ≤ a && a < 0x47500000

/-- The part of the configuration partition that is reserved and reads zero (R489). -/
def inCfgReserved (a : Nat) : Bool := 0x47500000 ≤ a && a < 0x47800000

/-- Whether bytes read at an address are free values (assumption 9). -/
def freeBytes (a : Nat) : Bool := regionOf a = .solverNsa || inCfgPart a

/-- A byte of the solver SRAM that the NSA holds, whose layout is the NSA's own (R57), or of the configuration
partition outside the key store: the value is free (assumption 9). -/
def nsaByte (f a : Nat) : Byte := BitVec.ofNat 8 (Config.freeValue f / 256 ^ (a % 8))

/-- The byte that a supervisor store left at an address of the configuration partition (R201, R489). -/
def cfgCell (s : State) (a : Nat) : Option Byte := alGet? s.sec.cfgOver a

/-- A byte of the configuration partition: what a supervisor store left, that of a key-store copy, or free (R434, R489). -/
def cfgByte (s : State) (f a : Nat) : Byte :=
  let o := a - cfgPartBase
  let copy := if o < 0x1000 then s.sec.ksA else if o < 0x2000 then s.sec.ksB else none
  match cfgCell s a, copy with
  | some b, _ => b
  | none, some c => if o % 0x1000 < 0xC50 then (ksBytes s c (o / 0x1000)).getD (o % 0x1000) 0 else nsaByte f a
  | none, none => nsaByte f a

/-- A key-store copy, 0 for copy A and 1 for copy B, as a check of its tag finds it: none where a supervisor store has changed
a byte of it (R434, R489). -/
def ksCopy (s : State) (letter : Nat) : Option KsCopy :=
  let lo := cfgPartBase + 0x1000 * letter
  (if letter = 0 then s.sec.ksA else s.sec.ksB).filter fun c =>
    (s.sec.cfgOver.filter fun e => lo ≤ e.1 && e.1 < lo + 0xC50).all fun e => (ksBytes s c letter).getD (e.1 - lo) 0 = e.2

/-- A key-store copy written by the module takes the place of what stood in its 4 KiB (R434, R436). -/
def putCopy (s : State) (letter : Nat) (c : Option KsCopy) : State :=
  let lo := cfgPartBase + 0x1000 * letter
  let x := { s.sec with cfgOver := s.sec.cfgOver.filter fun e => e.1 < lo || lo + 0x1000 ≤ e.1 }
  { s with sec := if letter = 0 then { x with ksA := c } else { x with ksB := c } }

/-- The byte that a supervisor write of MRAM has put at an address and that waits for writes to resume: every later read of
that address, on any core, sees it (R205, R206, R488; DEDUCED, log 71). -/
def waitingByte (s : State) (a : Nat) : Option Byte := if regionOf a = .mram then alGet? s.journal a else none

/-- One byte of a region without side effects, as it stands in memory. -/
def storedByte (s : State) (f a : Nat) : Byte :=
  if inCfgPart a then cfgByte s f a
  else if freeBytes a then nsaByte f a
  else if inCfgReserved a then 0
  else match regionOf a with
    | .rom => Config.bootRom a
    | .mramReserved => 0
    | _ => memRead s.mem a

/-- `n` bytes of a region without side effects. -/
def physBytes (s : State) (f a : Nat) : Nat → List Byte
  | 0 => []
  | n + 1 => (waitingByte s a).getD (storedByte s f a) :: physBytes s f (a + 1) n

/-- A byte stored into the configuration partition: the owner key record or a save that it overwrites no longer checks, and
the reserved part keeps its zeros (R426, R465, R489, assumption 9). -/
def cfgStore (s : State) (a : Nat) (b : Byte) : State :=
  let o := a - cfgPartBase
  if inCfgReserved a then s
  else
    let s := { s with sec := { s.sec with cfgOver := alPut s.sec.cfgOver a b } }
    if 0x2000 ≤ o && o < 0x4000 then { s with sec := { s.sec with owners := [] } }
    else if 0x100000 ≤ o && o < 0x300000 then { s with saveA := s.saveA.map fun x => ({ x with valid := false } : Save) }
    else if 0x300000 ≤ o && o < 0x500000 then { s with saveB := s.saveB.map fun x => ({ x with valid := false } : Save) }
    else s

/-- Cells written into MRAM, the configuration partition among it (R487, R489). -/
def mramCells (s : State) (l : List Host.Cell) : State :=
  let inCfg := fun (c : Host.Cell) => inCfgPart c.1 || inCfgReserved c.1
  forAll { s with mem := memPutCells s.mem (l.filter fun c => !inCfg c) } (l.filter inCfg) fun s c => cfgStore s c.1 c.2

/-- Bytes written into MRAM; while writes are frozen they wait (R464, R488). -/
def mramWrite (s : State) (a : Nat) (bs : List Byte) : State :=
  if flag s F.PWR_STATUS_FROZEN then { s with journal := cellsPut s.journal a bs }
  else if inCfgPart a || inCfgReserved a then mramCells s (bs.zipIdx.map fun p => (a + p.2, p.1))
  else { s with mem := memPut s.mem a bs }

/-- The pair whose _LO is at an address, as the address of its _HI (R7). -/
def hiOfLo (a : Nat) : Option Nat :=
  (regPairs.find? fun p => if p.stride = 0 then a = p.lo
    else p.lo ≤ a && (a - p.lo) % p.stride = 0 && (a - p.lo) / p.stride < p.count).map fun p => a + p.delta

/-- A latched word taken: the value and the latch emptied (R7). -/
def takeLatch (s : State) (a : Nat) : Option (Word × State) :=
  (s.hiLatch.find? fun e => e.1 = a).map fun e => (e.2, { s with hiLatch := s.hiLatch.filter fun e => e.1 != a })

/-- A word latched for a _HI register, in place of an earlier one; the list is kept in address order. -/
def putLatch (s : State) (a : Nat) (w : Word) : State :=
  { s with hiLatch := (s.hiLatch.filter fun e => e.1 < a) ++ [(a, w)] ++ (s.hiLatch.filter fun e => a < e.1) }

/-- A read of a register: the value and the state after it (R7, R11). -/
def readReg (s : State) (a : Nat) : Word × State :=
  match hiOfLo a with
  | some h => (getReg s a, putLatch s h (getReg s h))
  | none =>
    match takeLatch s a with
    | some r => r
    | none => (if a = R.NSA_CLUSTER then getReg s a ||| BitVec.ofNat 32 (busyClusters s * 2 ^ 8) else getReg s a, s)

end Sys2Proof.Machine
end

