-- ==== Sys2Proof/Machine/Scan.lean ====
section
/-!
DEFINITION. What every scan rests on: pages and tags of the program, logs, scheduling, exceptions, program errors,
rerolls and faulty cores (07 R173 R176 R182 to R187, 09 R221 R222, 10 R244 R248 to R256).
-/
namespace Sys2Proof.Machine

/-! ### The program's declarations -/

/-- The task with an index below 16. -/
def taskIx (t : Nat) : Fin 16 := Fin.ofNat 16 t

/-- The task record of a task in the running program. -/
def taskRec (s : State) (t : Nat) : Option TaskRec := s.prog.bind fun p => p.tasks.find? fun r => r.task = t

/-- The owner of the page of a scan-mode address: a task, 0xFE for SHARED, none outside the declared pages (R173). -/
def pageOwner (s : State) (a : Nat) : Option Nat :=
  s.prog.bind fun p => (p.pages.find? fun e => e.1 = a / 4096).map (·.2)

/-- The size in bytes of a tag type (R167, R240). -/
def tagSize : Nat → Nat
  | 0 => 1 | 1 => 1 | 2 => 2 | 3 => 2 | 4 => 4 | 5 => 4 | 6 => 8 | 7 => 8
  | 8 => 1 | 9 => 4 | 10 => 8 | 11 => 2 | 12 => 16 | _ => 0

/-- The tag entry of an index (R211). -/
def tagOf (s : State) (i : Nat) : Option TagRec := s.prog.bind fun p => p.tags.find? fun e => e.tag = i

/-- The tag of an image that holds a byte (R177: tags of one image do not overlap). -/
def tagAt (s : State) (out : Bool) (off : Nat) : Option TagRec :=
  s.prog.bind fun p => p.tags.find? fun e => e.out = out && e.off ≤ off && off < e.off + tagSize e.typ

/-! ### Windows of scan mode (R170) -/

def winRet : Nat := 0x04000000
def winNon : Nat := 0x08000000
def winConst : Nat := 0x18000000
def winIn : Nat := 0x19000000
def winOut : Nat := 0x19040000
def winMbox : Nat := 0x1A000000

/-- The windows of R170; a mailbox carries its task. -/
inductive Window where
  | code | retained | nonretained | const | input | output | mailbox (t : Nat)
  deriving DecidableEq, Repr

/-- The window of an address, if any (R170). -/
def windowOf (a : Nat) : Option Window :=
  if a < 0x02000000 then some .code
  else if winRet ≤ a && a < winNon then some .retained
  else if winNon ≤ a && a < winConst then some .nonretained
  else if winConst ≤ a && a < winIn then some .const
  else if winIn ≤ a && a < winOut then some .input
  else if winOut ≤ a && a < 0x19080000 then some .output
  else if winMbox ≤ a && a < winMbox + 0x100000 then some (.mailbox ((a - winMbox) / 0x10000))
  else none

/-- Whether `n` bytes from an address lie in the extent that the program declares (R170). -/
def inExtent (s : State) (a n : Nat) : Bool :=
  match s.prog with
  | none => false
  | some p =>
    match windowOf a with
    | some .code => a + n ≤ p.codeLen
    | some .retained => a + n ≤ winRet + p.retLen
    | some .nonretained => a + n ≤ winNon + p.nonretLen
    | some .const => a + n ≤ winConst + p.constLen
    | some _ => true
    | none => false

/-! ### Logs (R176, R221, R222) -/

/-- The 64-byte line of an address. -/
def lineOf (a : Nat) : Nat := a / 64

/-- Instance memory and mailboxes with lines put back, newest first (R186, R222). -/
def restoreLines (s : State) : List UndoEntry → State
  | [] => s
  | e :: es =>
    let a := e.line * 64
    let s := if a < winConst then { s with inst := memPut s.inst a e.old } else { s with mbox := memPut s.mbox a e.old }
    restoreLines s es

/-- The state with a task's scan replaced. -/
def setScan (s : State) (t : Nat) (sc : Option Scan) : State := modTask s (taskIx t) fun k => { k with scan := sc }

/-- The scan of a task, when one is in progress. -/
def scanOf (s : State) (t : Nat) : Option Scan := (taskOf s (taskIx t)).scan

/-! ### Scheduling (R244) -/

/-- SCN_TASK_STAT.STATE values (R269). -/
def tsIdle : Nat := 1
def tsReady : Nat := 2
def tsRunning : Nat := 3
def tsPreempted : Nat := 4
def tsLate : Nat := 5
def tsHalted : Nat := 6

/-- The core a task runs on now. -/
def taskCore (s : State) (t : Nat) : Nat := getFi s F.SCN_TASK_CFG_CORE t

/-- The priority of a task. -/
def taskPrio (s : State) (t : Nat) : Nat := getFi s F.SCN_TASK_CFG_PRIO t

/-- The tasks with a scan in progress on a core. -/
def contenders (s : State) (c : Nat) : List Nat :=
  (List.range 16).filter fun t => (scanOf s t).isSome && taskCore s t = c && getFi s F.SCN_TASK_STAT_STATE t != tsHalted

/-- The contender of highest priority: the lowest PRIO value. -/
def bestTask (s : State) (c : Nat) : Option Nat :=
  (contenders s c).foldl (fun b t => match b with
    | none => some t
    | some u => if taskPrio s t < taskPrio s u then some t else some u) none

/-- The running scan of a core saved to its save area, preempted (R244). -/
def saveRunning (s : State) (c : Fin 6) : State :=
  match (coreOf s c).running with
  | none => s
  | some t =>
    let s := modTask s (taskIx t) fun k =>
      { k with scan := k.scan.map fun sc => { sc with saved := (coreOf s c).ctx } }
    let s := if getFi s F.SCN_TASK_STAT_STATE t = tsRunning then setFi s F.SCN_TASK_STAT_STATE t tsPreempted else s
    modCore s c fun k => { k with running := none }

/-- A core takes up a scan where it stopped or starts (R244). -/
def resumeScan (s : State) (c : Fin 6) (t : Nat) : State :=
  match scanOf s t with
  | none => s
  | some sc =>
    let s := setScan s t (some { sc with begun := true })
    let s := setFi s F.SCN_TASK_STAT_STATE t (if sc.late > 0 then tsLate else tsRunning)
    modCore s c fun k => { k with ctx := sc.saved, running := some t, stat := k.stat &&& 0xFFFFFFFE#32 }

/-- A scan core runs its contender of highest priority (R244); a faulty core runs nothing (R255). -/
def schedule (s : State) (c : Fin 6) : State :=
  if c.val ≥ 4 || (getF s F.SCN_STATUS_CORE_FAULTY).testBit c.val then s
  else
    match (coreOf s c).running, bestTask s c.val with
    | _, none => s
    | none, some t => resumeScan s c t
    | some u, some t =>
      if t = u then s else resumeScan (bump (saveRunning s c) F.SCN_CNT_PREEMPT_COUNT) c t

/-- A task's scan ends: its core, if it held one, is free for the next contender. -/
def endScan (s : State) (t : Nat) : State :=
  let c : Fin 6 := Fin.ofNat 6 (taskCore s t)
  let s := setScan s t none
  let s := if (coreOf s c).running = some t then modCore s c fun k => { k with running := none } else s
  schedule s c

/-! ### Exceptions (R182 to R185, R513) -/

/-- An exception: CODE, DETAIL and the EADDR that R513 gives. -/
structure Exc where
  code : Nat
  detail : Nat
  eaddr : Dword
  /-- The access also ended in a bus error (R461, R486). -/
  bus : Bool
  deriving DecidableEq, Repr

def excILLEGAL (word : Word) : Exc := ⟨0x01, 0, word.zeroExtend 64, false⟩
def excPRIV (num : Nat) (word : Word) : Exc := ⟨0x02, num, word.zeroExtend 64, false⟩
def excALIGN (size : Nat) (a : Dword) : Exc := ⟨0x03, size, a, false⟩
def excACCESS (detail : Nat) (a : Dword) : Exc := ⟨0x04, detail, a, false⟩
/-- A bus error met by a core: ACCESS with DETAIL 1 (R461). -/
def excBUS (a : Dword) : Exc := ⟨0x04, 1, a, true⟩
def excTAG (detail : Nat) (a : Dword) : Exc := ⟨0x05, detail, a, false⟩
def excENGINE (detail : Nat) (a : Dword) : Exc := ⟨0x06, detail, a, false⟩
def excLIMIT (detail : Nat) (a : Dword) : Exc := ⟨0x07, detail, a, false⟩
def excBREAK (num : Nat) : Exc := ⟨0x08, num, 0, false⟩
def excWDOG : Exc := ⟨0x13, 0, 0, false⟩
def excIRQ (line : Nat) : Exc := ⟨0x20, line, 0, false⟩

/-- The hardware-fault class (R184). -/
def Exc.hw (e : Exc) : Bool := 0x10 ≤ e.code && e.code ≤ 0x13

/-- ECAUSE of an exception (R166). -/
def Exc.cause (e : Exc) : Word := BitVec.ofNat 32 (bNat e.hw * 2 ^ 31 + (e.detail % 256) * 256 + e.code % 256)

/-- Entry to an exception: EPC, ECAUSE, EADDR and SSTAT saved, supervisor mode, PC at the vector (R182, R184). -/
def enterExc (s : State) (c : Fin 6) (e : Exc) : State :=
  modCore s c fun k =>
    { k with epc := k.ctx.pc, ecause := e.cause, eaddr := e.eaddr, sstat := k.stat,
             stat := k.stat ||| 1#32, waiting := false,
             ctx := { k.ctx with pc := k.vbase + BitVec.ofNat 64 (0x40 * e.code) } }

/-! ### Ends of a scan other than SCANEND -/

/-- A task becomes halted (R252). -/
def haltTask (s : State) (t : Nat) : State :=
  let s := setFi s F.SCN_TASK_STAT_STATE t tsHalted
  let s := setF s F.SCN_STATUS_HALTED_ANY 1
  evBitTask s F.SCN_EVENTS_HALT 6 t []

/-- The scan of a task is undone whole: lines restored, buffer and calls discarded with it (R186 steps 1 to 3). -/
def undoScan (s : State) (t : Nat) : State :=
  match scanOf s t with
  | none => s
  | some sc => restoreLines s sc.undo

/-- What follows a program error or an abort: the error policy (R252). -/
def applyPolicy (s : State) (t : Nat) : State :=
  let s := bumpSat s F.SCN_TASK_STAT_ERR_RUN t 1
  if getFi s F.SCN_TASK_CFG_POLICY t = 1 then endScan (haltTask s t) t
  else endScan (setFi s F.SCN_TASK_STAT_STATE t tsIdle) t

/-- A program error ends the scan of a task (R186). -/
def progError (s : State) (t : Nat) (epc : Dword) (e : Exc) : State :=
  let s := undoScan s t
  let s := bump s F.SCN_CNT_PROG_ERR_COUNT
  let s := evBitTask s F.SCN_EVENTS_PROG_ERR 5 t [e.code, e.detail, epc.toNat, e.eaddr.toNat]
  applyPolicy s t

/-- A late scan is aborted (R250). -/
def abortScan (s : State) (t : Nat) : State :=
  let s := undoScan s t
  let s := bump s F.SCN_CNT_PROG_ERR_COUNT
  let s := evBitTask s F.SCN_EVENTS_PROG_ERR 5 t []
  applyPolicy s t

/-- The first healthy core from `c` on in the order c, c + 1, c + 2, c + 3 modulo 4 (R255). -/
def healthyCore (s : State) (c : Nat) : Option Nat :=
  ([0, 1, 2, 3].map fun i => (c + i) % 4).find? fun k => !(getF s F.SCN_STATUS_CORE_FAULTY).testBit k

/-- A core is marked faulty (R255 steps 2 and 4). -/
def markCoreFaulty (s : State) (c : Nat) : State :=
  let s := setFi s F.SCN_CORE_STAT_FAULTY c 1
  let s := setF s F.SCN_STATUS_CORE_FAULTY (getF s F.SCN_STATUS_CORE_FAULTY ||| 2 ^ c)
  let s := evBit s F.SCN_EVENTS_CORE_FAULT 6 [c]
  if (healthyCore s 0).isNone then ev s blkSCN 0x86 7 [] else s

/-- Whether the undo log of a scan holds the line of an address. -/
def undoHolds (sc : Scan) (a : Nat) : Bool := sc.undo.any fun e => e.line = lineOf a

/-- A reroll returns the scan to its latest checkpoint (R222, R253). -/
def reroll (s : State) (c : Fin 6) (t : Nat) (sc : Scan) (e : Exc) : State :=
  let s := restoreLines s (sc.undo.take (sc.undo.length - sc.ckpt.undoMark))
  let sc' := { sc with undo := sc.undo.drop (sc.undo.length - sc.ckpt.undoMark),
                       buf := sc.buf.drop (sc.buf.length - sc.ckpt.bufMark),
                       calls := sc.calls.drop (sc.calls.length - sc.ckpt.callMark),
                       ticket := sc.ckpt.ticket, info := sc.info ||| 1,
                       faulted := some ⟨e.code, e.detail, e.eaddr.toNat⟩ }
  let s := setScan s t (some sc')
  let s := modCore s c fun k => { k with ctx := sc.ckpt.ctx, stat := k.stat &&& 0xFFFFFFFE#32 }
  let s := bump { s with red := { s.red with rerolls := s.red.rerolls ++ [nowNs s] } } F.SCN_CNT_REROLL_COUNT
  let s := bumpSat s F.SCN_CORE_STAT_REROLLS c.val 1
  evBitTask s F.SCN_EVENTS_REROLL 3 t [c.val, e.code, e.detail]

/-- A second fault at one DRAM or MRAM address outside the undo log: a memory fault (R256). -/
def isMemFault (sc : Scan) (e : Exc) : Bool :=
  match sc.faulted with
  | none => false
  | some f => f.code = 0x10 && e.code = 0x10 && (f.detail = 4 || f.detail = 5) && (e.detail = 4 || e.detail = 5)
      && f.addr = e.eaddr.toNat && !undoHolds sc f.addr

/-- A scan aborted by a second hardware fault: it is undone, and counts among program errors and aborts (R255 step 1, R256,
R269). -/
def abortFaulted (s : State) (t : Nat) : State :=
  bump (setF (undoScan s t) F.SCN_EVENTS_PROG_ERR 1) F.SCN_CNT_PROG_ERR_COUNT

/-- A hardware fault in a scan: a reroll, or after a second one a faulty core or a memory fault (R253 to R256). -/
def hwFault (s : State) (c : Fin 6) (t : Nat) (e : Exc) : State :=
  match scanOf s t with
  | none => s
  | some sc =>
    if sc.faulted.isNone then reroll s c t sc e
    else if isMemFault sc e then
      let s := abortFaulted s t
      let s := endScan (haltTask s t) t
      let s := { s with memFault := true }
      evBitTask s F.SCN_EVENTS_MEM_FAULT 7 t [e.eaddr.toNat]
    else
      let s := abortFaulted s t
      let s := markCoreFaulty s c.val
      endScan (setFi s F.SCN_TASK_STAT_STATE t tsIdle) t

/-- A hardware fault of a system core noted: two within one second cause a reset (R468). -/
def noteSysFault (s : State) (c : Nat) : State :=
  if c < 4 then s else { s with boot := { s.boot with sysFault := s.boot.sysFault ++ [(c, tbNs s.tim.tb0)] } }

/-- An exception on a core: entry, and in a scan what R186 or R187 makes of it. -/
def raise (s : State) (c : Fin 6) (e : Exc) : State :=
  let s := if e.bus then busErr s e.eaddr.toNat else s
  let pc := (coreOf s c).ctx.pc
  match (coreOf s c).running with
  | none => enterExc (if e.hw then noteSysFault s c.val else s) c e
  | some t =>
    let s := setFi (enterExc s c e) F.SCN_TASK_STAT_LAST_CODE t e.code
    if e.hw then hwFault s c t e else progError s t pc e

end Sys2Proof.Machine
end

