-- ==== Sys2Proof/Machine/Operands.lean ====
section
/-!
DEFINITION. Issuing an instruction on a core: the formats' words, register reads and writes, the fault it meets, its
exceptions and the fetch of the next one (07 R163 R183 R185 R513, 08 R191 to R194 R204).
-/
namespace Sys2Proof.Machine

/-- What an instruction answers: an exception, or the state and the next PC. -/
abbrev Exe := Except Exc (State × Dword)

/-! ### Instruction words (R192), for the EADDR of ILLEGAL and PRIV (R513) -/

def encA (aux func rs2 rs1 rd op : Nat) : Word :=
  BitVec.ofNat 32 (aux * 2 ^ 26 + func * 2 ^ 21 + rs2 * 2 ^ 16 + rs1 * 2 ^ 11 + rd * 2 ^ 6 + op)
def encI (imm : BitVec 16) (rs1 rd op : Nat) : Word :=
  BitVec.ofNat 32 (imm.toNat * 2 ^ 16 + rs1 * 2 ^ 11 + rd * 2 ^ 6 + op)
def encY (func num rs1 rd : Nat) : Word :=
  BitVec.ofNat 32 (func * 2 ^ 24 + num * 2 ^ 16 + rs1 * 2 ^ 11 + rd * 2 ^ 6 + 0x2D)

/-! ### Registers -/

/-- A general register: g0 reads as zero (R163). -/
def getG (k : RegCtx) (r : Fin 32) : Dword := if r = 0 then 0 else k.g[r.val]'r.isLt

/-- The registers with a general register written: a write to g0 is discarded (R163). -/
def putG (k : RegCtx) (r : Fin 32) (v : Dword) : RegCtx := if r = 0 then k else { k with g := k.g.set r.val v r.isLt }

/-- A binary64 register (R164). -/
def getD (k : RegCtx) (r : Fin 16) : Dword := k.d[r.val]'r.isLt

/-- The registers with a binary64 register written. -/
def putD (k : RegCtx) (r : Fin 16) (v : Dword) : RegCtx := { k with d := k.d.set r.val v r.isLt }

/-- The registers with sticky flags set (R166: FLG). -/
def orFlg (k : RegCtx) (f : Nat) : RegCtx := { k with flg := k.flg ||| BitVec.ofNat 32 f }

/-- The registers of a core. -/
def ctxOf (s : State) (c : Fin 6) : RegCtx := (coreOf s c).ctx

/-- The state with the registers of a core replaced. -/
def setCtx (s : State) (c : Fin 6) (k : RegCtx) : State := modCore s c fun q => { q with ctx := k }

/-- The state with the PC of a core set. -/
def setPc (s : State) (c : Fin 6) (pc : Dword) : State :=
  modCore s c fun q => { q with ctx := { q.ctx with pc := pc } }

/-- Supervisor mode (R182). -/
def isSup (s : State) (c : Fin 6) : Bool := (coreOf s c).stat.getLsbD 0

/-- A core executes instructions: the runtime is up, and the core is a system core, runs a scan, or handles an
exception in supervisor mode; an IDLEW that waits executes nothing (R2, R182, R207). -/
def live (s : State) (c : Fin 6) : Bool :=
  s.runtimeUp && !(coreOf s c).waiting && (c.val ≥ 4 || (coreOf s c).running.isSome || isSup s c)

/-- The task whose scan a core runs in scan mode. -/
def scanTask (s : State) (c : Fin 6) : Option Nat := if isSup s c then none else (coreOf s c).running

/-- DETAIL of an ECC exception (R184). -/
def eccDetail : EccPlace → Nat
  | .registers => 1
  | .cache => 2
  | .sram => 3
  | .dram => 4
  | .mram => 5

/-- DETAIL of a RESIDUE exception (R184). -/
def residueDetail : ResidueUnit → Nat
  | .alu => 1
  | .multiplier => 2
  | .divider => 3
  | .addressGen => 4

/-- The data address `a`, or of the words of 8 bytes that an instruction reads from there on the one in which it meets an
ECC fault (R513). -/
def wordMet (x : Issue) (a : Dword) (bytes : Nat) : Dword :=
  match x.fault with
  | .ecc _ _ w => a + BitVec.ofNat 64 (8 * min w ((bytes - 1) / 8))
  | _ => a

/-- The exception of the fault an instruction meets, if any (R184, R185: before every program error). The address
of an ECC fault is that of the word read: the PC for a fetch, else the data address. -/
def faultExc (s : State) (x : Issue) (ea : Option Dword) : Option Exc :=
  match x.fault with
  | .none => none
  | .corrected => none
  | .ecc d f _ =>
    some ⟨0x10, eccDetail d, if d = .registers then 0 else if f then (ctxOf s x.core).pc else ea.getD (ctxOf s x.core).pc, false⟩
  | .residue d => some ⟨0x11, residueDetail d, 0, false⟩
  | .fpcmp => some ⟨0x12, 0, 0, false⟩

/-- Whether a region answers a supervisor fetch or load of a core: the boot ROM answers the system cores alone (R485,
R486). -/
def supReads (c : Fin 6) (r : Region) : Bool := r != .none && (r != .rom || decide (4 ≤ c.val))

/-- Why the instruction at an address cannot be fetched (R172, R204, R485, R486). -/
def fetchExc (s : State) (c : Fin 6) (pc : Dword) : Option Exc :=
  if isSup s c then
    (if 2 ^ 40 ≤ pc.toNat then some (excACCESS 1 pc)
    else if supReads c (regionOf pc.toNat) then none else some (excBUS pc))
  else match windowOf pc.toNat with
    | none => some (excACCESS 1 pc)
    | some .code => if inExtent s pc.toNat 4 then none else some (excACCESS 3 pc)
    | some _ => some (excACCESS 2 pc)

/-- The next instruction is at `pc`; where it may not be fetched the exception is raised on it (R191, R204). -/
def goTo (s : State) (c : Fin 6) (pc : Dword) : State :=
  let s := setPc s c pc
  match fetchExc s c pc with
  | none => s
  | some e => raise s c e

/-- A corrected error of a scan core is counted (R190). -/
def countCorrected (s : State) (x : Issue) : State :=
  if x.fault = .corrected then
    noteCorrected (if x.core.val < 4 then bumpSat s F.SCN_CORE_STAT_ECC_CORR x.core.val 1 else s)
  else s

/-- An instruction on a core: a core that does not execute does nothing; a fault or an exception is raised with
nothing else changed (R183); otherwise the effect and the next PC. `ea` is the data address, if any. -/
def issue (x : Issue) (s : State) (ea : Option Dword) (f : State → Exe) : Host.Outcome State Fault Refusal :=
  if !live s x.core then .next s
  else match faultExc s x ea with
    | some e => .next (raise s x.core e)
    | none =>
      match f (countCorrected s x) with
      | .error e => .next (raise (countCorrected s x) x.core e)
      | .ok (s', pc) => .next (if (coreOf s' x.core).waiting then setPc s' x.core pc else goTo s' x.core pc)

/-- PC + 4 on a core (R191). -/
def pc4 (s : State) (c : Fin 6) : Dword := (ctxOf s c).pc + 4#64

/-- An instruction whose whole effect is on the registers of its core, going on at PC + 4. -/
def issueRegs (x : Issue) (s : State) (f : RegCtx → RegCtx) : Host.Outcome State Fault Refusal :=
  issue x s none fun s => .ok (setCtx s x.core (f (ctxOf s x.core)), pc4 s x.core)

/-- An instruction that writes one general register and sets flags. -/
def issueG (x : Issue) (s : State) (rd : Fin 32) (f : RegCtx → Dword × Nat) : Host.Outcome State Fault Refusal :=
  issueRegs x s fun k => orFlg (putG k rd (f k).1) (f k).2

/-- An instruction that writes one binary64 register and sets flags. -/
def issueD (x : Issue) (s : State) (fd : Fin 16) (f : RegCtx → Dword × Nat) : Host.Outcome State Fault Refusal :=
  issueRegs x s fun k => orFlg (putD k fd (f k).1) (f k).2

end Sys2Proof.Machine
end

