-- ==== Sys2Proof/Machine/Access.lean ====
section
/-!
DEFINITION. Loads and stores of scan mode: the checks of 07 R170 to R181, the undo log, the scan output buffer, and
what each window answers.
-/
namespace Sys2Proof.Machine

/-! ### Checks -/

/-- What an access wants of an address. -/
inductive Access where
  | load | store | atomic
  deriving DecidableEq, Repr

/-- Whether a window admits an access (R170); an atomic is both a load and a store, and the output image passes here
(R205). -/
def kindOk : Window → Access → Bool
  | .code, _ => false
  | .const, .load => true
  | .const, _ => false
  | .input, .load => true
  | .input, _ => false
  | _, _ => true

/-- The ACCESS case of `n` bytes at an address for task `t`, by the DETAIL order of R205 and R184. -/
def accessExc (s : State) (t : Nat) (k : Access) (ad : Dword) (n : Nat) : Option Exc :=
  let a := ad.toNat
  match windowOf a with
  | none => some (excACCESS 1 ad)
  | some w =>
    if !kindOk w k then some (excACCESS 2 ad)
    else if !inExtent s a n then some (excACCESS 3 ad)
    else match w with
      | .mailbox u => if u = t then none else some (excACCESS 4 ad)
      | .retained | .nonretained =>
        match pageOwner s a with
        | none => some (excACCESS 3 ad)
        | some o =>
          if o = 0xFE then (if k = .atomic then some (excACCESS 5 ad) else none)
          else if o = t then none else some (excACCESS 4 ad)
      | .output => if k = .atomic then some (excACCESS 5 ad) else none
      | _ => none

/-- The ALIGN case (R171), before the ACCESS case (R185). -/
def scanCheck (s : State) (t : Nat) (k : Access) (ad : Dword) (n : Nat) : Option Exc :=
  if ad.toNat % n ≠ 0 then some (excALIGN n ad) else accessExc s t k ad n

/-! ### Loads -/

/-- The byte that a scan's output buffer holds for an address: the newest line that has it. -/
def bufByte : List BufLine → Nat → Option Byte
  | [], _ => none
  | l :: ls, a => match l.cells.find? fun c => c.1 = a with
    | some c => some c.2
    | none => bufByte ls a

/-- One byte of the output image window as a scan of task `t` loads it (R179). -/
def outByte (s : State) (t : Nat) (sc : Scan) (off : Nat) : Byte :=
  match tagAt s true off with
  | none => 0
  | some e =>
    if e.owner = t then
      match bufByte sc.buf (winOut + off) with
      | some b => b
      | none =>
        let k := taskOf s (taskIx t)
        if k.committed then memRead k.image off else memRead s.outImg off
    else memRead sc.frozenOut off

/-- One byte as a scan of task `t` loads it (R173, R174, R178 to R181). -/
def scanByte (s : State) (t : Nat) (sc : Scan) (a : Nat) : Byte :=
  match windowOf a with
  | some .input => memRead sc.frozenIn (a - winIn)
  | some .output => outByte s t sc (a - winOut)
  | some .const => match s.prog with | some p => memRead p.consts (a - winConst) | none => 0
  | some (.mailbox _) => memRead s.mbox a
  | some .retained | some .nonretained =>
    if pageOwner s a = some 0xFE then
      match bufByte sc.buf a with
      | some b => b
      | none => memRead sc.frozenShared a
    else memRead s.inst a
  | _ => 0

/-- `n` bytes as a scan loads them. -/
def scanBytes (s : State) (t : Nat) (sc : Scan) (a : Nat) : Nat → List Byte
  | 0 => []
  | n + 1 => scanByte s t sc a :: scanBytes s t sc (a + 1) n

/-! ### Stores -/

/-- The most lines that either log holds (R176). -/
def logLimit : Nat := 4096

/-- The TAG case of a plain store to the output image (R179, R216). -/
def outTagExc (s : State) (t : Nat) (ad : Dword) (n : Nat) : Option Exc :=
  let off := ad.toNat - winOut
  match tagAt s true off with
  | none => some (excTAG 6 ad)
  | some e =>
    if off + n ≤ e.off + tagSize e.typ then
      if e.owner = t then none
      else if e.owner < 16 then some (excTAG 3 ad)
      else some (excTAG 4 ad)
    else some (excTAG 6 ad)

/-- A store that takes effect at once, logged in the undo log (R176, R221). -/
def storeLogged (s : State) (t : Nat) (sc : Scan) (ad : Dword) (bs : List Byte) : Except Exc State :=
  let a := ad.toNat
  let line := lineOf a
  let since := sc.undo.take (sc.undo.length - sc.ckpt.undoMark)
  let write (s : State) : State :=
    if a < winConst then { s with inst := memPut s.inst a bs } else { s with mbox := memPut s.mbox a bs }
  if since.any fun e => e.line = line then .ok (write s)
  else if sc.undo.length ≥ logLimit then .error (excLIMIT 1 ad)
  else
    let old := memBytes (if a < winConst then s.inst else s.mbox) (line * 64) 64
    .ok (write (setScan s t (some { sc with undo := { line := line, old := old } :: sc.undo })))

/-- The buffer with bytes stored to the first of its lines that covers them. -/
def bufPut : List BufLine → Nat → Nat → List Byte → List BufLine
  | [], _, _, _ => []
  | l :: ls, line, a, bs =>
    if l.line = line then { l with cells := (l.cells.filter fun c => c.1 < a || a + bs.length ≤ c.1) ++
      (bs.zipIdx.map fun p => (a + p.2, p.1)) } :: ls
    else l :: bufPut ls line a bs

/-- A store to the scan output buffer (R174, R176, R179, R221). -/
def storeBuffered (s : State) (t : Nat) (sc : Scan) (ad : Dword) (bs : List Byte) : Except Exc State :=
  let a := ad.toNat
  let line := lineOf a
  let since := sc.buf.take (sc.buf.length - sc.ckpt.bufMark)
  if since.any fun l => l.line = line then
    .ok (setScan s t (some { sc with buf := bufPut sc.buf line a bs }))
  else if sc.buf.length ≥ logLimit then .error (excLIMIT 2 ad)
  else
    .ok (setScan s t (some { sc with buf := bufPut ({ line := line, cells := [] } :: sc.buf) line a bs }))

/-- A checked store of a scan: buffered for the output image and SHARED pages, logged elsewhere. -/
def scanStoreRaw (s : State) (t : Nat) (sc : Scan) (ad : Dword) (bs : List Byte) : Except Exc State :=
  if windowOf ad.toNat = some .output || pageOwner s ad.toNat = some 0xFE && ad.toNat < winConst then
    storeBuffered s t sc ad bs
  else storeLogged s t sc ad bs

/-- A load of `n` bytes by a scan, as a number. -/
def scanLoad (s : State) (t : Nat) (ad : Dword) (n : Nat) : Except Exc Nat :=
  match scanCheck s t .load ad n, scanOf s t with
  | some e, _ => .error e
  | none, some sc => .ok (leNat (scanBytes s t sc ad.toNat n))
  | none, none => .ok 0

/-- A store of `n` bytes by a scan. -/
def scanStore (s : State) (t : Nat) (ad : Dword) (n v : Nat) : Except Exc State :=
  match scanCheck s t .store ad n, scanOf s t with
  | some e, _ => .error e
  | none, some sc =>
    match (if windowOf ad.toNat = some .output then outTagExc s t ad n else none) with
    | some e => .error e
    | none => scanStoreRaw s t sc ad (leBytes n v)
  | none, none => .ok s

end Sys2Proof.Machine
end

