-- ==== Sys2Proof/Machine/Fixed.lean ====
section
/-!
DEFINITION. The fixed-point operations of 03 R63, bit for bit, over exact integers.
Every operation that can clamp answers its value and whether it clamped.
-/
namespace Sys2Proof.Machine

/-- An exact integer quotient rounded to nearest, ties to even; the divisor is positive. -/
def divEven (n : Int) (d : Nat) : Int :=
  let q := n / (d : Int)
  let r := n % (d : Int)
  if 2 * r < d then q
  else if 2 * r = d then (if q % 2 = 0 then q else q + 1)
  else q + 1

/-- `round_even(v, s)` of R63. -/
def roundEven (v : Int) (s : Int) : Int :=
  if s < 0 then v * 2 ^ s.natAbs else divEven v (2 ^ s.toNat)

/-- The largest 32-bit two's-complement value. -/
def max32 : Int := 2147483647
/-- The smallest 32-bit two's-complement value. -/
def min32 : Int := -2147483648

/-- `sat32(v)` of R63: the value, and whether it clamped. -/
def sat32 (v : Int) : Int × Bool :=
  if v > max32 then (max32, true) else if v < min32 then (min32, true) else (v, false)

/-- `wb(v, s)` of R63. -/
def wb (v : Int) (s : Int) : Int × Bool := sat32 (roundEven v s)

/-- `mul32(a, b)` of R63. -/
def mul32 (a b : Int) : Int := a * b

/-- `div32(n, d, s)` of R63. A negative `s` scales the divisor, so that the quotient stays exact. -/
def div32 (n d : Int) (s : Int) : Int × Bool :=
  if d = 0 then
    if n = 0 then (0, false) else if n > 0 then (max32, true) else (min32, true)
  else
    let num := (if d < 0 then -n else n) * (if s < 0 then 1 else 2 ^ s.toNat)
    let den := d.natAbs * (if s < 0 then 2 ^ s.natAbs else 1)
    sat32 (divEven num den)

/-- `divq(n, d)` of R63: a Q8.24 scalar. -/
def divq (n d : Int) : Int × Bool := div32 n d 24

end Sys2Proof.Machine
end

