-- ==== Sys2Proof/Machine/Binary64.lean ====
section
/-!
DEFINITION. The binary64 operations of 07 R169 and 08 R199 R200, by exact integer arithmetic and one rounding.
Every operation answers its result and the FLG bits it sets.
-/
namespace Sys2Proof.Machine

/-- FLG bits (R166). -/
def flgSAT : Nat := 1
def flgDZ : Nat := 2
def flgNV : Nat := 4
def flgDZF : Nat := 8
def flgOF : Nat := 16
def flgUF : Nat := 32
def flgNX : Nat := 64

/-- What a binary64 pattern stands for: `fin s m e` is ±m·2^e. -/
inductive F64 where
  | nan (signalling : Bool)
  | inf (neg : Bool)
  | fin (neg : Bool) (m : Nat) (e : Int)
  deriving DecidableEq, Repr

/-- The quiet NaN of R169. -/
def qNaN : Dword := 0x7FF8000000000000#64

/-- The value of a binary64 pattern. -/
def f64Of (x : Dword) : F64 :=
  let v := x.toNat
  let s := v.testBit 63
  let e := bitsOf 62 52 v
  let f := bitsOf 51 0 v
  if e = 2047 then (if f = 0 then .inf s else .nan (!f.testBit 51))
  else if e = 0 then .fin s f (-1074)
  else .fin s (2 ^ 52 + f) ((e : Int) - 1075)

/-- The pattern of a sign, a biased exponent and a fraction. -/
def f64Pack (s : Bool) (e f : Nat) : Dword := BitVec.ofNat 64 (bNat s * 2 ^ 63 + e * 2 ^ 52 + f)

/-- The infinity of a sign. -/
def f64Inf (s : Bool) : Dword := f64Pack s 2047 0
/-- The zero of a sign. -/
def f64Zero (s : Bool) : Dword := f64Pack s 0 0

/-- A rounded magnitude r·2^q, with r at most 2^53 and q at least −1074, as a pattern. -/
def f64Encode (s : Bool) (r : Nat) (q : Int) : Dword :=
  if r < 2 ^ 52 then f64Pack s 0 r
  else
    let (r, q) := if r = 2 ^ 53 then (2 ^ 52, q + 1) else (r, q)
    f64Pack s (q + 1075).toNat (r - 2 ^ 52)

/-- ±m·2^e rounded to nearest, ties to even (R169). The exact magnitude lies strictly between m and m + 1 units
when `sticky`. -/
def f64Round (s : Bool) (m : Nat) (e : Int) (sticky : Bool) : Dword × Nat :=
  let m2 := 2 * m + bNat sticky
  let e2 := e - 1
  if m2 = 0 then (f64Zero s, 0)
  else
    let len := bitLen m2
    let q := max (e2 + len - 53) (-1074)
    let k := q - e2
    let r := if k ≤ 0 then m2 * 2 ^ k.natAbs else (divEven m2 (2 ^ k.toNat)).toNat
    let inexact := if k ≤ 0 then false else m2 % 2 ^ k.toNat != 0
    let nx := if inexact then flgNX else 0
    if r = 2 ^ 53 && q ≥ 971 || q > 971 then (f64Inf s, flgOF ||| flgNX)
    else
      let tinyBefore : Bool := e2 + len < -1021
      let tinyAfter : Bool := e2 + len < -1021 && !(e2 + len = -1022 &&
        (divEven m2 (2 ^ (len - 53))).toNat = 2 ^ 53 && len > 53)
      let uf := inexact && (tinyAfter || tinyBefore && !Config.tininessAfterRounding)
      (f64Encode s r q, nx ||| (if uf then flgUF else 0))

/-- FLG.NV when either operand is a signalling NaN (R169). -/
def f64SigNV (a b : F64) : Nat :=
  match a, b with
  | .nan true, _ => flgNV
  | _, .nan true => flgNV
  | _, _ => 0

/-- The signed integer of a finite value at exponent `e`, which is at most its own. -/
def f64At (s : Bool) (m : Nat) (em e : Int) : Int :=
  let v : Int := m * 2 ^ (em - e).toNat
  if s then -v else v

/-- FADD. -/
def f64Add (x y : Dword) : Dword × Nat :=
  match f64Of x, f64Of y with
  | .nan a, b => (qNaN, f64SigNV (.nan a) b)
  | a, .nan b => (qNaN, f64SigNV a (.nan b))
  | .inf s, .inf t => if s = t then (f64Inf s, 0) else (qNaN, flgNV)
  | .inf s, .fin .. => (f64Inf s, 0)
  | .fin .., .inf t => (f64Inf t, 0)
  | .fin s m e, .fin t n f =>
    let g := min e f
    let v := f64At s m e g + f64At t n f g
    if v = 0 then (f64Zero (s && t), 0)
    else f64Round (v < 0) v.natAbs g false

/-- The pattern with its sign bit inverted. -/
def f64Flip (x : Dword) : Dword := x ^^^ 0x8000000000000000#64

/-- FSUB: a NaN operand keeps its kind under the flip. -/
def f64Sub (x y : Dword) : Dword × Nat := f64Add x (f64Flip y)

/-- FMUL. -/
def f64Mul (x y : Dword) : Dword × Nat :=
  match f64Of x, f64Of y with
  | .nan a, b => (qNaN, f64SigNV (.nan a) b)
  | a, .nan b => (qNaN, f64SigNV a (.nan b))
  | .inf s, .inf t => (f64Inf (s != t), 0)
  | .inf s, .fin t n _ => if n = 0 then (qNaN, flgNV) else (f64Inf (s != t), 0)
  | .fin s m _, .inf t => if m = 0 then (qNaN, flgNV) else (f64Inf (s != t), 0)
  | .fin s m e, .fin t n f => f64Round (s != t) (m * n) (e + f) false

/-- FDIV. -/
def f64Div (x y : Dword) : Dword × Nat :=
  match f64Of x, f64Of y with
  | .nan a, b => (qNaN, f64SigNV (.nan a) b)
  | a, .nan b => (qNaN, f64SigNV a (.nan b))
  | .inf _, .inf _ => (qNaN, flgNV)
  | .inf s, .fin t _ _ => (f64Inf (s != t), 0)
  | .fin s _ _, .inf t => (f64Zero (s != t), 0)
  | .fin s m e, .fin t n f =>
    if n = 0 then (if m = 0 then (qNaN, flgNV) else (f64Inf (s != t), flgDZF))
    else
      let k := 56 + bitLen n
      f64Round (s != t) ((m <<< k) / n) (e - f - k) ((m <<< k) % n != 0)

/-- The integer square root of `v`, built bit by bit from bit `b` down. -/
def isqrtGo (v : Nat) : Nat → Nat → Nat
  | 0, r => r
  | b + 1, r =>
    let r' := r + 2 ^ b
    isqrtGo v b (if r' * r' ≤ v then r' else r)

/-- The integer square root, rounded down. -/
def isqrt (v : Nat) : Nat := isqrtGo v (bitLen v / 2 + 1) 0

/-- FSQRT. -/
def f64Sqrt (x : Dword) : Dword × Nat :=
  match f64Of x with
  | .nan a => (qNaN, f64SigNV (.nan a) (.inf false))
  | .inf s => if s then (qNaN, flgNV) else (f64Inf false, 0)
  | .fin s m e =>
    if m = 0 then (f64Zero s, 0)
    else if s then (qNaN, flgNV)
    else
      let k : Nat := if (e - 112) % 2 = 0 then 112 else 113
      let v := m <<< k
      let r := isqrt v
      f64Round false r ((e - k) / 2) (r * r != v)

/-- The order of two values that are not NaN, with −0 below +0. -/
def f64Less (x y : Dword) : Bool :=
  match f64Of x, f64Of y with
  | .inf s, .inf t => s && !t
  | .inf s, .fin .. => s
  | .fin .., .inf t => !t
  | .fin s m e, .fin t n f =>
    let g := min e f
    let a := f64At s m e g
    let b := f64At t n f g
    a < b || a = b && s && !t
  | _, _ => false

/-- Whether a pattern is a NaN. -/
def f64IsNaN (x : Dword) : Bool := match f64Of x with | .nan _ => true | _ => false

/-- FMIN and FMAX: minimumNumber and maximumNumber (R200). -/
def f64Pick (wantMax : Bool) (x y : Dword) : Dword × Nat :=
  let nv := f64SigNV (f64Of x) (f64Of y)
  match f64IsNaN x, f64IsNaN y with
  | true, true => (qNaN, nv)
  | true, false => (y, nv)
  | false, true => (x, nv)
  | false, false => (if f64Less x y = wantMax then y else x, nv)

/-- FNEG and FABS (R200). -/
def f64SetSign (f : Dword → Dword) (x : Dword) : Dword × Nat :=
  if f64IsNaN x then (qNaN, f64SigNV (f64Of x) (.inf false)) else (f x, 0)

/-- Equality of two values that are not NaN: −0 and +0 are equal (R200). -/
def f64Same (x y : Dword) : Bool :=
  !(f64Less x y || f64Less y x) || (x.toNat % 2 ^ 63 = 0 && y.toNat % 2 ^ 63 = 0)

/-- FEQ. -/
def f64Eq (x y : Dword) : Dword × Nat :=
  if f64IsNaN x || f64IsNaN y then (0, f64SigNV (f64Of x) (f64Of y))
  else (BitVec.ofNat 64 (bNat (f64Same x y)), 0)

/-- FLT (`orEq` false) and FLE (`orEq` true). -/
def f64Lt (orEq : Bool) (x y : Dword) : Dword × Nat :=
  if f64IsNaN x || f64IsNaN y then (0, flgNV)
  else (BitVec.ofNat 64 (bNat (if f64Same x y then orEq else f64Less x y)), 0)

/-- FCVTDI: a signed 64-bit integer rounded to binary64. -/
def f64OfInt (v : Int) : Dword × Nat := f64Round (v < 0) v.natAbs 0 false

/-- FCVTDQ: a 32-bit mantissa with `n` fraction bits, exactly (R199). -/
def f64OfQ (v : Int) (n : Nat) : Dword := (f64Round (v < 0) v.natAbs (-(n : Int)) false).1

/-- A conversion to an integer of `w` bits after scaling by 2^n: half to even, saturating, NaN to 0 (R169). The
last component says whether the value saturated. -/
def f64ToFix (x : Dword) (n w : Nat) : Int × Nat × Bool :=
  let hi : Int := 2 ^ (w - 1) - 1
  let lo : Int := -2 ^ (w - 1)
  match f64Of x with
  | .nan _ => (0, flgNV, false)
  | .inf s => (if s then lo else hi, flgNV, true)
  | .fin s m e =>
    let k := e + n
    let v : Int := if s then -(m : Int) else m
    let r := roundEven v (-k)
    if r > hi then (hi, flgNV, true)
    else if r < lo then (lo, flgNV, true)
    else (r, if k < 0 && v % 2 ^ k.natAbs != 0 then flgNX else 0, false)

/-- FCVTID. -/
def f64ToInt (x : Dword) : Dword × Nat :=
  let (v, f, _) := f64ToFix x 0 64
  (BitVec.ofInt 64 v, f)

/-- FCVTQD: FLG.SAT too when it saturates. -/
def f64ToQ (x : Dword) (n : Nat) : Dword × Nat :=
  let (v, f, sat) := f64ToFix x n 32
  (BitVec.ofInt 64 v, f ||| (if sat then flgSAT else 0))

end Sys2Proof.Machine
end

