-- ==== Sys2Proof/Machine/Flags.lean ====
section
/-!
DEFINITION. The results of the integer and fixed-point instructions and the FLG bits they set
(07 R168, 08 R195 to R198).
-/
namespace Sys2Proof.Machine

/-! ### Integer results (R195, R196) -/

def boolD (b : Bool) : Dword := if b then 1 else 0

/-- The low six bits of a shift amount (R195). -/
def shAmt (b : Dword) : Nat := b.toNat % 64

def mulHigh (a b : Dword) : Dword := BitVec.ofInt 64 (a.toInt * b.toInt / 2 ^ 64)
def mulHighU (a b : Dword) : Dword := BitVec.ofNat 64 (a.toNat * b.toNat / 2 ^ 64)

/-- DIV: truncated toward zero; by zero 0 and FLG.DZ; −2^63 by −1 wraps (R168, R196). -/
def divS (a b : Dword) : Dword × Nat :=
  if b = 0 then (0, flgDZ) else (BitVec.ofInt 64 (a.toInt.tdiv b.toInt), 0)
/-- DIVU. -/
def divU (a b : Dword) : Dword × Nat := if b = 0 then (0, flgDZ) else (BitVec.ofNat 64 (a.toNat / b.toNat), 0)
/-- REM: the sign of the dividend; by zero the dividend and FLG.DZ. -/
def remS (a b : Dword) : Dword × Nat :=
  if b = 0 then (a, flgDZ) else (BitVec.ofInt 64 (a.toInt.tmod b.toInt), 0)
/-- REMU. -/
def remU (a b : Dword) : Dword × Nat := if b = 0 then (a, flgDZ) else (BitVec.ofNat 64 (a.toNat % b.toNat), 0)

def minS (a b : Dword) : Dword := if a.toInt ≤ b.toInt then a else b
def maxS (a b : Dword) : Dword := if a.toInt ≤ b.toInt then b else a
def minU (a b : Dword) : Dword := if a.toNat ≤ b.toNat then a else b
def maxU (a b : Dword) : Dword := if a.toNat ≤ b.toNat then b else a

/-- The width that SEXT and ZEXT take from AUX (R195). -/
def extWidth (w : Fin 3) : Nat := 8 * 2 ^ w.val

/-! ### Fixed-point results (R168, R198) -/

/-- The 32-bit operand of a fixed-point instruction (R168). -/
def q32 (a : Dword) : Int := sInt 32 a.toNat

/-- A fixed-point result: sign-extended, FLG.SAT when it clamped. -/
def qRes (r : Int × Bool) : Dword × Nat := (BitVec.ofInt 64 r.1, if r.2 then flgSAT else 0)

/-- QDIV: FLG.DZ when the divisor is 0 (R168). -/
def qDiv (a b : Int) (s : Nat) : Dword × Nat :=
  let r := qRes (div32 a b s)
  (r.1, r.2 ||| (if b = 0 then flgDZ else 0))

end Sys2Proof.Machine
end

