-- ==== Sys2Proof/Machine/IrtumSys.lean ====
section
/-!
DEFINITION. System instructions, the interrupt and watchdog exceptions and undefined words
(07 R166 R182 R184, 08 R193 R194 R206 to R208, 10 R254).
-/
namespace Sys2Proof.Machine

/-! ### System registers (R166) -/

/-- The numbers of R166, and which of them scan mode may read. -/
def sysListed (n : Nat) : Bool := n ≤ 6 || 0x10 ≤ n && n ≤ 0x15
def sysScanRead (n : Nat) : Bool := n ≤ 6

/-- The length of a task's period in ns (R237: ticks of 250 µs). -/
def periodNs (s : State) (t : Nat) : Nat := getFi s F.SCN_TASK_CFG_PERIOD t * 250000

/-- A system register of `bits` defined bits that belongs to a scan; without a scan on the core the manual gives these bits
no value, and they are free (assumption 8). Reserved bits read zero (R9). -/
def sysScanReg (s : State) (c : Fin 6) (bits : Nat) (f : Nat → Scan → Nat) : Dword × State :=
  match (coreOf s c).running.bind fun t => (scanOf s t).map fun sc => (t, sc) with
  | some (t, sc) => (BitVec.ofNat 64 (f t sc), s)
  | none => (BitVec.ofNat 64 ((takeFree s).1 % 2 ^ bits), (takeFree s).2)

/-- A read of a system register. CYCLES counts clock cycles, which commands do not carry: its value is free
(assumption 8). -/
def sysRead (s : State) (c : Fin 6) (n : Nat) : Dword × State :=
  let k := coreOf s c
  match n with
  | 0x00 => (k.stat.zeroExtend 64, s)
  | 0x01 => sysScanReg s c 4 fun t _ => t
  | 0x02 => sysScanReg s c 64 fun _ sc => sc.period
  | 0x03 => sysScanReg s c 64 fun _ sc => sc.pstart % 2 ^ 64
  | 0x04 => sysScanReg s c 64 fun t _ => periodNs s t
  | 0x05 => (k.ctx.flg.zeroExtend 64, s)
  | 0x06 => sysScanReg s c 4 fun _ sc => sc.info
  | 0x10 => (k.epc, s)
  | 0x11 => (k.ecause.zeroExtend 64, s)
  | 0x12 => (k.eaddr, s)
  | 0x13 => (k.vbase, s)
  | 0x14 => (k.sstat.zeroExtend 64, s)
  | _ => (BitVec.ofNat 64 (takeFree s).1, (takeFree s).2)

/-- A 32-bit system register written under R9: a one in a reserved bit discards the write whole. -/
def sysWrite32 (s : State) (c : Fin 6) (v : Dword) (mask : Nat) (f : Core → Word → Core) : State :=
  let w := v.toNat % 2 ^ 32
  if w &&& (0xFFFFFFFF - mask) != 0 then cfgErr s else modCore s c fun k => f k (BitVec.ofNat 32 w)

/-- A write of a system register that the mode allows (R208): read-only ones are ignored. -/
def sysWrite (s : State) (c : Fin 6) (n : Nat) (v : Dword) : State :=
  match n with
  | 0x00 => sysWrite32 s c v 1 fun k w => { k with stat := w }
  | 0x05 => sysWrite32 s c v 0x7F fun k w => { k with ctx := { k.ctx with flg := w } }
  | 0x10 => modCore s c fun k => { k with epc := v }
  | 0x11 => sysWrite32 s c v 0x8000FFFF fun k w => { k with ecause := w }
  | 0x12 => modCore s c fun k => { k with eaddr := v }
  | 0x13 => if v.toNat % 4096 ≠ 0 then cfgErr s else modCore s c fun k => { k with vbase := v }
  | 0x14 => sysWrite32 s c v 1 fun k w => { k with sstat := w }
  | _ => s

/-- MFSR: g[RD] takes a system register; ILLEGAL for an unlisted number, PRIV where scan mode may not (R207). -/
def execMfsr (x : Issue) (rd : Fin 32) (num : BitVec 8) (s : State) : Host.Outcome State Fault Refusal :=
  issue x s none fun s =>
    let w := encY 0 num.toNat 0 rd.val
    if !sysListed num.toNat then .error (excILLEGAL w)
    else if !isSup s x.core && !sysScanRead num.toNat then .error (excPRIV num.toNat w)
    else
      let r := sysRead s x.core num.toNat
      .ok (setCtx r.2 x.core (putG (ctxOf r.2 x.core) rd r.1), pc4 s x.core)

/-- MTSR: a system register takes g[RS1]; in scan mode only FLG (R207, R208). -/
def execMtsr (x : Issue) (num : BitVec 8) (ra : Fin 32) (s : State) : Host.Outcome State Fault Refusal :=
  issue x s none fun s =>
    let w := encY 1 num.toNat ra.val 0
    if !sysListed num.toNat then .error (excILLEGAL w)
    else if !isSup s x.core && num.toNat ≠ 5 then .error (excPRIV num.toNat w)
    else .ok (sysWrite s x.core num.toNat (getG (ctxOf s x.core) ra), pc4 s x.core)

/-- BREAK: raises BREAK with its immediate as DETAIL (R207). -/
def execBrk (x : Issue) (num : BitVec 8) (s : State) : Host.Outcome State Fault Refusal :=
  issue x s none fun _ => .error (excBREAK num.toNat)

/-- FENCE: in one core that runs its instructions in order it only goes on (R206). -/
def execFence (x : Issue) (s : State) : Host.Outcome State Fault Refusal :=
  issue x s none fun s => .ok (s, pc4 s x.core)

/-- EXRET: STAT takes SSTAT and PC takes g[RS1]; PRIV in scan mode (R207). -/
def execExret (x : Issue) (ra : Fin 32) (s : State) : Host.Outcome State Fault Refusal :=
  issue x s none fun s =>
    if !isSup s x.core then .error (excPRIV 0 (encY 4 0 ra.val 0))
    else .ok (modCore s x.core fun k => { k with stat := k.sstat }, getG (ctxOf s x.core) ra)

/-- IDLEW: on a system core it waits until an interrupt is pending; on a scan core ILLEGAL (R207). -/
def execIdlew (x : Issue) (s : State) : Host.Outcome State Fault Refusal :=
  issue x s none fun s =>
    if x.core.val < 4 then .error (excILLEGAL (encY 5 0 0 0))
    else if s.irqs = [] then .ok (modCore s x.core fun k => { k with waiting := true }, pc4 s x.core)
    else .ok (s, pc4 s x.core)

/-- IRQ_ENTRY: a system core takes a pending interrupt line (R184). -/
def execIrqEntry (core : Fin 6) (line : BitVec 8) (s : State) : Host.Outcome State Fault Refusal :=
  if s.runtimeUp && core.val ≥ 4 && s.irqs.contains line.toNat then
    .next (raise { s with irqs := s.irqs.filter (· != line.toNat) } core (excIRQ line.toNat))
  else .next s

/-- WDOG_EXPIRY: the watchdog of a scan core that runs a scan (R254). -/
def execWdogExpiry (core : Fin 4) (s : State) : Host.Outcome State Fault Refusal :=
  let c : Fin 6 := ⟨core.val, by omega⟩
  match scanTask s c with
  | some _ => .next (raise s c excWDOG)
  | none => .next s

/-! ### Definedness of a word (R193, R194, R195 to R207, R210, R231, R235) -/

/-- The functions of ECALL (R231). -/
def ecallDefined (engine fn : Nat) : Bool :=
  (engine = 0 && fn ≤ 4) || (engine = 2 && fn ≤ 2) || (engine = 3 && fn = 0) || (engine = 4 && fn = 0) ||
  (engine = 5 && fn ≤ 1)

/-- The largest selector of each EREAD view (R235). -/
def ereadMaxSel : Nat → Option Nat
  | 0 => some 3 | 1 => some 3 | 2 => some 0 | 3 => some 0 | 4 => some 7 | 5 => some 0 | 6 => some 2
  | 7 => some 1 | 8 => some 1 | 9 => some 0 | _ => none

/-- Whether an EREAD view has a selector (R235). -/
def selDefined (view : Nat) (sel : BitVec 6) : Bool := (ereadMaxSel view).any fun m => sel.toNat ≤ m

/-- Whether a decoded instruction is defined for a mode and a core: MFSR and MTSR name a listed register, IDLEW is on a
system core (R207), no control instruction is in supervisor mode (R210), and ECALL and EREAD name a function and a
selector of R231 and R235. -/
def irtumAllowed (sup sysCore : Bool) : Instr → Bool
  | .mfsr _ _ num => sysListed num.toNat
  | .mtsr _ num _ => sysListed num.toNat
  | .idlew _ => sysCore
  | .ldt .. | .ldtf .. | .tfst .. | .stt .. | .tmrTon .. | .tmrTof .. | .tmrTp .. | .edgeRise .. | .edgeFall ..
  | .edgeAny .. | .ckpt _ | .scanend .. => !sup
  | .ecall _ _ _ _ engine fn => !sup && ecallDefined engine.val fn.val
  | .ereadNode _ _ _ sel => !sup && selDefined 0 sel
  | .ereadBranch _ _ _ sel => !sup && selDefined 1 sel
  | .ereadNodeix _ _ _ sel => !sup && selDefined 2 sel
  | .ereadBranchix _ _ _ sel => !sup && selDefined 3 sel
  | .ereadState _ _ _ sel => !sup && selDefined 4 sel
  | .ereadDec _ _ _ sel => !sup && selDefined 5 sel
  | .ereadDemand _ _ _ sel => !sup && selDefined 6 sel
  | .ereadLoop _ _ _ sel => !sup && selDefined 7 sel
  | .ereadGroup _ _ _ sel => !sup && selDefined 8 sel
  | .ereadExp _ _ _ sel => !sup && selDefined 9 sel
  | _ => true

/-- Whether a word is a defined instruction for a mode and a core (R193, R194, R207, R210). -/
def wordDefined (sup sysCore : Bool) (w : Word) : Bool :=
  match decodeIrtum ⟨0, .none⟩ 0 w with
  | some i => irtumAllowed sup sysCore i
  | none => false

/-- UNDEFINED_INSTRUCTION: a word with no definition raises ILLEGAL (R193, R194); a defined word is no such event. -/
def execUndefinedInstruction (x : Issue) (word : BitVec 32) (s : State) : Host.Outcome State Fault Refusal :=
  if wordDefined (isSup s x.core) (x.core.val ≥ 4) word then .next s
  else issue x s none fun _ => .error (excILLEGAL word)

end Sys2Proof.Machine
end

