-- ==== Sys2Proof/Machine/IrtumCtl.lean ====
section
/-!
DEFINITION. The control instructions (09): tags, timers, edge detectors, engine calls, engine reads, checkpoints and
the end of a scan.
-/
namespace Sys2Proof.Machine

/-- A control instruction: ILLEGAL in supervisor mode (R210), else its effect in the scan that the core runs. -/
def ctlInstr (x : Issue) (s : State) (word : Word) (ea : Option Dword) (f : State → Nat → Scan → Exe) :
    Host.Outcome State Fault Refusal :=
  issue x s ea fun s =>
    match scanTask s x.core with
    | none => .error (excILLEGAL word)
    | some t =>
      match scanOf s t with
      | none => .error (excILLEGAL word)
      | some sc => f s t sc

/-! ### Tags (R211 to R216) -/

/-- The tag index of a tag instruction (R211). -/
def tagIndex (s : State) (c : Fin 6) (ra : Fin 32) (imm : BitVec 16) : Dword :=
  getG (ctxOf s c) ra + imm.zeroExtend 64

/-- The declared tag of an index, or TAG with DETAIL 1 (R211). -/
def tagNamed (s : State) (ix : Dword) : Except Exc TagRec :=
  if ix.toNat > 0xFFFE then .error (excTAG 1 ix)
  else match tagOf s ix.toNat with
    | some e => .ok e
    | none => .error (excTAG 1 ix)

/-- The address of a tag's bytes in the image windows (R178). -/
def tagAddr (e : TagRec) : Nat := (if e.out then winOut else winIn) + e.off

/-- The address that LDT and LDTF read: that of the named tag's bytes (R513, the row ECC). -/
def tagEa (x : Issue) (s : State) (c : Fin 6) (ra : Fin 32) (imm : BitVec 16) : Option Dword :=
  match tagNamed s (tagIndex s c ra imm) with
  | .ok e => some (wordMet x (BitVec.ofNat 64 (tagAddr e)) (tagSize e.typ))
  | .error _ => none

/-- The mailbox address that ECALL reads from: the base of the task's mailbox plus g[RS1], or the word of the body that an
ECC fault is met in (R224, R513). -/
def bodyEa (x : Issue) (s : State) (c : Fin 6) (ra rb : Fin 32) : Option Dword :=
  (scanTask s c).map fun t =>
    wordMet x (BitVec.ofNat 64 (winMbox + 0x10000 * t) + getG (ctxOf s c) ra) (getG (ctxOf s c) rb).toNat

/-- The raw bytes of a tag as a scan sees them (R178, R179). -/
def tagBytes (s : State) (t : Nat) (sc : Scan) (e : TagRec) : List Byte :=
  scanBytes s t sc (tagAddr e) (tagSize e.typ)

/-- A raw tag value as LDT writes it (R212). -/
def tagConv (typ raw : Nat) : Dword :=
  match typ with
  | 1 => sext64 8 raw
  | 3 => sext64 16 raw
  | 5 => sext64 32 raw
  | 9 => sext64 32 raw
  | 8 => boolD (raw % 256 != 0)
  | _ => zext64 (8 * tagSize typ) raw

/-- The enabled force on a kind and target in a force state (R257). -/
def forceOn (fs : List (Nat × Force)) (kind target : Nat) : Option Force :=
  (fs.find? fun e => e.2.enable && e.2.kind = kind && e.2.target = target).map (·.2)

/-- The physical output channels from 0x100 up with their tags and widths, in the order of the I/O map (R242). -/
def frameChannels (p : Program) : List (Nat × Nat × Nat) :=
  let fs := p.iomap.flatMap fun r => match r with
    | .canTx r => r.fields
    | .mbPoll r => r.fields.filter (·.isReq)
    | _ => []
  fs.zipIdx.map fun f => (0x100 + f.2, f.1.tag, f.1.width)

/-- The channels that an output tag drives (R214). -/
def drivenBy (p : Program) (tag : Nat) : List Nat :=
  (p.iomap.filterMap fun r => match r with | .dout g ch => if g = tag then some ch else none | _ => none) ++
  ((frameChannels p).filter fun e => e.2.1 = tag).map (·.1)

/-- LDT: the value of a tag (R212). -/
def execLdt (x : Issue) (rd ra : Fin 32) (imm : BitVec 16) (s : State) : Host.Outcome State Fault Refusal :=
  ctlInstr x s (encI imm ra.val rd.val 0x30) (tagEa x s x.core ra imm) fun s t sc => do
    let e ← tagNamed s (tagIndex s x.core ra imm)
    if e.typ = 12 then throw (excTAG 5 (tagIndex s x.core ra imm))
    return (setCtx s x.core (putG (ctxOf s x.core) rd (tagConv e.typ (leNat (tagBytes s t sc e)))), pc4 s x.core)

/-- LDTF: an input tag with an input force in the frozen force state gives the forced value; else as LDT (R213). -/
def execLdtf (x : Issue) (rd ra : Fin 32) (imm : BitVec 16) (s : State) : Host.Outcome State Fault Refusal :=
  ctlInstr x s (encI imm ra.val rd.val 0x31) (tagEa x s x.core ra imm) fun s t sc => do
    let e ← tagNamed s (tagIndex s x.core ra imm)
    if e.typ = 12 then throw (excTAG 5 (tagIndex s x.core ra imm))
    let raw := match (if e.out then none else forceOn sc.frozenForces 0 e.tag) with
      | some f => f.value
      | none => leNat (tagBytes s t sc e)
    return (setCtx s x.core (putG (ctxOf s x.core) rd (tagConv e.typ raw)), pc4 s x.core)

/-- TFST: the force status of a tag from the frozen force state (R214). -/
def execTfst (x : Issue) (rd ra : Fin 32) (imm : BitVec 16) (s : State) : Host.Outcome State Fault Refusal :=
  ctlInstr x s (encI imm ra.val rd.val 0x32) none fun s _ sc => do
    let e ← tagNamed s (tagIndex s x.core ra imm)
    if e.typ = 12 then throw (excTAG 5 (tagIndex s x.core ra imm))
    let b0 := !e.out && (forceOn sc.frozenForces 0 e.tag).isSome
    let b1 := e.out && (match s.prog with
      | some p => (drivenBy p e.tag).any fun ch => (forceOn sc.frozenForces 1 ch).isSome
      | none => false)
    return (setCtx s x.core (putG (ctxOf s x.core) rd (BitVec.ofNat 64 (bNat b0 + 2 * bNat b1))), pc4 s x.core)

/-- STT: a store to an output tag that the task owns (R215, R216). -/
def execStt (x : Issue) (rt ra : Fin 32) (imm : BitVec 16) (s : State) : Host.Outcome State Fault Refusal :=
  ctlInstr x s (encI imm ra.val rt.val 0x33) none fun s t sc => do
    let ix := tagIndex s x.core ra imm
    let e ← tagNamed s ix
    if !e.out then throw (excTAG 2 ix)
    if e.owner ≠ t then throw (excTAG (if e.owner < 16 then 3 else 4) ix)
    if e.typ = 12 then throw (excTAG 5 ix)
    let v := getG (ctxOf s x.core) rt
    let bs := leBytes (tagSize e.typ) (if e.typ = 8 then bNat (v != 0) else v.toNat)
    let s' ← storeBuffered s t sc (BitVec.ofNat 64 (winOut + e.off)) bs
    return (s', pc4 s x.core)

/-! ### Timers and edge detectors (R217 to R220) -/

/-- The checks on a block's address (R217). -/
def blockCheck (s : State) (t : Nat) (ad : Dword) (n : Nat) : Option Exc :=
  let a := ad.toNat
  if a % n ≠ 0 then some (excALIGN n ad)
  else match windowOf a with
    | none => some (excACCESS 1 ad)
    | some .retained | some .nonretained =>
      if !inExtent s a n then some (excACCESS 3 ad)
      else match pageOwner s a with
        | none => some (excACCESS 3 ad)
        | some o => if o = 0xFE then some (excACCESS 5 ad) else if o = t then none else some (excACCESS 4 ad)
    | some _ => some (excACCESS 2 ad)

/-- A timer block's fields (R218). -/
structure TimerBlock where
  init : Bool
  running : Bool
  inLast : Bool
  q : Bool
  pt : Nat
  et : Nat
  last : Nat
  deriving DecidableEq, Repr

/-- The kinds of TMR (R210). -/
inductive TimerKind where
  | ton | tof | tp
  deriving DecidableEq, Repr

/-- One evaluation of a timer block (R219). -/
def timerEval (k : TimerKind) (b : TimerBlock) (inp : Bool) (pstart : Nat) : TimerBlock :=
  let dt : Nat := if b.init then (tdiff pstart b.last).toNat else 0
  let grown := min (b.et + dt) b.pt
  let r : TimerBlock := match k with
    | .ton =>
      let et := if inp then (if b.inLast then grown else 0) else 0
      { b with et := et, q := inp && decide (b.pt ≤ et), running := false }
    | .tof =>
      if inp then { b with et := 0, q := true, running := false }
      else if b.inLast then { b with et := 0, q := decide (0 < b.pt), running := false }
      else if b.q then { b with et := grown, q := decide (grown < b.pt), running := false }
      else { b with running := false }
    | .tp =>
      let start := !b.running && inp && !b.inLast
      let et := if start then 0 else if b.running then grown else b.et
      let run := (start || b.running) && !decide (b.pt ≤ et)
      { b with running := run, et := if !run && !inp then 0 else et, q := run }
  { r with inLast := inp, last := pstart, init := true }

/-- A timer block read from its 32 bytes (R218). -/
def timerOf (bs : List Byte) : TimerBlock :=
  let st := leNat (bs.take 4)
  { init := st.testBit 3, running := st.testBit 2, inLast := st.testBit 1, q := st.testBit 0,
    pt := leNat ((bs.drop 8).take 8), et := leNat ((bs.drop 16).take 8), last := leNat ((bs.drop 24).take 8) }

/-- The 32 bytes of a timer block: every other bit of STATE and the word at 0x04 are zero (R218). -/
def timerBytes (b : TimerBlock) : List Byte :=
  leBytes 4 (bNat b.init * 8 + bNat b.running * 4 + bNat b.inLast * 2 + bNat b.q) ++ leBytes 4 0 ++
  leBytes 8 b.pt ++ leBytes 8 b.et ++ leBytes 8 b.last

/-- TMR of a kind: the block at g[RS1] evaluated and written back, Q to g[RD] (R217, R219). -/
def tmr (kind : TimerKind) (func : Nat) (x : Issue) (rd ra rb : Fin 32) (s : State) :
    Host.Outcome State Fault Refusal :=
  ctlInstr x s (encA 0 func rb.val ra.val rd.val 0x34) (some (wordMet x (getG (ctxOf s x.core) ra) 32)) fun s t sc => do
    let k := ctxOf s x.core
    let ad := getG k ra
    if let some e := blockCheck s t ad 32 then throw e
    let b := timerEval kind (timerOf (memBytes s.inst ad.toNat 32)) (getG k rb != 0) (sc.pstart % 2 ^ 64)
    let s' ← storeLogged s t sc ad (timerBytes b)
    return (setCtx s' x.core (putG k rd (boolD b.q)), pc4 s x.core)

/-- TMR TON. -/
def execTmrTon (x : Issue) (rd ra rb : Fin 32) (s : State) : Host.Outcome State Fault Refusal := tmr .ton 0 x rd ra rb s
/-- TMR TOF. -/
def execTmrTof (x : Issue) (rd ra rb : Fin 32) (s : State) : Host.Outcome State Fault Refusal := tmr .tof 1 x rd ra rb s
/-- TMR TP. -/
def execTmrTp (x : Issue) (rd ra rb : Fin 32) (s : State) : Host.Outcome State Fault Refusal := tmr .tp 2 x rd ra rb s

/-- EDGE of a kind: `f` makes q from the input and PREV (R220). -/
def edge (f : Bool → Bool → Bool) (func : Nat) (x : Issue) (rd ra rb : Fin 32) (s : State) :
    Host.Outcome State Fault Refusal :=
  ctlInstr x s (encA 0 func rb.val ra.val rd.val 0x35) (some (getG (ctxOf s x.core) ra)) fun s t sc => do
    let k := ctxOf s x.core
    let ad := getG k ra
    if let some e := blockCheck s t ad 4 then throw e
    let inp := getG k rb != 0
    let q := f inp ((memLe s.inst ad.toNat 4).testBit 0)
    let s' ← storeLogged s t sc ad (leBytes 4 (bNat inp))
    return (setCtx s' x.core (putG k rd (boolD q)), pc4 s x.core)

/-- EDGE RISE. -/
def execEdgeRise (x : Issue) (rd ra rb : Fin 32) (s : State) : Host.Outcome State Fault Refusal :=
  edge (fun i p => i && !p) 0 x rd ra rb s
/-- EDGE FALL. -/
def execEdgeFall (x : Issue) (rd ra rb : Fin 32) (s : State) : Host.Outcome State Fault Refusal :=
  edge (fun i p => p && !i) 1 x rd ra rb s
/-- EDGE ANY. -/
def execEdgeAny (x : Issue) (rd ra rb : Fin 32) (s : State) : Host.Outcome State Fault Refusal :=
  edge (fun i p => i != p) 2 x rd ra rb s

/-! ### Engine calls (R224 to R231) -/

/-- Whether a function allows a body of a length; MTR CONFIG by the record kind in word 0 (R231). -/
def ecallLenOk (engine fn len kind : Nat) : Bool :=
  len % 4 = 0 && match engine, fn with
    | 0, 0 => len = 64
    | 0, 1 => len = 64
    | 0, 2 => 12 ≤ len && len ≤ 28672
    | 0, 3 => len = 16
    | 0, 4 => 12 ≤ len && len ≤ 4104
    | 2, 0 => len = 264
    | 2, 1 => len = 24
    | 2, 2 => len = 8
    | 3, 0 => match kind with
      | 0 => len = 16
      | 1 => len = 24
      | 2 => len = 24
      | 3 => len = 1772
      | 4 => len = 16
      | 5 => len = 24
      | _ => 16 ≤ len && len ≤ 1772
    | 4, 0 => 20 ≤ len && len ≤ 28672
    | 5, 0 => 12 ≤ len && len ≤ 264
    | 5, 1 => len = 8
    | _, _ => false

/-- The next ticket: 0 is skipped (R225). -/
def nextTicket (t : Nat) : Nat := if (t + 1) % 65536 = 0 then 1 else (t + 1) % 65536

/-- ECALL: the body captured into the call queue and a ticket written, or ENGINE (R224, R228). -/
def execEcall (x : Issue) (rd ra rb : Fin 32) (engine : Fin 32) (fn : Fin 64) (s : State) :
    Host.Outcome State Fault Refusal :=
  ctlInstr x s (encA fn.val engine.val rb.val ra.val rd.val 0x36) (bodyEa x s x.core ra rb) fun s t sc => do
    if !ecallDefined engine.val fn.val then throw (excILLEGAL (encA fn.val engine.val rb.val ra.val rd.val 0x36))
    let k := ctxOf s x.core
    let off := (getG k ra).toNat
    let len := (getG k rb).toNat
    let base := winMbox + 0x10000 * t
    let bad (d : Nat) : Exc := excENGINE d (BitVec.ofNat 64 base + getG k ra)
    if off % 8 ≠ 0 || off < 0x1000 || off + len > 0x8000 then throw (bad 1)
    if !ecallLenOk engine.val fn.val len (memLe s.mbox (base + off) 4 / 65536) then throw (bad 2)
    if sc.calls.length ≥ 32 then throw (bad 3)
    if (sc.calls.map (·.body.length)).sum + len > 28672 then throw (bad 4)
    let tk := nextTicket sc.ticket
    let call : Call := { ticket := tk, engine := engine.val, fn := fn.val, body := memBytes s.mbox (base + off) len }
    let s' := setScan s t (some { sc with calls := call :: sc.calls, ticket := tk })
    return (setCtx s' x.core (putG k rd (BitVec.ofNat 64 tk)), pc4 s x.core)

/-! ### Engine reads (R234, R235) -/

/-- EREAD of a view: `f` answers the value of an index, or none when the index is out of range. -/
def eread (func : Nat) (x : Issue) (rd ra : Fin 32) (sel : BitVec 6) (s : State)
    (f : EngineView → Nat → Nat → Option Dword) : Host.Outcome State Fault Refusal :=
  ctlInstr x s (encA sel.toNat func 0 ra.val rd.val 0x37) none fun s _ sc => do
    match ereadMaxSel func with
    | none => throw (excILLEGAL (encA sel.toNat func 0 ra.val rd.val 0x37))
    | some m =>
      if sel.toNat > m then throw (excILLEGAL (encA sel.toNat func 0 ra.val rd.val 0x37))
    let ix := getG (ctxOf s x.core) ra
    match f sc.view ix.toNat sel.toNat with
    | none => throw (excENGINE 5 ix)
    | some v => return (setCtx s x.core (putG (ctxOf s x.core) rd v), pc4 s x.core)

/-- A mantissa, sign-extended. -/
def mantD (v : Int) : Dword := BitVec.ofInt 64 v
/-- A number, zero-extended. -/
def natD (v : Nat) : Dword := BitVec.ofNat 64 v

/-- EREAD NODE: 0 for every index without a committed state or a model (R234). -/
def execEreadNode (x : Issue) (rd ra : Fin 32) (sel : BitVec 6) (s : State) : Host.Outcome State Fault Refusal :=
  eread 0 x rd ra sel s fun v i q =>
    match v.hasModel, v.state with
    | true, some st => (st.nodes[i]?).map fun n => match q with
      | 0 => mantD n.p | 1 => mantD n.t | 2 => natD n.flags | _ => mantD n.imbal
    | _, _ => some 0

/-- EREAD BRANCH. -/
def execEreadBranch (x : Issue) (rd ra : Fin 32) (sel : BitVec 6) (s : State) : Host.Outcome State Fault Refusal :=
  eread 1 x rd ra sel s fun v i q =>
    match v.hasModel, v.state with
    | true, some st => (st.branches[i]?).map fun n => match q with
      | 0 => mantD n.q | 1 => mantD n.tOut | 2 => mantD n.dp | _ => natD n.flags
    | _, _ => some 0

/-- The index of an identifier in a list, or all ones. -/
def ixOfId (ids : List Nat) (i : Nat) : Dword :=
  match ids.findIdx? (· = i % 2 ^ 32) with
  | some k => natD k
  | none => BitVec.allOnes 64

/-- EREAD NODEIX. -/
def execEreadNodeix (x : Issue) (rd ra : Fin 32) (sel : BitVec 6) (s : State) : Host.Outcome State Fault Refusal :=
  eread 2 x rd ra sel s fun v i _ => some (if v.hasModel then ixOfId v.nodeIds i else BitVec.allOnes 64)

/-- EREAD BRANCHIX. -/
def execEreadBranchix (x : Issue) (rd ra : Fin 32) (sel : BitVec 6) (s : State) : Host.Outcome State Fault Refusal :=
  eread 3 x rd ra sel s fun v i _ => some (if v.hasModel then ixOfId v.branchIds i else BitVec.allOnes 64)

/-- EREAD STATE. -/
def execEreadState (x : Issue) (rd ra : Fin 32) (sel : BitVec 6) (s : State) : Host.Outcome State Fault Refusal :=
  eread 4 x rd ra sel s fun v i q =>
    if i ≠ 0 then none
    else some (natD (match q, v.state, v.dec with
      | 0, st, _ => bNat st.isSome
      | 1, some st, _ => st.cycle
      | 2, some st, _ => st.hs
      | 3, some st, _ => st.ht
      | 4, some st, _ => st.flags
      | 5, _, _ => v.modelSerial
      | 6, _, some d => d.index
      | 7, _, d => bNat d.isSome
      | _, _, _ => 0))

/-- EREAD DEC: 0 when no table is in force. -/
def execEreadDec (x : Issue) (rd ra : Fin 32) (sel : BitVec 6) (s : State) : Host.Outcome State Fault Refusal :=
  eread 5 x rd ra sel s fun v i _ =>
    if i > 159 then none
    else some (match v.dec with | some d => mantD (d.values.getD i 0) | none => 0)

/-- EREAD DEMAND (R153). -/
def execEreadDemand (x : Issue) (rd ra : Fin 32) (sel : BitVec 6) (s : State) : Host.Outcome State Fault Refusal :=
  eread 6 x rd ra sel s fun v i q =>
    match q with
    | 0 => if i > 4095 then none else some (mantD (amGet (fun _ => 0) v.demThermal i))
    | 1 => if i > 33 then none else some (mantD (amGet (fun _ => 0) v.demElectric i))
    | _ => if i > 4095 then none else some (natD (bNat (v.demMissing.contains i)))

/-- EREAD LOOP: c, or the status word. -/
def execEreadLoop (x : Issue) (rd ra : Fin 32) (sel : BitVec 6) (s : State) : Host.Outcome State Fault Refusal :=
  eread 7 x rd ra sel s fun v i q =>
    if i > 511 then none
    else
      let e := amGet (fun _ => (0, 0)) v.loops i
      some (if q = 0 then sext64 32 e.1 else natD e.2)

/-- EREAD GROUP: w_g, or the status word. -/
def execEreadGroup (x : Issue) (rd ra : Fin 32) (sel : BitVec 6) (s : State) : Host.Outcome State Fault Refusal :=
  eread 8 x rd ra sel s fun v i q =>
    if i > 63 then none
    else
      let e := amGet (fun _ => (0, 0)) v.groups i
      some (if q = 0 then sext64 32 e.1 else natD e.2)

/-- EREAD EXP: the class exponent of the active model. -/
def execEreadExp (x : Issue) (rd ra : Fin 32) (sel : BitVec 6) (s : State) : Host.Outcome State Fault Refusal :=
  eread 9 x rd ra sel s fun v i _ =>
    if i > 15 then none else some (if v.hasModel then mantD (v.exps.getD i 0) else 0)

/-! ### Checkpoints and SCANEND (R221, R223) -/

/-- CKPT: the registers, the ticket count and PC + 4 saved, and the logs marked (R221). -/
def execCkpt (x : Issue) (s : State) : Host.Outcome State Fault Refusal :=
  ctlInstr x s 0x38#32 none fun s t sc =>
    let c : Ckpt := { ctx := { ctxOf s x.core with pc := pc4 s x.core }, ticket := sc.ticket,
                      undoMark := sc.undo.length, bufMark := sc.buf.length, callMark := sc.calls.length }
    .ok (setScan s t (some { sc with ckpt := c }), pc4 s x.core)

/-- The buffered stores of a scan in the order they were made to lines, oldest line first. -/
def bufCells (sc : Scan) : List Host.Cell := sc.buf.reverse.flatMap (·.cells)

/-- The bytes of a task's own output tags in an image. -/
def ownedOut (s : State) (t : Nat) (m : Mem) : Mem :=
  memKeep (fun off => match tagAt s true off with | some e => e.owner = t | none => false) m

/-- A line of retained instance memory becomes the value kept over a restart: in MRAM, or in the journal while
writes are frozen (R175, R464, R487). -/
def commitRetained (s : State) (line : Nat) : State :=
  let a := line * 64
  if winRet ≤ a && a < winNon then
    let bs := memBytes s.inst a 64
    let p := retainBase + (a - winRet)
    if flag s F.PWR_STATUS_FROZEN then { s with journal := cellsPut s.journal p bs }
    else { s with mem := memPut s.mem p bs }
  else s

/-- The stores of a scan to shared retained pages reach the memory kept over a restart at its SCANEND, before the next
period start applies them (R174, R175). -/
def keepShared (s : State) (shared : List (Nat × Byte)) : State :=
  let kept := (shared.filter fun c => winRet ≤ c.1 && c.1 < winNon).map fun c => (retainBase + (c.1 - winRet), c.2)
  if flag s F.PWR_STATUS_FROZEN then { s with journal := kept.foldl (fun j c => cellsPut j c.1 [c.2]) s.journal }
  else { s with mem := memPutCells s.mem kept }

/-- The commit of a scan (R223 steps 1 to 3). -/
def commitScan (s : State) (t : Nat) (sc : Scan) : State :=
  let cells := bufCells sc
  let outs := (cells.filter fun c => winOut ≤ c.1).map fun c => (c.1 - winOut, c.2)
  let shared := cells.filter fun c => c.1 < winOut
  let s := keepShared ((sc.undo.map (·.line)).foldl commitRetained s) shared
  modTask s (taskIx t) fun k =>
    { k with image := memPutCells (if k.committed then k.image else ownedOut s t s.outImg) outs,
             committed := true, pendEmit := true, pendShared := shared, pendCalls := sc.calls.reverse,
             tickets := sc.ticket }

/-- The byte stream of a task period that a scan commits (R289 source 0). -/
def taskStream (s : State) (t : Nat) (sc : Scan) : List Byte :=
  let line := fun (l : Nat) => leBytes 8 (l * 64) ++ scanBytes s t sc (l * 64) 64
  let call := fun (c : Call) => leBytes 2 c.ticket ++ leBytes 1 c.engine ++ leBytes 1 c.fn ++ leBytes 4 c.body.length ++ c.body
  leBytes 4 t ++ leBytes 4 1 ++ leBytes 8 (sc.period + sc.late) ++ (sortDedup (sc.buf.map (·.line))).flatMap line ++
  (sortDedup (sc.undo.map (·.line))).flatMap line ++ sc.calls.reverse.flatMap call

/-- SCANEND: the scan commits and ends; its scan time is shown (R223, R246). -/
def execScanend (x : Issue) (scanNs : Nat) (s : State) : Host.Outcome State Fault Refusal :=
  if !live s x.core then .next s
  else match faultExc s x none with
    | some e => .next (raise s x.core e)
    | none =>
      match scanTask s x.core with
      | none => .next (raise (countCorrected s x) x.core (excILLEGAL 0x39#32))
      | some t =>
        match scanOf s t with
        | none => .next (raise (countCorrected s x) x.core (excILLEGAL 0x39#32))
        | some sc =>
          let s := digestUnit s 0 t (sc.period + sc.late) (taskStream s t sc)
          let s := commitScan (countCorrected s x) t sc
          let s := setFi s F.SCN_TASK_TIME_VALUE t scanNs
          let s := setFi s F.SCN_TASK_MAX_VALUE t (max (getFi s F.SCN_TASK_MAX_VALUE t) (scanNs % 2 ^ 32))
          let s := setFi s F.SCN_TASK_STAT_ERR_RUN t 0
          .next (endScan (setFi s F.SCN_TASK_STAT_STATE t tsIdle) t)

end Sys2Proof.Machine
end

