-- ==== Sys2Proof/Machine/NetModel.lean ====
section
/-!
DEFINITION. The network model image: reading it, its structure and topology hashes, its validation and the isolation
analysis (02 R28 to R47, R55, 03 R67).
-/
namespace Sys2Proof.Machine

/-! ### Reading an image (R29 to R41) -/

/-- The first 48 header words' counts and offsets of an image at a base address. -/
structure ImgHead where
  base : Nat
  len : Nat
  counts : List Nat
  offs : List Nat
  deriving DecidableEq, Repr

/-- The 32-bit word at an offset of an image. -/
def imgW (m : Mem) (base off : Nat) : Nat := memLe m (base + off) 4

/-- A mantissa at an offset of an image. -/
def imgI (m : Mem) (base off : Nat) : Int := sInt 32 (imgW m base off)

/-- Entry sizes by table number of R47; table 1 is the exponent table. -/
def tableEntry : Nat → Nat
  | 2 => 32 | 3 => 64 | 4 => 32 | 5 => 48 | 6 => 64 | 7 => 64 | 8 => 32 | _ => 64

/-- The header of an image (R29): counts by table number 2 to 8, offsets by table number 1 to 8. -/
def imgHead (m : Mem) (base : Nat) : ImgHead :=
  { base := base, len := imgW m base 8,
    counts := (List.range 7).map fun i => imgW m base (0x10 + 4 * i),
    offs := (List.range 8).map fun i => imgW m base (0x30 + 4 * i) }

/-- Entries of a table, by its number of R47. -/
def ImgHead.count (h : ImgHead) (t : Nat) : Nat := if t = 1 then 1 else h.counts.getD (t - 2) 0

/-- The address of entry `i` of a table. -/
def ImgHead.entry (h : ImgHead) (t i : Nat) : Nat := h.base + h.offs.getD (t - 1) 0 + tableEntry t * i

def nodeOf (m : Mem) (a : Nat) : MNode :=
  let w := fun i => imgW m a (4 * i)
  { id := w 0, kind := bitsOf 31 28 (w 1), side := (w 1).testBit 27, fixed := (w 1).testBit 26,
    pFixed := sInt 32 (w 2), pMin := sInt 32 (w 3), pMax := sInt 32 (w 4), pInit := sInt 32 (w 5),
    tInit := sInt 32 (w 6), pTagValid := (w 7).testBit 16, pTag := bitsOf 15 0 (w 7) }

def branchOf (m : Mem) (a : Nat) : MBranch :=
  let w := fun i => imgW m a (4 * i)
  { id := w 0, toN := bitsOf 29 16 (w 1), fromN := bitsOf 13 0 (w 1), kind := bitsOf 31 28 (w 2),
    enabled := (w 2).testBit 27, oneWay := (w 2).testBit 26, attach := bitsOf 15 0 (w 2),
    resis := sInt 32 (w 3), dpStatic := sInt 32 (w 4), qInit := sInt 32 (w 5), qMax := sInt 32 (w 6),
    volume := sInt 32 (w 7), ua := sInt 32 (w 8), tAmb := sInt 32 (w 9), plugsMax := bitsOf 5 0 (w 10),
    qLin := sInt 32 (w 11) }

def pumpOf (m : Mem) (a : Nat) : MPump :=
  let w := fun i => imgW m a (4 * i)
  { id := w 0, speedTag := bitsOf 31 16 (w 1), branch := bitsOf 15 0 (w 1), h0 := sInt 32 (w 2),
    h1 := sInt 32 (w 3), h2 := sInt 32 (w 4), sMin := sInt 32 (w 5), sMax := sInt 32 (w 6) }

def valveOf (m : Mem) (a : Nat) : MValve :=
  let w := fun i => imgW m a (4 * i)
  { id := w 0, posTag := bitsOf 31 16 (w 1), branch := bitsOf 15 0 (w 1),
    kv := (List.range 9).map fun i => sInt 32 (w (2 + i)) }

def storeOf (m : Mem) (a : Nat) : MStore :=
  let w := fun i => imgW m a (4 * i)
  { id := w 0, cold := bitsOf 29 16 (w 1), hot := bitsOf 13 0 (w 1), socTag := bitsOf 31 16 (w 2),
    branch := bitsOf 15 0 (w 2), capacity := sInt 32 (w 3), socMin := sInt 32 (w 4), socMax := sInt 32 (w 5),
    chgMax := sInt 32 (w 6), disMax := sInt 32 (w 7), loss := sInt 32 (w 8), etaChg := sInt 32 (w 9),
    etaDis := sInt 32 (w 10), tColdTag := bitsOf 31 16 (w 11), tHotTag := bitsOf 15 0 (w 11),
    flowTag := bitsOf 15 0 (w 12) }

def plantOf (m : Mem) (a : Nat) : MPlant :=
  let w := fun i => imgW m a (4 * i)
  { id := w 0, cooling := (w 1).testBit 4, kind := bitsOf 3 0 (w 1), ret := bitsOf 29 16 (w 2),
    sup := bitsOf 13 0 (w 2), heatTag := bitsOf 31 16 (w 3), branch := bitsOf 15 0 (w 3),
    heatMin := sInt 32 (w 4), heatMax := sInt 32 (w 5), rampUp := sInt 32 (w 6), rampDown := sInt 32 (w 7),
    tSupMin := sInt 32 (w 8), tSupMax := sInt 32 (w 9), flowTag := bitsOf 31 16 (w 10),
    tSupTag := bitsOf 15 0 (w 10), elecRatio := sInt 32 (w 11), priceIndex := bitsOf 7 0 (w 12) }

def subOf (m : Mem) (a : Nat) : MSub :=
  let w := fun i => imgW m a (4 * i)
  { id := w 0, hasSession := (w 1).testBit 12, session := bitsOf 11 0 (w 1), ret := bitsOf 29 16 (w 2),
    sup := bitsOf 13 0 (w 2), branch := bitsOf 15 0 (w 3), qDefault := sInt 32 (w 4), tRetDefault := sInt 32 (w 5),
    dpMin := sInt 32 (w 6), staleCycles := bitsOf 15 0 (w 7) }

/-- The entries of a table, read one by one. -/
def tableOf {α : Type} (m : Mem) (h : ImgHead) (t : Nat) (f : Mem → Nat → α) : List α :=
  (List.range (h.count t)).map fun i => f m (h.entry t i)

/-! ### Hashes (R44, R45) -/

/-- The structure hash of nodes and branches. -/
def structHash (nodes : List MNode) (branches : List MBranch) : Nat :=
  leNat ((sha3_256 (leBytes 4 nodes.length ++ leBytes 4 branches.length ++ nodes.flatMap (fun n => leBytes 4 n.id) ++
    branches.flatMap (fun b => leBytes 2 b.fromN ++ leBytes 2 b.toN))).take 8)

/-- Bits packed into little-endian 32-bit words, the unused high bits zero. -/
def packBits (bs : List Bool) : List Byte :=
  let n := (bs.zipIdx.foldl (fun v p => if p.1 then v + 2 ^ p.2 else v) 0)
  leBytes (4 * ((bs.length + 31) / 32)) n

/-- The topology hash of an in-service bitmap (R45). -/
def topoHash (md : Model) (inServ : List Bool) : Nat :=
  leNat ((sha3_256 (leBytes 8 md.hs ++ packBits inServ ++ packBits (md.nodes.map (·.fixed)))).take 8)

/-- The model that a validated image holds. -/
def modelOf (m : Mem) (base : Nat) : Model :=
  let h := imgHead m base
  let nodes := tableOf m h 2 nodeOf
  let branches := tableOf m h 3 branchOf
  { serial := imgW m base 0xC, rho := imgW m base 0x50, cp := imgI m base 0x54, hs := structHash nodes branches,
    exps := (List.range 16).map fun c => sInt 8 (imgW m (h.entry 1 0) (4 * c)),
    nodes := nodes, branches := branches, pumps := tableOf m h 4 pumpOf, valves := tableOf m h 5 valveOf,
    stores := tableOf m h 6 storeOf, plants := tableOf m h 7 plantOf, subs := tableOf m h 8 subOf }

/-! ### Connection (R47 check 0x0D, R55, R67) -/

/-- The set of nodes grown once along branches that pass a test. -/
def growSet (branches : List MBranch) (ok : Nat → Bool) (s : List Bool) : List Bool :=
  branches.zipIdx.foldl (fun s p =>
    if ok p.2 && (s.getD p.1.fromN false || s.getD p.1.toN false) then
      (s.set p.1.fromN true).set p.1.toN true
    else s) s

/-- The set of nodes joined to a start set by branches that pass a test. -/
def reach (branches : List MBranch) (ok : Nat → Bool) : Nat → List Bool → List Bool
  | 0, s => s
  | n + 1, s => let s' := growSet branches ok s; if s' = s then s else reach branches ok n s'

/-- The isolated nodes under an in-service bitmap (R55). -/
def isolatedOf (md : Model) (inServ : List Bool) : List Bool :=
  (reach md.branches (fun i => inServ.getD i false) md.nodes.length (md.nodes.map (·.fixed))).map not

/-- Whether a branch kind conducts: pipe, pump or valve. -/
def conducts (kind : Nat) : Bool := kind ≤ 2

/-- The nodes joined to a FIXED node by in-service pipes, pumps and valves alone; the others that are not isolated are
floating (R67). -/
def floatingOf (md : Model) (inServ isolated : List Bool) : List Bool :=
  let ok := fun i => inServ.getD i false && conducts ((md.branches.getD i default).kind)
  let anchored := reach md.branches ok md.nodes.length (md.nodes.map (·.fixed))
  anchored.zipWith (fun a i => !a && !i) isolated

/-- The floating anchors: of each floating group, the node of lowest index (R67). -/
def anchorsOf (md : Model) (inServ floating : List Bool) : List Bool :=
  let ok := fun i => inServ.getD i false && conducts ((md.branches.getD i default).kind)
  let step := fun (acc : List Bool × List Bool) n =>
    if floating.getD n false && !acc.2.getD n false then
      (acc.1.set n true,
        (reach md.branches ok md.nodes.length ((List.range md.nodes.length).map (· = n))).zipWith (· || ·) acc.2)
    else acc
  ((List.range md.nodes.length).foldl step (md.nodes.map fun _ => false, md.nodes.map fun _ => false)).1

/-! ### Validation (R47) -/

/-- One test of a check: the table and index it concerns, and whether it holds. -/
abbrev VTest := Nat × Nat × Bool

/-- The first failing test of a check. -/
def failing (code : Nat) (ts : List VTest) : Option (Nat × Nat × Nat) :=
  (ts.find? fun t => !t.2.2).map fun t => (code, t.1, t.2.1)

/-- Tests over the entries of a table. -/
def perEntry {α : Type} (t : Nat) (l : List α) (f : Nat → α → Bool) : List VTest :=
  l.zipIdx.map fun p => (t, p.2, f p.2 p.1)

/-- Bits of word `i` of an entry are zero. -/
def rz (m : Mem) (a i hi lo : Nat) : Bool := bitsOf hi lo (imgW m a (4 * i)) = 0

/-- The regions of an image: table number, first byte and length, in the order visited. -/
def imgRegions (h : ImgHead) : List (Nat × Nat × Nat) :=
  [(0, 0, 0x100)] ++ ((List.range 8).map fun i =>
    (i + 1, h.offs.getD i 0, if i = 0 then 64 else tableEntry (i + 1) * h.count (i + 1))) ++
  [(9, h.len - 4627, 4627)]

/-- Check 0x04. A table of count zero needs only its alignment and its floor (R29). An overlap is found at the later
of the two regions (assumption 21). -/
def checkRegions (h : ImgHead) : List VTest :=
  let rs := imgRegions h
  rs.zipIdx.map fun p =>
    let (t, o, n) := p.1
    let aligned := t = 0 || t = 9 || (o % 64 = 0 && 0x100 ≤ o)
    let inside := n = 0 || o + n ≤ h.len
    let clear := n = 0 || (rs.take p.2).all fun q => q.2.2 = 0 || o + n ≤ q.2.1 || q.2.1 + q.2.2 ≤ o
    (t, 0, aligned && inside && clear)

/-- Check 0x05 (R31, R32). -/
def checkExps (m : Mem) (h : ImgHead) : List VTest :=
  let a := h.entry 1 0
  let e := fun c => sInt 8 (imgW m a (4 * c))
  let inR := fun (d : Int) => decide (0 ≤ d) && decide (d ≤ 62)
  ((List.range 16).map fun c =>
    let w := imgW m a (4 * c)
    (1, c, if c < 10 then bitsOf 31 24 w = c && bitsOf 23 8 w = 0 && decide (-48 ≤ e c) && decide (e c ≤ 16)
           else w = 0)) ++
  [(1, 0, inR (e 0 - e 3 - 2 * e 1)), (1, 0, inR (e 0 - e 4 - e 1)), (1, 0, inR (e 0 - e 5 - 2 * e 1)),
   (1, 6, inR (e 6 - e 1 - e 2))]

/-- Check 0x06. -/
def checkReserved (m : Mem) (h : ImgHead) : List VTest :=
  let each := fun t (f : Nat → Bool) => (List.range (h.count t)).map fun i => (t, i, f (h.entry t i))
  [(0, 0, imgW m h.base 0x2C = 0 && (List.range 40).all fun i => imgW m h.base (0x60 + 4 * i) = 0)] ++
  each 2 (fun a => bitsOf 31 28 (imgW m a 4) ≤ 3 && rz m a 1 25 0 && rz m a 7 31 17) ++
  each 3 (fun a => rz m a 1 31 30 && rz m a 1 15 14 && bitsOf 31 28 (imgW m a 8) ≤ 5 && rz m a 2 25 16 &&
    rz m a 10 31 6 && [12, 13, 14, 15].all fun i => rz m a i 31 0) ++
  each 4 (fun a => rz m a 7 31 0) ++
  each 5 (fun a => rz m a 11 31 0) ++
  each 6 (fun a => rz m a 1 31 30 && rz m a 1 15 14 && rz m a 12 31 16 && [13, 14, 15].all fun i => rz m a i 31 0) ++
  each 7 (fun a => rz m a 1 31 5 && bitsOf 3 0 (imgW m a 4) ≤ 5 && rz m a 2 31 30 && rz m a 2 15 14 &&
    rz m a 12 31 8 && [13, 14, 15].all fun i => rz m a i 31 0) ++
  each 8 (fun a => rz m a 1 31 13 && rz m a 2 31 30 && rz m a 2 15 14 && rz m a 3 31 16 && rz m a 7 31 16)

/-- The table that a branch kind attaches to. -/
def attachTable : Nat → Nat
  | 1 => 4 | 2 => 5 | 3 => 8 | 4 => 7 | 5 => 6 | _ => 0

/-- Check 0x07. -/
def checkIndex (h : ImgHead) (md : Model) : List VTest :=
  let nn := h.count 2
  let nb := h.count 3
  perEntry 3 md.branches (fun _ b => b.fromN < nn && b.toN < nn && (b.kind = 0 || b.attach < h.count (attachTable b.kind))) ++
  perEntry 4 md.pumps (fun _ e => e.branch < nb) ++
  perEntry 5 md.valves (fun _ e => e.branch < nb) ++
  perEntry 6 md.stores (fun _ e => e.branch < nb && e.hot < nn && e.cold < nn) ++
  perEntry 7 md.plants (fun _ e => e.branch < nb && e.ret < nn && e.sup < nn) ++
  perEntry 8 md.subs (fun _ e => e.branch < nb && e.ret < nn && e.sup < nn)

/-- No identifier of a table stands earlier in it. -/
def checkIds (t : Nat) (ids : List Nat) : List VTest := perEntry t ids fun i x => !(ids.take i).contains x

/-- The branch that an element of a table names, by branch kind and index. -/
def elementBranch (md : Model) (kind i : Nat) : Option Nat :=
  match kind with
  | 1 => (md.pumps[i]?).map (·.branch)
  | 2 => (md.valves[i]?).map (·.branch)
  | 3 => (md.subs[i]?).map (·.branch)
  | 4 => (md.plants[i]?).map (·.branch)
  | 5 => (md.stores[i]?).map (·.branch)
  | _ => none

/-- An element's branch has its kind and names it back. -/
def namesBack (md : Model) (kind i br : Nat) : Bool :=
  match md.branches[br]? with
  | some b => b.kind = kind && b.attach = i
  | none => false

/-- A node has a kind and a side. -/
def nodeIs (md : Model) (n kind : Nat) (side : Bool) : Bool :=
  match md.nodes[n]? with
  | some x => x.kind = kind && x.side = side
  | none => false

/-- A branch runs from one node to another. -/
def runs (md : Model) (br f t : Nat) : Bool :=
  match md.branches[br]? with
  | some b => b.fromN = f && b.toN = t
  | none => false

/-- Check 0x0A. -/
def checkAttach (md : Model) : List VTest :=
  perEntry 3 md.branches (fun i b => if b.kind = 0 then b.attach = 0xFFFF else elementBranch md b.kind b.attach = some i) ++
  perEntry 4 md.pumps (fun i e => namesBack md 1 i e.branch) ++
  perEntry 5 md.valves (fun i e => namesBack md 2 i e.branch) ++
  perEntry 6 md.stores (fun i e => namesBack md 5 i e.branch && nodeIs md e.cold 3 true && nodeIs md e.hot 3 false &&
    runs md e.branch e.hot e.cold) ++
  perEntry 7 md.plants (fun i e => namesBack md 4 i e.branch && nodeIs md e.ret 1 true && nodeIs md e.sup 1 false &&
    runs md e.branch e.ret e.sup) ++
  perEntry 8 md.subs (fun i e => namesBack md 3 i e.branch && nodeIs md e.ret 2 true && nodeIs md e.sup 2 false &&
    runs md e.branch e.sup e.ret)

/-- 1.0 in Q2.30. -/
def one30 : Int := 0x40000000

/-- Check 0x0B. -/
def checkRanges (md : Model) : List VTest :=
  [(0, 0, 500 * 65536 ≤ md.rho && md.rho ≤ 1100 * 65536 && decide (2 ^ 24 ≤ md.cp) && decide (md.cp ≤ 8 * 2 ^ 24))] ++
  perEntry 2 md.nodes (fun _ n => decide (n.pMin ≤ n.pMax) && (!n.pTagValid || n.fixed)) ++
  perEntry 3 md.branches (fun _ b => decide (0 ≤ b.resis) && decide (0 < b.qMax) && decide (0 < b.volume) &&
    decide (0 ≤ b.ua) && 1 ≤ b.plugsMax && b.plugsMax ≤ 32 && decide (0 < b.qLin)) ++
  perEntry 4 md.pumps (fun _ p => decide (p.h2 ≤ 0) && decide (0 ≤ p.sMin) && decide (p.sMin ≤ one30) &&
    decide (p.sMin ≤ p.sMax) && decide (p.sMax ≤ 0x50000000)) ++
  perEntry 5 md.valves (fun _ v => (v.kv.zip (v.kv.drop 1)).all (fun p => decide (p.1 ≤ p.2)) &&
    decide (2 ^ 20 ≤ v.kv.getD 0 0) && v.kv.getD 8 0 = one30) ++
  perEntry 6 md.stores (fun _ e => decide (0 < e.capacity) && decide (0 ≤ e.socMin) && decide (e.socMin ≤ e.socMax) &&
    decide (e.socMax ≤ one30) && decide (0 ≤ e.chgMax) && decide (0 ≤ e.disMax) && decide (0 ≤ e.loss) &&
    decide (0 < e.etaChg) && decide (e.etaChg ≤ one30) && decide (0 < e.etaDis) && decide (e.etaDis ≤ one30)) ++
  perEntry 7 md.plants (fun _ e => decide (0 ≤ e.heatMin) && decide (e.heatMin ≤ e.heatMax) &&
    decide (e.tSupMin ≤ e.tSupMax)) ++
  perEntry 8 md.subs (fun i e => 1 ≤ e.staleCycles &&
    (!e.hasSession || !(md.subs.take i).any fun x => x.hasSession && x.session = e.session))

/-- Check 0x0D: the nodes that in-service branches of the image do not join to a FIXED node. -/
def checkConnected (md : Model) : List VTest :=
  perEntry 2 (isolatedOf md (md.branches.map (·.enabled))) fun _ x => !x

/-- The range of each count, by table number 2 to 8 (R29). -/
def countsOk (h : ImgHead) : Bool :=
  ([(2, 16384), (1, 32768), (0, 512), (0, 2048), (0, 64), (1, 64), (0, 4096)].zip h.counts).all
    fun p => p.1.1 ≤ p.2 && p.2 ≤ p.1.2

/-- MAGIC and FORMAT of a model image (check 0x01). -/
def modelMagic (m : Mem) (base : Nat) : Bool := imgW m base 0 = 0x514E4D31 && imgW m base 4 = 1

/-- The length rules of check 0x02 (R47). -/
def modelLenOk (m : Mem) (base written : Nat) : Bool :=
  let n := imgW m base 8
  n % 4 = 0 && 0x100 + 4627 ≤ n && n ≤ 0x800000 && n ≤ written

/-- Validation of an image: none when it passes, else the code, the table and the index (R47). `sigOk` tells whether
the signature verifies. -/
def validateModel (m : Mem) (base written : Nat) (sigOk : Bool) : Option (Nat × Nat × Nat) :=
  if !modelMagic m base then some (1, 0, 0)
  else if !modelLenOk m base written then some (2, 0, 0)
  else if !sigOk then some (2, 9, 0)
  else
    let h := imgHead m base
    if !countsOk h then some (3, 0, 0)
    else
      let md := modelOf m base
      ((failing 4 (checkRegions h)) <|> (failing 5 (checkExps m h)) <|> (failing 6 (checkReserved m h)) <|>
        (failing 7 (checkIndex h md)) <|> (failing 8 (perEntry 3 md.branches fun _ b => b.fromN != b.toN)) <|>
        (failing 9 (checkIds 2 (md.nodes.map (·.id)) ++ checkIds 3 (md.branches.map (·.id)) ++
          checkIds 4 (md.pumps.map (·.id)) ++ checkIds 5 (md.valves.map (·.id)) ++ checkIds 6 (md.stores.map (·.id)) ++
          checkIds 7 (md.plants.map (·.id)) ++ checkIds 8 (md.subs.map (·.id)))) <|>
        (failing 10 (checkAttach md)) <|> (failing 11 (checkRanges md)) <|>
        (failing 12 [(0, 0, imgW m base 0x58 + imgW m base 0x5C * 2 ^ 32 = md.hs)]) <|>
        (failing 13 (checkConnected md)))

end Sys2Proof.Machine
end

