-- ==== Sys2Proof/Machine/NetSolve.lean ====
section
/-!
DEFINITION. The hydraulic solve and the thermal pass of a job, bit for bit (03 R63 to R77).
-/
namespace Sys2Proof.Machine

/-! ### Saturation, pivots and breakdowns of a job -/

/-- What a job notes while it computes: a bit per place of NSA_SAT (bit 6 for result figures), the rows of
regularised pivots in the order met, and BREAKDOWN. -/
structure Notes where
  sat : Nat
  pivots : List Nat
  breakdown : Bool
  deriving DecidableEq, Repr

/-- A computation of a job with its notes. -/
abbrev Job.M := StateM Notes

def Notes.none : Notes := { sat := 0, pivots := [], breakdown := false }

/-- Places of NSA_SAT (R88); 6 stands for the result figures. -/
def plFLOW : Nat := 0
def plLAW : Nat := 1
def plCG : Nat := 2
def plFACT : Nat := 3
def plTHERM : Nat := 4
def plWARM : Nat := 5
def plRES : Nat := 6

/-- A value that may have clamped at a place. -/
def note (pl : Nat) (r : Int × Bool) : Job.M Int := do
  if r.2 then modify fun n => { n with sat := n.sat ||| 2 ^ pl }
  return r.1

/-- `sat32` at a place. -/
def satM (pl : Nat) (v : Int) : Job.M Int := note pl (sat32 v)
/-- `wb` at a place. -/
def wbM (pl : Nat) (v s : Int) : Job.M Int := note pl (wb v s)
/-- `div32` at a place. -/
def divM (pl : Nat) (n d s : Int) : Job.M Int := note pl (div32 n d s)

/-- An element of an array, 0 past its end. -/
def at0 (a : Array Int) (i : Nat) : Int := a.getD i 0

/-! ### Descriptors and shifts (R60, R65) -/

/-- Word `i` of a descriptor. -/
def dw (d : List Nat) (i : Nat) : Nat := d.getD i 0

def dKind (d : List Nat) : Nat := bitsOf 3 0 (dw d 0)
def dWarm (d : List Nat) : Bool := (dw d 0).testBit 5
def dJacobi (d : List Nat) : Bool := (dw d 0).testBit 6
def dReuse (d : List Nat) : Bool := (dw d 0).testBit 7
def dTag (d : List Nat) : Nat := bitsOf 31 16 (dw d 0)
def dNewton (d : List Nat) : Nat := bitsOf 4 0 (dw d 1)
def dCg (d : List Nat) : Nat := bitsOf 25 16 (dw d 1)
def dECond (d : List Nat) : Int := sInt 8 (bitsOf 7 0 (dw d 5))
def dEDinv (d : List Nat) : Int := sInt 8 (bitsOf 15 8 (dw d 5))
def dDelta (d : List Nat) : Int := sInt 32 (dw d 6)
def dFloor (d : List Nat) : Int := sInt 32 (dw d 7)

/-- The shifts of R65. -/
structure Shifts where
  a1 : Int
  a2 : Int
  a3 : Int
  sd : Int
  sd2 : Int
  sy : Int
  syp : Int
  sdi : Int
  sz : Int
  deriving DecidableEq, Repr

/-- The exponent of a class in a model. -/
def expOf (md : Model) (c : Nat) : Int := md.exps.getD c 0

/-- The shifts of a model and a descriptor (R32, R65). -/
def shiftsOf (md : Model) (d : List Nat) : Shifts :=
  let e := expOf md
  { a1 := e 0 - e 3 - 2 * e 1, a2 := e 0 - e 4 - e 1, a3 := e 0 - e 5 - 2 * e 1,
    sd := e 4 - e 3 - e 1 - 1, sd2 := e 4 - e 5 - e 1 - 1, sy := -dECond d - e 4,
    syp := e 1 - dECond d - e 0, sdi := -dEDinv d - dECond d, sz := e 0 - dEDinv d - e 1 }

/-- Whether every shift is within its range (R65). -/
def Shifts.ok (h : Shifts) : Bool :=
  ([h.a1, h.a2, h.a3, h.sd2, h.sy, h.syp, h.sdi, h.sz].all fun x => decide (0 ≤ x) && decide (x ≤ 62)) &&
    decide (0 ≤ h.sd) && decide (h.sd ≤ 61)

/-! ### The branch law (R68) -/

/-- Everything a hydraulic solve works on. -/
structure SolveIn where
  md : Model
  desc : List Nat
  sh : Shifts
  snap : Snapshot
  inServ : List Bool
  held : List Bool
  deriving Repr

/-- The pressure drop and the slope of a branch at a flow, saturating at a place (R68). -/
def branchLaw (pl : Nat) (x : SolveIn) (b : MBranch) (q : Int) : Job.M (Int × Int) := do
  let h := x.sh
  let lam := decide ((q.natAbs : Int) < b.qLin)
  let a : Int := if lam then b.qLin else q.natAbs
  let f ← wbM pl (b.resis * a * q) h.a1
  let g ← wbM pl (b.resis * a) (h.sd + if lam then 1 else 0)
  let (hd, d) ← match b.kind with
    | 1 => do
      let p := x.md.pumps.getD b.attach default
      let s := x.snap.speed.getD b.attach 0
      let s2 ← wbM pl (s * s) 30
      let t1 ← wbM pl (p.h1 * s) 30
      let c0 ← wbM pl (p.h0 * s2) 30
      let c1 ← wbM pl (t1 * q) h.a2
      let c2 ← wbM pl (p.h2 * q * q) h.a3
      let head ← satM pl (c0 + c1 + c2)
      let hh ← satM pl (f + b.dpStatic - head)
      let e2 ← wbM pl (p.h2 * q) h.sd2
      let dd ← satM pl (g - t1 - e2)
      pure (hh, dd)
    | 2 => do
      let v := x.md.valves.getD b.attach default
      let ps := clampInt 0 one30 (x.snap.pos.getD b.attach 0)
      let j := ps.toNat / 2 ^ 27
      let φ : Int := ps.toNat % 2 ^ 27
      let k ← if j = 8 then pure (v.kv.getD 8 0) else do
        let w ← wbM pl ((v.kv.getD (j + 1) 0 - v.kv.getD j 0) * φ) 27
        satM pl (v.kv.getD j 0 + w)
      let k2 ← wbM pl (k * k) 30
      let fv ← divM pl f k2 30
      let hh ← satM pl (fv + b.dpStatic)
      let dd ← divM pl g k2 30
      pure (hh, dd)
    | _ => do
      let hh ← satM pl (f + b.dpStatic)
      pure (hh, g)
  return (hd, max d (dFloor x.desc))

/-- The given flow of a branch (R69). -/
def givenFlow (x : SolveIn) (b : MBranch) : Int :=
  match b.kind with
  | 3 => x.snap.subQ.getD b.attach 0
  | 4 => x.snap.plantQ.getD b.attach 0
  | 5 => x.snap.storeQ.getD b.attach 0
  | _ => 0

/-! ### The system of one Newton step (R69) -/

/-- The branch pass: y and u of every branch, 0 for a branch out of service. -/
def branchPass (x : SolveIn) (blocked : Array Bool) (q : Array Int) : Job.M (Array Int × Array Int) := do
  let mut ys : Array Int := #[]
  let mut us : Array Int := #[]
  for (b, i) in x.md.branches.zipIdx do
    if !x.inServ.getD i false then
      ys := ys.push 0
      us := us.push 0
    else if !conducts b.kind || blocked.getD i false then
      ys := ys.push 0
      us := us.push (if blocked.getD i false then 0 else givenFlow x b)
    else
      let (h, d) ← branchLaw plLAW x b (at0 q i)
      let y ← divM plLAW 1 d x.sh.sy
      let w ← wbM plLAW (y * h) x.sh.syp
      let u ← satM plLAW (at0 q i - w)
      ys := ys.push y
      us := us.push u
  return (ys, us)

/-- The solved nodes in index order. -/
def solvedNodes (x : SolveIn) : List Nat := (List.range x.md.nodes.length).filter fun n => !x.held.getD n false

/-- The branches at a node, by index with the branch. -/
def branchesAt (md : Model) (n : Nat) : List (MBranch × Nat) := md.branches.zipIdx.filter fun p => p.1.fromN = n || p.1.toN = n

/-- The other end of a branch. -/
def otherEnd (b : MBranch) (n : Nat) : Nat := if b.fromN = n then b.toN else b.fromN

/-- A row of the system: the node, the diagonal, the off-diagonals by column node ascending, the right side. -/
structure SysRow where
  node : Nat
  diag : Int
  offs : List (Nat × Int)
  rhs : Int
  deriving DecidableEq, Repr

/-- The assembly of J and b; the pattern holds every pair of solved nodes that a branch of the image joins (R69, R72). -/
def assemble (x : SolveIn) (ys us p : Array Int) : Job.M (List SysRow) :=
  (solvedNodes x).mapM fun n => do
    let bs := branchesAt x.md n
    let diag ← satM plLAW ((bs.map fun e => at0 ys e.2).sum)
    let cols := sortDedup ((bs.map fun e => otherEnd e.1 n).filter fun m => !x.held.getD m false)
    let offs ← cols.mapM fun m => do
      let v ← satM plLAW (-((bs.filter fun e => otherEnd e.1 n = m).map fun e => at0 ys e.2).sum)
      pure (m, v)
    let flows := (bs.map fun e => if e.1.fromN = n then at0 us e.2 else -at0 us e.2).sum
    let heldIn ← (bs.filter fun e => x.held.getD (otherEnd e.1 n) false).mapM fun e =>
      wbM plLAW (at0 ys e.2 * at0 p (otherEnd e.1 n)) x.sh.syp
    let rhs ← satM plLAW (-flows + heldIn.sum)
    return { node := n, diag := diag, offs := offs, rhs := rhs }

/-! ### Factorisation (R72, R73) -/

/-- A factor row under construction: the row and its t entries by column node. -/
structure FactRow where
  row : FactorRow
  ts : List (Nat × Int)
  deriving Repr

/-- The entry of an association list, 0 where absent. -/
def assoc0 (l : List (Nat × Int)) (k : Nat) : Int := ((l.find? fun e => e.1 = k).map (·.2)).getD 0

/-- One row of IC(0) from the rows before it. -/
def factorRow (x : SolveIn) (done : List FactRow) (r : SysRow) : Job.M FactRow := do
  let mut ls : List (Nat × Int) := []
  let mut ts : List (Nat × Int) := []
  for (k, v) in r.offs.filter (fun e => e.1 < r.node) do
    match done.find? fun f => f.row.node = k with
    | none => pure ()
    | some fk =>
      let acc := v * 2 ^ 30 - (ls.map fun e => e.2 * assoc0 fk.ts e.1).sum
      let w ← wbM plFACT acc 30
      let l ← divM plFACT w fk.row.d 30
      let t ← wbM plFACT (l * fk.row.d) 30
      ls := ls ++ [(k, l)]
      ts := ts ++ [(k, t)]
  let d0 ← wbM plFACT (r.diag * 2 ^ 30 - (ls.map fun e => e.2 * assoc0 ts e.1).sum) 30
  let d ← if d0 ≤ 0 || d0 * 2 ^ 20 < r.diag then do
      modify fun n => { n with pivots := n.pivots ++ [r.node] }
      satM plFACT (r.diag + dDelta x.desc)
    else pure d0
  let dinv ← divM plFACT 1 d x.sh.sdi
  return { row := { node := r.node, d := d, dinv := dinv, ls := ls }, ts := ts }

/-- The factor of a system. -/
def factorise (x : SolveIn) (rows : List SysRow) : Job.M Factor := do
  let fs ← rows.foldlM (fun done r => do let f ← factorRow x done r; pure (done ++ [f])) []
  return { hs := x.md.hs, rows := fs.map (·.row) }

/-- A preconditioner row: the node, its reciprocal pivot and its L entries. -/
abbrev PcRow := Nat × Int × List (Nat × Int)

/-- The Jacobi preconditioner (R72). -/
def jacobi (x : SolveIn) (rows : List SysRow) : Job.M (List PcRow) :=
  rows.mapM fun r => do let d ← divM plFACT 1 r.diag x.sh.sdi; pure (r.node, d, [])

/-- The preconditioner of a factor for the rows of a system: rows that the factor does not cover take the Jacobi
entry, and L entries of columns held now are dropped (R73). -/
def usePc (x : SolveIn) (f : Factor) (rows : List SysRow) : Job.M (List PcRow) :=
  rows.mapM fun r => match f.rows.find? fun e => e.node = r.node with
    | some e => pure (r.node, e.dinv, e.ls.filter fun l => !x.held.getD l.1 false)
    | none => do let d ← divM plFACT 1 r.diag x.sh.sdi; pure (r.node, d, [])

/-- precond(r): forward, diagonal and backward passes, over arrays by node index (R72). -/
def precond (x : SolveIn) (pc : List PcRow) (r : Array Int) : Job.M (Array Int) := do
  let n := x.md.nodes.length
  let mut u : Array Int := Array.replicate n 0
  for (i, _, ls) in pc do
    let v ← wbM plCG (at0 r i * 2 ^ 30 - (ls.map fun e => e.2 * at0 u e.1).sum) 30
    u := u.set! i v
  let mut s : Array Int := Array.replicate n 0
  let mut z : Array Int := Array.replicate n 0
  for (i, dinv, ls) in pc.reverse do
    let v ← wbM plCG (dinv * at0 u i) x.sh.sz
    let w ← wbM plCG (v * 2 ^ 30 - at0 s i) 30
    z := z.set! i w
    for (k, l) in ls do
      s := s.set! k (at0 s k + l * w)
  return z

/-! ### The inner solve (R71) -/

/-- `spmv` over arrays by node index. -/
def spmv (x : SolveIn) (rows : List SysRow) (v : Array Int) : Job.M (Array Int) := do
  let mut o : Array Int := Array.replicate x.md.nodes.length 0
  for r in rows do
    let w ← wbM plCG (r.diag * at0 v r.node + (r.offs.map fun e => e.2 * at0 v e.1).sum) x.sh.syp
    o := o.set! r.node w
  return o

/-- The dot product of two vectors over the solved nodes. -/
def dotOf (rows : List SysRow) (a b : Array Int) : Int := (rows.map fun r => at0 a r.node * at0 b r.node).sum

/-- a + wb(c·b, 24) or a − wb(c·b, 24) over the solved nodes. -/
def axpy (rows : List SysRow) (sub : Bool) (a : Array Int) (c : Int) (b : Array Int) : Job.M (Array Int) :=
  rows.foldlM (fun o r => do
    let w ← wbM plCG (c * at0 b r.node) 24
    let v ← satM plCG (if sub then at0 a r.node - w else at0 a r.node + w)
    pure (o.set! r.node v)) a

/-- The vectors of the conjugate gradients. -/
structure CgState where
  x : Array Int
  r : Array Int
  p : Array Int
  ρ : Int
  deriving Repr

/-- `n` iterations of pcg. -/
def cgLoop (x : SolveIn) (pc : List PcRow) (rows : List SysRow) : Nat → CgState → Job.M CgState
  | 0, c => pure c
  | n + 1, c => do
    let q ← spmv x rows c.p
    let σ := dotOf rows c.p q
    if c.ρ = 0 || σ ≤ 0 then
      if c.ρ ≠ 0 then modify fun t => { t with breakdown := true }
      cgLoop x pc rows n c
    else
      let α ← note plCG (divq c.ρ σ)
      let xs ← axpy rows false c.x α c.p
      let r ← axpy rows true c.r α q
      let z ← precond x pc r
      let ρ' := dotOf rows r z
      let β ← note plCG (divq ρ' c.ρ)
      let p ← axpy rows false z β c.p
      cgLoop x pc rows n { x := xs, r := r, p := p, ρ := ρ' }

/-- pcg from a start vector, for a number of iterations; the vector is by node index. -/
def pcg (x : SolveIn) (pc : List PcRow) (rows : List SysRow) (p0 : Array Int) (n : Nat) : Job.M (Array Int) := do
  let jx ← spmv x rows p0
  let r ← rows.foldlM (fun o r => do
    let v ← satM plCG (r.rhs - at0 jx r.node)
    pure (o.set! r.node v)) (Array.replicate x.md.nodes.length (0 : Int))
  let z ← precond x pc r
  let c ← cgLoop x pc rows n { x := p0, r := r, p := z, ρ := dotOf rows r z }
  return c.x

/-! ### The Newton procedure (R69, R70) -/

/-- What a job carries from step to step. -/
structure Iterate where
  p : Array Int
  q : Array Int
  blocked : Array Bool
  /-- The preconditioner of the job's latest factorisation or substitute. -/
  pc : Option (List PcRow)
  /-- The factor most recently completed, in this job or before it (R73). -/
  kept : Option Factor
  fallback : Bool
  jacobiFb : Bool
  done : Nat
  deriving Repr

/-- The flow update of a step. -/
def flowUpdate (x : SolveIn) (it : Iterate) (ys us : Array Int) : Job.M (Array Int × Array Bool) := do
  let mut qs : Array Int := #[]
  let mut bl := it.blocked
  for (b, i) in x.md.branches.zipIdx do
    if !x.inServ.getD i false then
      qs := qs.push 0
    else
      let dp ← satM plFLOW (at0 it.p b.fromN - at0 it.p b.toN)
      let q ← if at0 ys i = 0 then pure (at0 us i) else do
        let w ← wbM plFLOW (at0 ys i * dp) x.sh.syp
        satM plFLOW (at0 us i + w)
      if b.oneWay && conducts b.kind && q < 0 then
        qs := qs.push 0
        bl := bl.set! i true
      else qs := qs.push q
  return (qs, bl)

/-- The job is a study, whose factorisations are not kept (R73). -/
def SolveIn.study (x : SolveIn) : Bool := dKind x.desc = 1

/-- The substitute for an abandoned factorisation: the kept factor if it is of the current H_S, else Jacobi (R73). A study
takes the factor that was kept when its factorisation was abandoned. -/
def substitutePc (x : SolveIn) (it : Iterate) (then_ : Option Factor) (rows : List SysRow) : Job.M Iterate := do
  match (if x.study then then_ else it.kept).filter (·.hs = x.md.hs) with
  | some f =>
    let pc ← usePc x f rows
    return { it with pc := some pc, fallback := true }
  | none =>
    let pc ← jacobi x rows
    return { it with pc := some pc, fallback := true, jacobiFb := true }

/-- The preconditioner of a step: Jacobi, the ply's last factor (`refine`, R98), a factorisation, its substitute
(`abandoned` with the factor kept then), or the one in use (R69, R72, R73). After a Jacobi fallback the entries follow each
step's J. -/
def stepPc (x : SolveIn) (it : Iterate) (rows : List SysRow) (abandoned : Option (Option Factor)) (refine : Bool) :
    Job.M Iterate := do
  if dJacobi x.desc then
    let pc ← jacobi x rows
    return { it with pc := some pc }
  else if refine then
    match it.kept.filter (·.hs = x.md.hs) with
    | some f => let pc ← usePc x f rows; return { it with pc := some pc }
    | none => let pc ← jacobi x rows; return { it with pc := some pc }
  else if it.done = 0 || !dReuse x.desc then
    match abandoned with
    | some f => substitutePc x it f rows
    | none =>
      let f ← factorise x rows
      return { it with pc := some (f.rows.map fun r => (r.node, r.dinv, r.ls)),
                       kept := if x.study then it.kept else some f, jacobiFb := false }
  else if it.jacobiFb then
    let pc ← jacobi x rows
    return { it with pc := some pc }
  else return it

/-- The abandoned factorisations of a job: the Newton step of each, and the factor kept then. -/
abbrev Abandoned := List (Nat × Option Factor)

/-- The factor kept when the factorisation of a step was abandoned, if it was. -/
def abandonedIn (l : Abandoned) (step : Nat) : Option (Option Factor) := (l.find? fun e => e.1 = step).map (·.2)

/-- One whole Newton step. -/
def newtonStep (x : SolveIn) (refine : Bool) (cg : Nat) (abandoned : Abandoned) (it : Iterate) : Job.M Iterate := do
  let (ys, us) ← branchPass x it.blocked it.q
  let rows ← assemble x ys us it.p
  let it ← stepPc x it rows (abandonedIn abandoned (it.done + 1)) refine
  let p ← pcg x (it.pc.getD []) rows it.p cg
  let it := { it with p := p }
  let (q, bl) ← flowUpdate x it ys us
  return { it with q := q, blocked := bl, done := it.done + 1 }

/-- `n` Newton steps. -/
def newtonSteps (x : SolveIn) (refine : Bool) (cg : Nat) (abandoned : Abandoned) : Nat → Iterate → Job.M Iterate
  | 0, it => pure it
  | n + 1, it => do
    let it ← newtonStep x refine cg abandoned it
    newtonSteps x refine cg abandoned n it

/-- The part of a step that ran before a deadline discarded it: its notes and a completed factorisation stand (R82). -/
def partialStep (x : SolveIn) (refine : Bool) (abandoned : Abandoned) (sp : StopPoint) (it : Iterate) : Job.M Iterate := do
  if sp.phase = 0 then return it
  let (ys, us) ← branchPass x it.blocked it.q
  let rows ← assemble x ys us it.p
  if sp.phase = 1 then return it
  let jt ← stepPc x it rows (abandonedIn abandoned (it.done + 1)) refine
  let _ ← pcg x (jt.pc.getD []) rows it.p sp.its
  return { it with kept := jt.kept, fallback := jt.fallback }

/-- The hydraulic part of a job: all its steps, or those that completed before it stopped (R81, R82). -/
def hydraulic (x : SolveIn) (refine : Bool) (steps cg : Nat) (abandoned : Abandoned) (stop : Option StopPoint)
    (it : Iterate) : Job.M Iterate :=
  match stop.filter (·.phase ≤ 3) with
  | none => newtonSteps x refine cg abandoned steps it
  | some sp => do
    let it ← newtonSteps x refine cg abandoned (min sp.steps steps) it
    if it.done < steps then
      partialStep x refine abandoned (if sp.phase = 3 then { sp with its := cg } else { sp with its := min sp.its cg }) it
    else return it

/-! ### Thermal transport (R74 to R77) -/

/-- A rational n·2^e / d rounded half to even; d is positive. -/
def ratEven (n : Int) (d : Nat) (e : Int) : Int :=
  if e < 0 then divEven n (d * 2 ^ e.natAbs) else divEven (n * 2 ^ e.toNat) d

/-- M of a branch: FLOW units that fill it in one network cycle (R74). -/
def plugMass (md : Model) (netMs : Nat) (b : MBranch) : Nat :=
  let v := ratEven ((md.rho : Int) * b.volume * 1000) netMs (expOf md 8 - 16 - expOf md 1)
  if v ≤ 0 then 1 else min v.toNat (2 ^ 64 - 1)

/-- K of a branch in Q2.30 (R74). -/
def plugLoss (md : Model) (netMs : Nat) (b : MBranch) : Int :=
  min one30 (ratEven (b.ua * netMs) (1000 * md.rho * b.volume.toNat * md.cp.toNat)
    (expOf md 9 + 16 + 24 + 30 - expOf md 8))

/-- A fraction removed from the outlet end of a list that stands outlet first: what stays and what left. -/
def takePlugs : Int → List Plug → List Plug × List Plug
  | _, [] => ([], [])
  | φ, (f, t) :: ps =>
    if φ ≤ 0 then ((f, t) :: ps, [])
    else if f ≤ φ then
      let r := takePlugs (φ - f) ps
      (r.1, (f, t) :: r.2)
    else ((f - φ, t) :: ps, [(φ, t)])

/-- The place of the adjacent pair with least |ΔT| in a list that stands inlet first, ties nearest the inlet; |ΔT| is exact
(DESIGN CHOICE, log 68). -/
def mergeAt (ps : List Plug) : Nat :=
  let ds := (ps.zip (ps.drop 1)).map fun p => (p.1.2 - p.2.2).natAbs
  let best := ds.foldl min (ds.headD 0)
  (ds.findIdx? (· = best)).getD 0

/-- Merges until at most `mx` plugs stand; `n` bounds the merges. -/
def mergePlugs (mx : Nat) : Nat → List Plug → Job.M (List Plug × Bool)
  | 0, ps => pure (ps, false)
  | n + 1, ps => do
    if ps.length ≤ mx then return (ps, false)
    let i := mergeAt ps
    let a := ps.getD i (0, 0)
    let b := ps.getD (i + 1) (0, 0)
    let t ← divM plTHERM (a.1 * a.2 + b.1 * b.2) (a.1 + b.1) 0
    let (r, _) ← mergePlugs mx n (ps.take i ++ [(a.1 + b.1, t)] ++ ps.drop (i + 2))
    return (r, true)

/-- What the pass makes of one branch: its plugs from FROM to TO, T_OUT, FLUSHED and PLUG_MERGED. -/
structure PassOut where
  plugs : List Plug
  tOut : Int
  flushed : Bool
  merged : Bool
  deriving DecidableEq, Repr

/-- The pass over one transported branch (R75). -/
def thermBranch (md : Model) (netMs : Nat) (b : MBranch) (plugs : List Plug) (q tIn : Int) : Job.M PassOut := do
  let φ ← satM plTHERM (divEven ((q.natAbs : Int) * 2 ^ 30) (plugMass md netMs b))
  let k := plugLoss md netMs b
  let cooled ← plugs.mapM fun p => do
    let d ← satM plTHERM (p.2 - b.tAmb)
    let w ← wbM plTHERM (k * d) 30
    let t ← satM plTHERM (p.2 - w)
    pure (p.1, t)
  if φ > 0 then
    let inFirst := (φ, tIn) :: (if q > 0 then cooled else cooled.reverse)
    let (stay, gone) := takePlugs φ inFirst.reverse
    let tOut ← divM plTHERM ((gone.map fun p => p.1 * p.2).sum) φ 0
    let (ps, mg) ← mergePlugs b.plugsMax stay.length stay.reverse
    return { plugs := if q > 0 then ps else ps.reverse, tOut := tOut, flushed := decide (one30 ≤ φ), merged := mg }
  else
    return { plugs := cooled, tOut := (cooled.getLast?.map (·.2)).getD 0, flushed := false, merged := false }

/-- The outlet temperature of a given-flow branch (R76). -/
def givenTemp (x : SolveIn) (baseT : Int) (b : MBranch) (q : Int) : Int :=
  match b.kind with
  | 3 => x.snap.subT.getD b.attach 0
  | 4 => x.snap.plantT.getD b.attach 0
  | _ => if q > 0 then x.snap.storeCold.getD b.attach 0
         else if q < 0 then x.snap.storeHot.getD b.attach 0 else baseT

/-- The node at the inlet and the node at the outlet of a branch for a flow. -/
def inletOf (b : MBranch) (q : Int) : Nat := if q < 0 then b.toN else b.fromN
def outletOf (b : MBranch) (q : Int) : Nat := if q < 0 then b.fromN else b.toN

/-- The state of the pass: node temperatures, which nodes are done, T_STALE, each branch's outcome, and how many branches
have run. -/
structure ThermState where
  t : Array Int
  done : Array Bool
  stale : Array Bool
  outs : Array (Option PassOut)
  ran : Nat
  deriving Repr

/-- The mean temperature of the inflow of a node, or none without inflow (R76). -/
def mixAt (x : SolveIn) (q tOut : Array Int) (n : Nat) : Option (Int × Nat) :=
  let ins := x.md.branches.zipIdx.filter fun e => at0 q e.2 ≠ 0 && outletOf e.1 (at0 q e.2) = n
  let w : Nat := (ins.map fun e => (at0 q e.2).natAbs).sum
  if ins.isEmpty then none
  else some ((ins.map fun e => ((at0 q e.2).natAbs : Int) * at0 tOut e.2).sum, w)

/-- The order of Kahn's algorithm, lowest index first; `edges` are (inlet, outlet) pairs (R77). -/
def kahnOrder (edges : List (Nat × Nat)) : Nat → List Nat → List Nat
  | 0, _ => []
  | _ + 1, [] => []
  | k + 1, left@(m :: _) =>
    let ready := left.find? fun n => edges.all fun e => e.2 ≠ n || !left.contains e.1
    let n := ready.getD m
    n :: kahnOrder edges k (left.filter (· ≠ n))

/-- The thermal pass over its first `limit` transported branches: the outcome of each, node temperatures and T_STALE (R75
to R77). -/
def thermalPass (x : SolveIn) (netMs : Nat) (isolated : List Bool) (base : BaseState) (plugs : List (List Plug))
    (q : Array Int) (limit : Nat) : Job.M ThermState := do
  let nb := x.md.branches.length
  let run := fun (b : MBranch) i tIn => thermBranch x.md netMs b (plugs.getD i []) (at0 q i) tIn
  let edges := (x.md.branches.zipIdx.filter fun e => conducts e.1.kind && at0 q e.2 ≠ 0).map fun e =>
    (inletOf e.1 (at0 q e.2), outletOf e.1 (at0 q e.2))
  let order := kahnOrder edges x.md.nodes.length (List.range x.md.nodes.length)
  let mut st : ThermState := { t := base.t.toArray, done := Array.replicate x.md.nodes.length false,
                               stale := Array.replicate x.md.nodes.length false, outs := Array.replicate nb none, ran := 0 }
  for n in order do
    for (b, i) in x.md.branches.zipIdx do
      if st.ran < limit && conducts b.kind && at0 q i ≠ 0 && outletOf b (at0 q i) = n then
        let src := inletOf b (at0 q i)
        let tIn := if st.done.getD src false then at0 st.t src else base.t.getD src 0
        let o ← run b i tIn
        st := { st with outs := st.outs.set! i (some o), ran := st.ran + 1 }
    if st.ran < limit then
      let tOut : Array Int := (x.md.branches.zipIdx.map fun e =>
        if conducts e.1.kind then ((st.outs.getD e.2 none).map (·.tOut)).getD 0
        else givenTemp x (base.tOut.getD e.2 0) e.1 (at0 q e.2)).toArray
      match mixAt x q tOut n with
      | none => st := { st with stale := st.stale.set! n true, done := st.done.set! n true }
      | some (s, w) =>
        if isolated.getD n false then st := { st with done := st.done.set! n true }
        else
          let t ← divM plTHERM s w 0
          st := { st with t := st.t.set! n t, done := st.done.set! n true }
  for (b, i) in x.md.branches.zipIdx do
    if st.ran < limit && conducts b.kind && at0 q i = 0 then
      let o ← run b i 0
      st := { st with outs := st.outs.set! i (some o), ran := st.ran + 1 }
  return st

end Sys2Proof.Machine
end

