-- ==== Sys2Proof/Machine/NetResult.lean ====
section
/-!
DEFINITION. The result of a job: its records and its header, and the mapping of start values (03 R67, R79, R80, R84,
R85, 02 R50).
-/
namespace Sys2Proof.Machine

/-- An element of a list of integers, 0 past its end. -/
def li (l : List Int) (i : Nat) : Int := l.getD i 0

/-- A flag of a list, false past its end. -/
def lb (l : List Bool) (i : Nat) : Bool := l.getD i false

/-! ### Held nodes and start values (R67, R85) -/

/-- The start values of a cold start (R85). -/
def coldP (md : Model) : List Int := md.nodes.map (·.pInit)
def coldQ (md : Model) : List Int := md.branches.map (·.qInit)
/-- The outlet temperature of a branch before it has had one: T_INIT of the TO_NODE of a store, of the FROM_NODE of any
other (R76, R78). -/
def tOutInit (md : Model) (b : MBranch) : Int := (md.nodes.getD (if b.kind = 5 then b.toN else b.fromN) default).tInit
/-- Temperatures while no committed state exists (R55, R76, R78). -/
def coldT (md : Model) : List Int := md.nodes.map (·.tInit)
def coldTOut (md : Model) : List Int := md.branches.map (tOutInit md)

/-- The state that a job without a committed state has behind it. -/
def coldBase (md : Model) : BaseState :=
  { p := coldP md, t := coldT md, q := coldQ md, tOut := coldTOut md, byId := none, sat := false }

/-- The pressure at which a FIXED node is held (R67). -/
def fixedP (n : MNode) (tagP : Int) : Int := if n.pTagValid then tagP else n.pFixed

/-- The start pressures of a job with every held node at its value: FIXED at the boundary, isolated at the last
committed value, a floating anchor at the value of the starting iterate (R67). -/
def heldStart (md : Model) (snap : Snapshot) (isolated : List Bool) (baseP start : List Int) : List Int :=
  md.nodes.zipIdx.map fun p =>
    if p.1.fixed then fixedP p.1 (li snap.nodeP p.2)
    else if lb isolated p.2 then li baseP p.2
    else li start p.2

/-- The held nodes: FIXED, isolated and floating anchors (R67). -/
def heldOf (md : Model) (isolated anchors : List Bool) : List Bool :=
  md.nodes.zipIdx.map fun p => p.1.fixed || lb isolated p.2 || lb anchors p.2

/-- A value rescaled from one exponent to another (R50). -/
def rescale (pl : Nat) (e e' : Int) (v : Int) : Job.M Int :=
  if e' ≤ e then satM pl (v * 2 ^ (e - e').toNat) else pure (roundEven v (e' - e))

/-- The value of a node or branch of identifier `id` in lists by index, if present. -/
def byIdent (ids : List Nat) (vs : List Int) (id : Nat) : Option Int :=
  (ids.findIdx? (· = id)).bind fun i => vs[i]?

/-- Committed values mapped from an old model to a new one at an activation: temperatures by NODE_ID and BRANCH_ID (R50),
pressures and flows by index where H_S and the counts are equal, else by identifier too (R85). A clamp of a warm-start value
is remembered for the job that starts from it. -/
def mapBase (old new : Model) (b : BaseState) : Job.M BaseState := do
  let oldN := old.nodes.map (·.id)
  let oldB := old.branches.map (·.id)
  let sameIx := old.hs = new.hs && oldN.length = new.nodes.length && oldB.length = new.branches.length
  let pick := fun (ids : List Nat) (vs : List Int) (id i : Nat) => if sameIx then vs[i]? else byIdent ids vs id
  let go := fun (cls : Nat) (v : Option Int) (d : Int) => match v with
    | some x => rescale plWARM (expOf old cls) (expOf new cls) x
    | none => pure d
  let p ← new.nodes.zipIdx.mapM fun e => go 0 (pick oldN b.p e.1.id e.2) e.1.pInit
  let q ← new.branches.zipIdx.mapM fun e => go 1 (pick oldB b.q e.1.id e.2) e.1.qInit
  let n ← get
  let t ← new.nodes.mapM fun e => go 2 (byIdent oldN b.t e.id) e.tInit
  let outs ← new.branches.mapM fun e => go 2 (byIdent oldB b.tOut e.id) (tOutInit new e)
  let nm := (new.nodes.filter fun n => oldN.contains n.id).length
  let bm := (new.branches.filter fun n => oldB.contains n.id).length
  return { p := p, t := t, q := q, tOut := outs, sat := b.sat || n.sat.testBit plWARM,
           byId := if sameIx then none else some (nm, new.nodes.length - nm, new.branches.length - bm) }

/-- The plugs that a branch starts with: one, at T_INIT of its FROM_NODE (R78); a given-flow branch has none (R76). -/
def coldBranch (md : Model) (b : MBranch) : List Plug :=
  if conducts b.kind then [(one30, (md.nodes.getD b.fromN default).tInit)] else []

/-- Plug tables mapped from an old model to a new one by BRANCH_ID (R78). A branch that has plugs now and had none, as one of
given flow, starts as a new one. Where merges reduce the count, the FROM_NODE end counts as the inlet for ties, as no flow
gives one (DESIGN CHOICE, log 68). -/
def mapPlugs (old new : Model) (plugs : List (List Plug)) : Job.M (List (List Plug)) :=
  new.branches.mapM fun b =>
    match old.branches.zipIdx.find? fun o => o.1.id = b.id && conducts o.1.kind with
    | none => pure (coldBranch new b)
    | some o =>
      if !conducts b.kind then pure []
      else do
        let ps ← (plugs.getD o.2 []).mapM fun p => do
          let t ← rescale plWARM (expOf old 2) (expOf new 2) p.2
          pure (p.1, t)
        let r ← mergePlugs b.plugsMax ps.length ps
        pure r.1

/-- The plug tables at a cold start (R78). -/
def coldPlugs (md : Model) : List (List Plug) := md.branches.map (coldBranch md)

/-- How a job starts: pressures, flows, the flags WARM_BAD, WARM_REFUSED and WARM_MAPPED, and the counts (R85). -/
structure WarmOut where
  p : List Int
  q : List Int
  bad : Bool
  refused : Bool
  mapped : Bool
  nMapped : Nat
  nUnmapped : Nat
  bUnmapped : Nat
  deriving DecidableEq, Repr

/-- A cold start. -/
def coldStart (md : Model) (bad refused : Bool) (nm nu bu : Nat) : WarmOut :=
  { p := coldP md, q := coldQ md, bad := bad, refused := refused, mapped := false,
    nMapped := nm, nUnmapped := nu, bUnmapped := bu }

/-- Too few nodes map (R85). -/
def tooFew (md : Model) (d : List Nat) (nm : Nat) : Bool :=
  decide ((nm : Int) * 2 ^ 30 < sInt 32 (dw d 8) * md.nodes.length)

/-- The start of a CYCLE job from the committed state behind it (R85). -/
def cycleStart (md : Model) (d : List Nat) (base : Option BaseState) : WarmOut :=
  match base with
  | some b =>
    if !dWarm d then coldStart md false false 0 0 0
    else
      let (nm, nu, bu) := b.byId.getD (md.nodes.length, 0, 0)
      if tooFew md d nm then { coldStart md false true nm nu bu with mapped := b.byId.isSome }
      else { p := b.p, q := b.q, bad := false, refused := false, mapped := b.byId.isSome,
             nMapped := nm, nUnmapped := nu, bUnmapped := bu }
  | none => coldStart md false false 0 0 0

/-- The record pairs (identifier, value) of a warm-start vector from a byte offset. -/
def vecPairs (v : List Byte) (off n : Nat) : List (Nat × Int) :=
  (List.range n).map fun i =>
    let r := v.drop (off + 8 * i)
    (leNat (r.take 4), sInt 32 (leNat ((r.drop 4).take 4)))

/-- The start of a STUDY job from its warm-start vector (R84, R85). -/
def studyStart (md : Model) (d : List Nat) (v : List Byte) : Job.M WarmOut := do
  if !dWarm d then return coldStart md false false 0 0 0
  let w := fun i => leNat ((v.drop (4 * i)).take 4)
  let nP := w 4
  let nQ := w 5
  if w 0 ≠ 0x514E5753 || nP > 16384 || nQ > 32768 || v.length < 32 + 8 * (nP + nQ) then
    return coldStart md true false 0 0 0
  let ps := vecPairs v 32 nP
  let qs := vecPairs v (32 + 8 * nP) nQ
  if !(ps.map (·.1)).Nodup || !(qs.map (·.1)).Nodup then return coldStart md true false 0 0 0
  let eP := sInt 8 (bitsOf 23 16 (w 1))
  let eQ := sInt 8 (bitsOf 31 24 (w 1))
  let sameIx := w 2 + w 3 * 2 ^ 32 = md.hs && nP = md.nodes.length && nQ = md.branches.length
  let pick := fun (l : List (Nat × Int)) (i id : Nat) =>
    if sameIx then (l[i]?).map (·.2) else (l.find? fun e => e.1 = id).map (·.2)
  let go := fun (e e' : Int) (v : Option Int) (dflt : Int) => match v with
    | some x => rescale plWARM e e' x
    | none => pure dflt
  let p ← md.nodes.zipIdx.mapM fun e => go eP (expOf md 0) (pick ps e.2 e.1.id) e.1.pInit
  let q ← md.branches.zipIdx.mapM fun e => go eQ (expOf md 1) (pick qs e.2 e.1.id) e.1.qInit
  let nm := (md.nodes.zipIdx.filter fun e => (pick ps e.2 e.1.id).isSome).length
  let bm := (md.branches.zipIdx.filter fun e => (pick qs e.2 e.1.id).isSome).length
  let nu := md.nodes.length - nm
  let bu := md.branches.length - bm
  if tooFew md d nm then return { coldStart md false true nm nu bu with mapped := !sameIx }
  return { p := p, q := q, bad := false, refused := false, mapped := !sameIx, nMapped := nm, nUnmapped := nu, bUnmapped := bu }

/-! ### The result (R79, R80) -/

/-- Σ a·Q at a node, exact. -/
def netFlow (md : Model) (q : Array Int) (n : Nat) : Int :=
  ((branchesAt md n).map fun e => if e.1.fromN = n then at0 q e.2 else -at0 q e.2).sum

/-- RES_LAW of an iterate (R79). -/
def resLaw (x : SolveIn) (p q : Array Int) (blocked : Array Bool) : Job.M Int := do
  let mut best : Int := 0
  for (b, i) in x.md.branches.zipIdx do
    if x.inServ.getD i false && conducts b.kind && !blocked.getD i false then
      let (h, _) ← branchLaw plRES x b (at0 q i)
      let dp ← satM plRES (at0 p b.fromN - at0 p b.toN)
      let r ← satM plRES (dp - h)
      best := max best r.natAbs
  return best

/-- RES_MASS of an iterate (R79). -/
def resMass (x : SolveIn) (q : Array Int) : Job.M Int := do
  let mut best : Int := 0
  for n in solvedNodes x do
    let v ← satM plRES (netFlow x.md q n)
    best := max best v.natAbs
  return best

/-- The thermal outcome of a job: node temperatures, T_STALE, T_OUT, FLUSHED, PLUG_MERGED and the plug tables. -/
structure ThermOut where
  t : List Int
  stale : List Bool
  tOut : List Int
  flushed : List Bool
  merged : List Bool
  plugs : List (List Plug)
  deriving DecidableEq, Repr

/-- Temperatures left as they were (R82, R80 for a STUDY); with no thermal pass that counts, T_STALE, FLUSHED and PLUG_MERGED
are 0 (DESIGN CHOICE, log 68). -/
def thermKeep (md : Model) (base : BaseState) (plugs : List (List Plug)) : ThermOut :=
  { t := base.t, stale := md.nodes.map fun _ => false, tOut := base.tOut,
    flushed := md.branches.map fun _ => false, merged := md.branches.map fun _ => false, plugs := plugs }

/-- The thermal pass as an outcome; given-flow branches keep no plugs that move (R75, R76). -/
def thermRun (x : SolveIn) (netMs : Nat) (isolated : List Bool) (base : BaseState) (plugs : List (List Plug))
    (q : Array Int) : Job.M ThermOut := do
  -- a store at rest keeps its last committed T_OUT, or T_INIT of its TO_NODE when none exists (R76)
  let st ← thermalPass x netMs isolated base plugs q (x.md.branches.length + 1)
  let out := fun i => st.outs.getD i none
  return { t := st.t.toList, stale := st.stale.toList,
           tOut := x.md.branches.zipIdx.map fun e => match out e.2 with
             | some o => o.tOut
             | none => givenTemp x (li base.tOut e.2) e.1 (at0 q e.2),
           flushed := x.md.branches.zipIdx.map fun e => ((out e.2).map (·.flushed)).getD false,
           merged := x.md.branches.zipIdx.map fun e => ((out e.2).map (·.merged)).getD false,
           plugs := x.md.branches.zipIdx.map fun e => ((out e.2).map (·.plugs)).getD (plugs.getD e.2 []) }

/-- Everything a result is made from. -/
structure ResultIn where
  outcome : Nat
  elapsed : Nat
  retried : Bool
  thermSkip : Bool
  cgDone : Nat
  cycle : Nat
  ht : Nat
  warm : WarmOut
  isolated : List Bool
  floating : List Bool
  anchors : List Bool
  /-- Flags carried over from a ply that the result refines (R98). -/
  orFlags : Nat
  /-- Substations' DEFAULTED flags, by substation index. -/
  defaulted : List Bool
  deriving Repr

/-- The header of a result, without its residuals and its records (R79). -/
def headOf (x : SolveIn) (r : ResultIn) (it : Iterate) (n : Notes) : NetState :=
  let flags := bNat n.breakdown * 2 ^ 11 + bNat r.thermSkip * 2 ^ 10 + bNat r.retried * 2 ^ 9 +
    bNat (r.floating.any id) * 2 ^ 8 + bNat (r.isolated.any id) * 2 ^ 7 + bNat (it.blocked.any id) * 2 ^ 6 +
    bNat (n.sat != 0) * 2 ^ 5 + bNat r.warm.bad * 2 ^ 4 + bNat r.warm.refused * 2 ^ 3 + bNat r.warm.mapped * 2 ^ 2 +
    bNat (!n.pivots.isEmpty) * 2 + bNat it.fallback
  { jobTag := dTag x.desc, refuse := 0, outcome := r.outcome, flags := flags ||| r.orFlags,
    nodesUnmapped := r.warm.nUnmapped, nodesMapped := r.warm.nMapped,
    pivotCount := n.pivots.length % 2 ^ 16, branchesUnmapped := r.warm.bUnmapped,
    cgDone := if it.done = 0 then 0 else r.cgDone, newtonDone := it.done,
    pivotLast := n.pivots.getLast?.getD 0xFFFF, pivotFirst := n.pivots.head?.getD 0xFFFF,
    resLaw := 0, resMass := 0, cycle := r.cycle, ht := r.ht, hs := x.md.hs, elapsed := r.elapsed,
    nodes := [], branches := [] }

/-- The result of an iterate (R79, R80). -/
def mkResult (x : SolveIn) (r : ResultIn) (it : Iterate) (th : ThermOut) : Job.M NetState := do
  let law ← resLaw x it.p it.q it.blocked
  let mass ← resMass x it.q
  let nodes ← x.md.nodes.zipIdx.mapM fun e => do
    let im ← satM plRES (netFlow x.md it.q e.2)
    let p := at0 it.p e.2
    pure { p := p, t := li th.t e.2, imbal := im,
           flags := bNat e.1.pTagValid * 64 + bNat (lb th.stale e.2) * 32 + bNat (decide (e.1.pMax < p)) * 16 +
             bNat (decide (p < e.1.pMin)) * 8 + bNat (lb r.anchors e.2) * 4 + bNat (lb r.floating e.2) * 2 +
             bNat (lb r.isolated e.2) : NodeRec }
  let branches ← x.md.branches.zipIdx.mapM fun e => do
    let dp ← satM plRES (at0 it.p e.1.fromN - at0 it.p e.1.toN)
    let q := at0 it.q e.2
    pure { q := q, tOut := li th.tOut e.2, dp := dp,
           flags := bNat (lb th.flushed e.2) * 32 + bNat (lb th.merged e.2) * 16 +
             bNat (e.1.kind = 3 && lb r.defaulted e.1.attach && lb x.inServ e.2) * 8 +
             bNat (decide (e.1.qMax < (q.natAbs : Int))) * 4 + bNat (it.blocked.getD e.2 false) * 2 +
             bNat (!lb x.inServ e.2) : BranchRec }
  let n ← get
  return { headOf x r it n with resLaw := law, resMass := mass, nodes := nodes, branches := branches }

/-- A header without records: the result of a job that solved nothing. -/
def emptyResult (d : List Nat) (outcome flags cycle ht hs elapsed : Nat) : NetState :=
  { jobTag := dTag d, refuse := 0, outcome := outcome, flags := flags, nodesUnmapped := 0, nodesMapped := 0,
    pivotCount := 0, branchesUnmapped := 0, cgDone := 0, newtonDone := 0, pivotLast := 0xFFFF, pivotFirst := 0xFFFF,
    resLaw := 0, resMass := 0, cycle := cycle, ht := ht, hs := hs, elapsed := elapsed, nodes := [], branches := [] }

/-- The bytes of a result: its header and its records (R79, R80). -/
def resultBytes (r : NetState) : List Byte :=
  let w := fun v => leBytes 4 v
  let i := fun v => leBytes 4 (uNat 32 v)
  w (r.jobTag * 2 ^ 16 + r.refuse * 16 + r.outcome) ++ w r.flags ++ w (r.nodesUnmapped * 2 ^ 16 + r.nodesMapped) ++
  w (r.pivotCount * 2 ^ 16 + r.branchesUnmapped) ++ w (r.cgDone * 2 ^ 16 + r.newtonDone) ++
  w (r.pivotLast * 2 ^ 16 + r.pivotFirst) ++ i r.resLaw ++ i r.resMass ++ leBytes 8 r.cycle ++ leBytes 8 r.ht ++
  leBytes 8 r.hs ++ w r.elapsed ++ w 0 ++
  r.nodes.flatMap (fun n => i n.p ++ i n.t ++ w n.flags ++ i n.imbal) ++
  r.branches.flatMap (fun b => i b.q ++ i b.tOut ++ i b.dp ++ w b.flags)

/-- The start values that a result leaves for the next job. -/
def baseOf (r : NetState) : BaseState :=
  { p := r.nodes.map (·.p), t := r.nodes.map (·.t), q := r.branches.map (·.q), tOut := r.branches.map (·.tOut),
    byId := none, sat := false }

end Sys2Proof.Machine
end

