-- ==== Sys2Proof/Machine/TimOps.lean ====
section
/-!
DEFINITION. Time bases: their values, their advance, and the source of TB1 (13 R338 to R345 R350 to R353).
-/
namespace Sys2Proof.Machine

/-! ### Unstated roundings -/

/-- A quotient as an integer. Where it is not exact, which of its two neighbours is taken is stated nowhere: a free
value chooses (assumption 8). -/
def divFree (s : State) (num : Int) (den : Nat) : Int × State :=
  if num % (den : Int) = 0 then (num / den, s)
  else
    let (v, s) := takeFree s
    (num / den + ((v % 2 : Nat) : Int), s)

/-! ### Values (R338, R341, R353) -/

/-- Units of 2⁻³⁹ ns per TIME cycle of a base with a rate adjustment (R338). -/
def rateOf (adj : Int) : Int := 2 ^ 40 + adj

/-- The largest rate adjustment. -/
def adjMax : Int := 549755813

/-- The rate adjustment of a domain's base, and that of TB7. -/
def domAdj (s : State) (d : Nat) : Int := sInt 32 (getFi s F.TIM_DOM_ADJ_VALUE d)
def tb7Adj (s : State) : Int := sInt 32 (getF s F.TIM_TB7_ADJ_ADJ)

/-- TB1 sources of TIM_STATUS.TB1_SRC. -/
def srcNONE : Nat := 0
def srcA : Nat := 1
def srcB : Nat := 2
def srcPEER : Nat := 3

/-- The source of TB1 now. -/
def tbSrc (s : State) : Nat := getF s F.TIM_STATUS_TB1_SRC

/-- The rate of the source base S (R345 for holdover). -/
def srcRate (s : State) : Int :=
  if tbSrc s = srcA then rateOf (domAdj s 0)
  else if tbSrc s = srcB then rateOf (domAdj s 1)
  else if tbSrc s = srcPEER then rateOf 0
  else rateOf s.tim.holdAdj

/-- TB6 (R350). -/
def tb6 (s : State) : Nat := ((s.tim.tb0 : Int) + s.tim.peer).toNat

/-- The base that a source names, at the present instant within its TIME cycle; in holdover S runs on by itself. -/
def srcBase (s : State) (src : Nat) : Int :=
  if src = srcA then s.tim.tb2 + s.tim.phase
  else if src = srcB then s.tim.tb3 + s.tim.phase
  else if src = srcPEER then tb6 s
  else s.tim.tb1 - s.tim.d1

/-- A receive stamp less the port's ingress delay, and a transmit stamp with its egress delay (R355). -/
def ingress (s : State) (p : Nat) (rx : Nat) : Int := rx - sInt 16 (getFi s F.TIM_PORT_DLY_INGRESS p)
def egressAt (s : State) (p : Nat) (tx : Nat) : Int := tx + sInt 16 (getFi s F.TIM_PORT_DLY_EGRESS p)

/-- The gate bit of an Ethernet port (R461). -/
def portGate (s : State) (p : Nat) : Bool :=
  let g := (getReg s R.CLK_GATE_PERI).toNat
  if p < 2 then g.testBit (13 + p) else if p < 6 then g.testBit (7 + p) else g.testBit 8

/-! ### The calendar as UTC seconds (R362, R353) -/

/-- A leap year (R362). -/
def leapYear (y : Nat) : Bool := y % 4 = 0 && (y % 100 != 0 || y % 400 = 0)

/-- The length of a month. -/
def monthDays (y m : Nat) : Nat := if m = 2 then (if leapYear y then 29 else 28) else if [4, 6, 9, 11].contains m then 30 else 31

/-- Days from 1970-01-01 to the first day of a year from 1970 on. -/
def yearDays (y : Nat) : Nat :=
  let n := y - 1
  365 * (y - 1970) + (n / 4 - 1969 / 4) - (n / 100 - 1969 / 100) + (n / 400 - 1969 / 400)

/-- The days of the year before a date. -/
def dayOfYear (y m d : Nat) : Nat := ((List.range (m - 1)).map fun i => monthDays y (i + 1)).sum + (d - 1)

/-- UTC seconds since 1970-01-01 of the calendar. -/
def rtcSeconds (r : Rtc) : Nat := (yearDays r.year + dayOfYear r.year r.month r.day) * 86400 + r.hour * 3600 + r.min * 60 + r.sec

/-- Nanoseconds of TB5 within its second, held below 10⁹ (R353, R367). -/
def rtcNs (s : State) : Nat :=
  if flag s F.RTC_STATUS_LEAP_SEC then 999999999
  else min 999999999 (((s.tim.tb0 : Int) - s.rtc.edge) / tbUnit).toNat

/-- TB5 in ns. -/
def tb5Ns (s : State) : Nat := rtcSeconds s.rtc * 1000000000 + rtcNs s

/-- TB4: TB1 sampled every 12.5 ns from the latest tick (R352). -/
def tb4Units (s : State) : Nat :=
  let tick := 250000 * tbUnit
  let step := 25 * tbUnit / 2
  s.tim.tb1 / tick * tick + s.tim.tb1 % tick / step * step

/-- A time base in whole ns (R341). -/
def tbValue (s : State) (b : Nat) : Nat :=
  match b with
  | 0 => tbNs s.tim.tb0
  | 1 => tbNs s.tim.tb1
  | 2 => tbNs s.tim.tb2
  | 3 => tbNs s.tim.tb3
  | 4 => tbNs (tb4Units s)
  | 5 => tb5Ns s
  | 6 => tbNs (tb6 s)
  | _ => tbNs s.tim.tb7

/-- TB0 in ns: the time since the TIM block left reset, for what runs on no other base. -/
def tb0Ns (s : State) : Nat := tbNs s.tim.tb0

/-! ### Registers (R359) -/

/-- TIM_TB1_RES, SLEWING and TIM_PEER_OFS. -/
def showTim (s : State) : State :=
  let r := s.tim.d1 / tbUnit
  let s := set64 s R.TIM_TB1_RES_LO R.TIM_TB1_RES_HI (uNat 64 r)
  let s := setF s F.TIM_STATUS_SLEWING (bNat (s.tim.d1 != 0))
  if flag s F.TIM_STATUS_PEER_VALID then
    setF s F.TIM_PEER_OFS_OFS (uNat 32 (clampInt (-2 ^ 31) (2 ^ 31 - 1) (((tb6 s : Int) - s.tim.tb1) / tbUnit)))
  else s

/-! ### Advance (R338, R342) -/

/-- How far S moves while TB1 moves by `d`, and Δ1 after it (R342). -/
def slew (sealed : Bool) (ppm : Nat) (d1 : Int) (d : Nat) : Int × Int :=
  if d1 = 0 || !sealed then (d, d1)
  else
    let dS : Int := (d * 1000000 : Nat) / (if 0 < d1 then (1000000 : Int) - ppm else 1000000 + ppm)
    let mv := (d : Int) - dS
    if d1.natAbs ≤ mv.natAbs then (d + d1, 0) else (dS, d1 + mv)

/-- Units of one whole turn of a base: 48 bits of seconds (R338). -/
def tbTurn : Nat := 2 ^ 48 * 1000000000 * tbUnit

/-- The whole TIME cycles that end while S moves by `dS`, and how far S has come in the next one. -/
def timeCycles (s : State) (dS : Int) : Int × Nat :=
  let d := (s.tim.phase : Int) + dS
  (d / srcRate s, (d % srcRate s).toNat)

/-- A base after `n` TIME cycles at a rate adjustment, with exact carries (R338). -/
def cycled (b : Nat) (n adj : Int) : Nat := ((b : Int) + n * rateOf adj).toNat % tbTurn

/-- Every time base moved while TB1 moves by `d` units: TB1 to its instant, and the others by the TIME cycles that end until
then (R338, assumption 13). -/
def advance (s : State) (d : Nat) : State :=
  let t := s.tim
  let (dS, d1) := slew (flag s F.TIM_STATUS_SEALED) (getF s F.TIM_CFG_SLEW_PPM) t.d1 d
  let (n, phase) := timeCycles s dS
  showTim { s with tim := { t with
    tb0 := cycled t.tb0 n 0, tb1 := (t.tb1 + d) % tbTurn, tb2 := cycled t.tb2 n (domAdj s 0), tb3 := cycled t.tb3 n (domAdj s 1),
    tb7 := cycled t.tb7 n (tb7Adj s), phase := phase, d1 := d1 } }

/-- A tick of the loop engine in ns (R116). -/
def tickNs : Nat := 250000
/-- The index of the latest tick (R116). -/
def tickNow (s : State) : Nat := nowNs s / tickNs

/-- The loop evaluations of the latest tick have run, so time may go on. -/
def tickDone (s : State) : Bool := tickNow s = s.tim.tick

/-- TB1 moved exactly to its next tick. -/
def toTick (s : State) : State := advance s ((tickNow s + 1) * tickNs * tbUnit - s.tim.tb1)

/-- TB1 stands at a tick whose loop evaluations are still to come. -/
def atTick (s : State) : Bool := nowNs s % tickNs = 0 && !tickDone s

/-! ### The source of TB1 (R342 to R345, R351) -/

/-- TB1 stepped while it is unsealed; its ticks go on from the new value (R344). -/
def stepTb1 (s : State) (v : Nat) : State :=
  { s with tim := { s.tim with tb1 := v, d1 := 0, tick := v / tbUnit / tickNs } }

/-- Δ1 changed: while TB1 is unsealed it steps onto its source instead (R344). -/
def setRes (s : State) (d1 : Int) : State :=
  if flag s F.TIM_STATUS_SEALED then showTim { s with tim := { s.tim with d1 := d1 } }
  else showTim (stepTb1 s ((s.tim.tb1 : Int) - d1).toNat)

/-- TB1 enters holdover (R345): S runs on at the rate its domain had when last LOCKED. -/
def enterHoldover (s : State) : State :=
  let adj := if tbSrc s = srcA then s.tim.domA.lockAdj else if tbSrc s = srcB then s.tim.domB.lockAdj else 0
  let s := { s with tim := { s.tim with holdAdj := adj } }
  evBit (setF (setF s F.TIM_STATUS_TB1_SRC 0) F.TIM_STATUS_HOLDOVER 1) F.TIM_EVENTS_HOLDOVER 4 []

/-- TB1 takes a source (R342, R343). -/
def setSource (s : State) (src : Nat) : State :=
  if src = tbSrc s then s
  else if src = srcNONE then enterHoldover s
  else
    let d := (s.tim.tb1 : Int) - srcBase s src
    let s := setF (setF { s with boot := { s.boot with tb1Seen := true } } F.TIM_STATUS_TB1_SRC src) F.TIM_STATUS_HOLDOVER 0
    evBit (bump (setRes s d) F.TIM_CNT_SWITCH_COUNT) F.TIM_EVENTS_SRC_SWITCH 3 []

/-- Domain states of R349. -/
def dsDISABLED : Nat := 0
def dsLISTENING : Nat := 1
def dsACQUIRING : Nat := 2
def dsLOCKED : Nat := 3
def dsHOLDOVER : Nat := 4
def dsINELIGIBLE : Nat := 5

/-- The state of a domain. -/
def domState (s : State) (d : Nat) : Nat := getFi s F.TIM_DOM_STAT_STATE d

/-- The source that R343 chooses. -/
def chooseSource (s : State) : Nat :=
  if roleOf s = roSYNCING || roleOf s = roSTANDBY then (if flag s F.TIM_STATUS_PEER_VALID then srcPEER else srcNONE)
  else
    let pref := getF s F.TIM_CFG_PREF
    let other := 1 - pref
    let p := domState s pref = dsLOCKED
    let o := domState s other = dsLOCKED
    if !flag s F.TIM_CFG_AUTO then (if p then pref + 1 else srcNONE)
    else if o && tbSrc s = other + 1 then other + 1
    else if p then pref + 1
    else if o then other + 1
    else srcNONE

/-- The choice of R343 made anew. -/
def reSource (s : State) : State := setSource s (chooseSource s)

/-- A base stepped by `d` units; Δ1 takes it up where the base is the source (R342). -/
def stepBase (s : State) (src : Nat) (d : Int) : State :=
  let t := s.tim
  let s := { s with tim := { t with tb2 := if src = srcA then ((t.tb2 : Int) + d).toNat else t.tb2,
                                     tb3 := if src = srcB then ((t.tb3 : Int) + d).toNat else t.tb3,
                                     peer := if src = srcPEER then t.peer + d else t.peer } }
  if tbSrc s = src then setRes s (s.tim.d1 - d) else showTim s

/-- TB1 counts as locked (R345): its source is a LOCKED domain, or PEER while the peer shows no penalty 8. -/
def tb1Locked (s : State) : Bool :=
  tbSrc s = srcA || tbSrc s = srcB || (tbSrc s = srcPEER && s.red.peerLocked)

end Sys2Proof.Machine
end

