-- ==== Sys2Proof/Machine/NsaOps.lean ====
section
/-!
DEFINITION. What the jobs of the NSA share: tags and boundary values, descriptor checks, posts, the mask, isolation,
commit and its registers (02 R42 R43 R53 R55, 03 R58 to R62 R79 to R86, 09 R227 R230, 12 R316).
-/
namespace Sys2Proof.Machine

/-! ### Periods (R16, R17) -/

/-- The network cycle in ms: that of the program, or its default with no program running (R16, R241). -/
def netMs (s : State) : Nat := match s.prog with | some p => p.netMs | none => 100
/-- The network cycle in ns. -/
def netNs (s : State) : Nat := netMs s * 1000000
/-- The dispatch cycle in ns. -/
def dispNs (s : State) : Nat := netNs s * (match s.prog with | some p => p.dispMult | none => 10)
/-- The number of the network cycle that runs now (R17). -/
def cycleNow (s : State) : Nat := nowNs s / netNs s
/-- The network-cycle instant after the present time (R53, R102, R115). -/
def nextCycle (s : State) : Nat := (cycleNow s + 1) * netNs s

/-- A request that the active module has accepted goes to the standby with the instant at which it applies (R284). -/
def forwardBody (s : State) (typ at_ : Nat) (body : List Byte) : State :=
  if roleOf s = roACTIVE then furovSend s (.forward typ at_ body) else s

/-! ### Tags -/

/-- The value of an input tag as a force-aware load returns it from the latest sample (R213, R259). -/
def inputTagD (s : State) (e : TagRec) : Dword :=
  match forceOn s.forcesEff 0 e.tag with
  | some f => tagConv e.typ f.value
  | none => tagConv e.typ (memLe s.inImg e.off (tagSize e.typ))

/-- The 32-bit value of a bound model tag; zero where the program declares no input tag of that index (R43). -/
def boundTag (s : State) (tag : Nat) : Int :=
  match tagOf s tag with
  | some e => if e.out then 0 else sInt 32 (inputTagD s e).toNat
  | none => 0

/-- The tags that a model binds (R43). -/
def boundTags (md : Model) : List Nat :=
  sortDedup ((md.nodes.filter (·.pTagValid)).map (·.pTag) ++ md.pumps.map (·.speedTag) ++ md.valves.map (·.posTag) ++
    md.stores.flatMap (fun e => [e.socTag, e.tColdTag, e.tHotTag, e.flowTag]) ++
    md.plants.flatMap (fun e => [e.heatTag, e.flowTag, e.tSupTag]))

/-- One severity-3 event for each bound tag that the program does not declare (R43). -/
def undeclaredEvents (s : State) (md : Model) : State :=
  forAll s ((boundTags md).filter fun t => match tagOf s t with | some e => e.out | none => true)
    fun s t => ev s blkNSA 0x86 3 [t]

/-! ### Boundary values (R20, R42, R43, R316) -/

/-- The session record of a substation that is usable for a snapshot (R42, R315). -/
def usable (recs : List (Nat × Session)) (e : MSub) : Option Session :=
  if e.hasSession then
    (alGet? recs e.session).filter fun r => r.state = 2 && !r.never && r.age < e.staleCycles && !r.crcFail &&
      !r.pipRepeat && !r.pipJump
  else none

/-- A snapshot without a model (R52). -/
def bareSnap (s : State) (k : Nat) : Snapshot :=
  { cycle := k, hs := 0, time := nowNs s, subQ := [], subT := [], subDef := [], speed := [], pos := [], plantQ := [],
    plantT := [], storeQ := [], storeCold := [], storeHot := [], storeSoc := [], nodeP := [] }

/-- A snapshot with the boundary values that session records give (R42). -/
def snapSubs (md : Model) (recs : List (Nat × Session)) (sn : Snapshot) : Snapshot :=
  let us := md.subs.map fun e => (e, usable recs e)
  { sn with
    subQ := us.map fun u => match u.2 with
      | some r => (sat32 (ratEven (sInt 32 r.q * md.rho) 1000 (-32 - expOf md 1))).1
      | none => u.1.qDefault,
    subT := us.map fun u => match u.2 with
      | some r => (wb (sInt 32 r.tr) (expOf md 2 + 16)).1
      | none => u.1.tRetDefault,
    subDef := us.map fun u => u.2.isNone }

/-- A snapshot with the boundary values that the tags of the input sample give (R43). -/
def snapTags (s : State) (md : Model) (sn : Snapshot) : Snapshot :=
  let tg := boundTag s
  { sn with
    speed := md.pumps.map fun e => tg e.speedTag, pos := md.valves.map fun e => tg e.posTag,
    plantQ := md.plants.map fun e => tg e.flowTag, plantT := md.plants.map fun e => tg e.tSupTag,
    storeQ := md.stores.map fun e => tg e.flowTag, storeCold := md.stores.map fun e => tg e.tColdTag,
    storeHot := md.stores.map fun e => tg e.tHotTag, storeSoc := md.stores.map fun e => tg e.socTag,
    nodeP := md.nodes.map fun e => if e.pTagValid then tg e.pTag else 0 }

/-- The boundary values of the active model from the frozen session records and the input sample (R20 steps 1 and 2). -/
def snapshotOf (s : State) (md : Model) (recs : List (Nat × Session)) (k : Nat) : Snapshot :=
  snapTags s md (snapSubs md recs { bareSnap s k with hs := md.hs })

/-- The snapshot that is still open, changed. -/
def modOpen (s : State) (f : Model → Snapshot → Snapshot) : State :=
  match s.nsa.model with
  | some md => { s with nsa := { s.nsa with open_ := s.nsa.open_.map (f md) } }
  | none => s

/-- The open snapshot takes the field sample of its instant (R20 step 2, R401). -/
def openTags (s : State) : State := modOpen s fun md sn => if sn.time = nowNs s then snapTags s md sn else sn

/-! ### Descriptors (R60, R61, R90, R91) -/

/-- Reserved bits of a descriptor by kind (REFUSE_CODE 5). -/
def descReserved (d : List Nat) : Bool :=
  let z := fun i hi lo => bitsOf hi lo (dw d i) = 0
  z 0 15 8 && z 0 4 4 && z 1 31 26 && z 1 15 5 &&
  match dKind d with
  | 2 => z 5 31 16 && z 11 31 16 && z 15 27 26
  | 5 => z 13 31 8
  | _ => z 5 31 16 && [11, 12, 13, 14, 15].all fun i => dw d i = 0

/-- The fields of a ply descriptor (R90). -/
def plyFields (d : List Nat) : Bool :=
  ((List.range 8).all fun c =>
    let p := bitsOf (2 * c + 1) (2 * c) (dw d 11)
    p ≤ 1 || (p = 2 && c ≤ 1)) &&
  ([12, 13, 14].all fun i => decide (0 < sInt 32 (dw d i))) &&
  bitsOf 31 28 (dw d 15) ≤ 4 && (bitsOf 31 28 (dw d 15) = 0 || (1 ≤ bitsOf 25 16 (dw d 15) && bitsOf 25 16 (dw d 15) ≤ 1000)) &&
  2000 ≤ bitsOf 15 0 (dw d 15) && bitsOf 15 0 (dw d 15) ≤ 4500

/-- The fields of a dispatch descriptor; `pd` is the dispatch cycle in µs (R91). -/
def dispFields (d : List Nat) (pd : Nat) : Bool :=
  dJacobi d && !dReuse d && 1 ≤ dCg d && dCg d ≤ 1000 && dNewton d = 1 && 1000 ≤ dw d 2 && dw d 2 ≤ pd - 1000 &&
  ([3, 4, 5, 6, 7, 8, 9, 10].all fun i => dw d i = 0) && dw d 11 % 64 = 0 && dw d 12 % 64 = 0 &&
  1 ≤ bitsOf 7 0 (dw d 13) && bitsOf 7 0 (dw d 13) ≤ 96 && decide (0 < sInt 32 (dw d 14)) && decide (0 < sInt 32 (dw d 15))

/-- The bytes of a study's result block. -/
def studyBlockLen (md : Model) : Nat := 64 + 16 * (md.nodes.length + md.branches.length)

/-- The lowest REFUSE_CODE that applies to a descriptor, 0 for none, among the kinds allowed (R61, R79). -/
def descRefuse (s : State) (d : List Nat) (kinds : List Nat) : Nat :=
  let k := dKind d
  let p := netMs s * 1000
  let dl := dw d 2
  if !kinds.contains k then 1
  else if k ≠ 5 && (dNewton d < 1 || 16 < dNewton d || dCg d < 1 || 1000 < dCg d) then 2
  else if k ≠ 5 && (match s.nsa.model with | some md => !(shiftsOf md d).ok | none => false) then 3
  else if (k = 0 && (dl < 1000 || p - 2000 < dl || dw d 3 + 500 > dl)) ||
      (k = 1 && (dl < 1000 || 60000000 < dl)) ||
      (k = 2 && (dl < 1000 || p - 1000 < dl || dw d 3 + 500 > dl)) then 4
  else if !descReserved d then 5
  else if k = 1 && (dw d 10 % 64 ≠ 0 || userSize ≤ dw d 10 || (dWarm d && (dw d 9 % 64 ≠ 0 || userSize < dw d 9 + 32)) ||
      (match s.nsa.model with | some md => userSize < dw d 10 + studyBlockLen md | none => false)) then 6
  else if k = 1 && 4 ≤ s.nsa.studies.length then 7
  else if (k = 2 && !plyFields d) || (k = 5 && !dispFields d (dispNs s / 1000)) then 8
  else if k ≤ 2 && (decide (dDelta d ≤ 0) || decide (dFloor d ≤ 0) ||
      (k ≠ 2 && (decide (sInt 32 (dw d 8) < 0) || decide (one30 < sInt 32 (dw d 8))))) then 9
  else 0

/-! ### Posts (R227, R230) -/

/-- A completion record without data or bytes. -/
def recordOf (ticket engine fn status code data : Nat) : PostItem :=
  { ticket := ticket, engine := engine, fn := fn, status := status, code := code, data := data, duePeriod := 0,
    dueTime := 0, isStudy := false, dest := 0, bytes := [], read := none, userOff := 0, userBytes := [] }

/-- A record that waits for the task's posts: it is due at the start of the period after the one of acceptance. -/
def addPost (s : State) (task : Nat) (p : PostItem) : State :=
  modTask s (taskIx task) fun k => { k with posts := k.posts ++ [{ p with duePeriod := k.pidx + 1 }] }

/-- ACCEPTED, or REFUSED with a code where it is not 0. -/
def reply (s : State) (task ticket engine fn code : Nat) : State :=
  addPost s task (recordOf ticket engine fn (if code = 0 then 0 else 2) code 0)

/-- Word `i` of a body. -/
def bodyW (b : List Byte) (i : Nat) : Nat := leNat ((b.drop (4 * i)).take 4)

/-- The words of a body. -/
def bodyWords (b : List Byte) : List Nat := (List.range (b.length / 4)).map (bodyW b)

/-! ### In-service branches and isolation (R53, R55) -/

/-- The in-service bitmap in force (R53). -/
def inServNow (s : State) (md : Model) : List Bool :=
  md.branches.zipIdx.map fun p => p.1.enabled && !s.nsa.mask.contains p.2

/-- Mask bits written (R53): bit value 1 takes the branch out of service. -/
def applyMaskWrite (n : Nat) (mask : List Nat) (first : Nat) (bits : List Bool) : List Nat :=
  let out := bits.zipIdx.filterMap fun p => if p.1 && first + p.2 < n then some (first + p.2) else none
  sortDedup ((mask.filter fun i => i < first || first + bits.length ≤ i) ++ out)

/-- The isolation analysis (R55): the set in force, and the events of its growth and shrinkage against `old`. -/
def isolationAnalysis (s : State) (md : Model) (old : List Bool) : State :=
  let iso := isolatedOf md (inServNow s md)
  let grew := iso.zipIdx.any fun p => p.1 && !lb old p.2
  let shrank := old.zipIdx.any fun p => p.1 && !lb iso p.2
  let s := { s with nsa := { s.nsa with isolated := iso, isoDue := false } }
  let s := if grew then ev s blkNSA 0x87 4 [] else s
  if shrank then ev s blkNSA 0x88 2 [] else s

/-! ### Registers of a committed state -/

/-- The branches that the service mask takes out, with their BRANCH_IDs (R53, R56). -/
def setMask (s : State) (md : Model) (mask : List Nat) : State :=
  { s with nsa := { s.nsa with mask := mask, maskIds := mask.filterMap fun i => (md.branches[i]?).map (·.id) } }

/-- A model's SERIAL and H_S shown, or their absence (R46, R88). -/
def showModel (s : State) : State :=
  match s.nsa.model with
  | some md => set64 (setF (setF s F.NSA_STATUS_NO_MODEL 0) F.NSA_MODEL_SERIAL_SERIAL md.serial) R.NSA_HS_LO R.NSA_HS_HI md.hs
  | none => set64 (setF (setF s F.NSA_STATUS_NO_MODEL 1) F.NSA_MODEL_SERIAL_SERIAL 0) R.NSA_HS_LO R.NSA_HS_HI 0

/-- Slot states of NSA_MODEL_STATUS (R46). -/
def slEMPTY : Nat := 0
def slLOADING : Nat := 1
def slVALIDATING : Nat := 2
def slVALID : Nat := 3
def slINVALID : Nat := 4
def slACTIVE : Nat := 5

/-- The field of a slot's state. -/
def slotField (slot : Nat) : Fld := if slot = 0 then F.NSA_MODEL_STATUS_SLOT_A_STATE else F.NSA_MODEL_STATUS_SLOT_B_STATE

/-- The state of a model slot. -/
def slotState (s : State) (slot : Nat) : Nat := getF s (slotField slot)

/-- The MRAM base of a model slot (R28, R488). -/
def modelSlotBase (slot : Nat) : Nat := 0x46000000 + slot * 0x800000

/-- Notes of a job that is not a ply shown in NSA_SAT and NSA_EVENTS; a ply shows none (R88, R95). -/
def showNotes (s : State) (n : Notes) : State :=
  let s := setReg s R.NSA_SAT (getReg s R.NSA_SAT ||| BitVec.ofNat 32 (n.sat % 64))
  let s := if n.breakdown then setF s F.NSA_EVENTS_BREAKDOWN 1 else s
  if n.pivots.isEmpty then s else setF s F.NSA_EVENTS_PIVOT_REG 1

/-- What a job notes in the counters whatever its kind (R88, R95). -/
def countNotes (s : State) (n : Notes) : State := bumpBy s F.NSA_CNT_PIVOT_COUNT 0 n.pivots.length

/-- A job that ended with OUTCOME 1 (R88). -/
def countDeadline (s : State) : State := bump (setF s F.NSA_EVENTS_DEADLINE 1) F.NSA_CNT_DEADLINE_COUNT

/-- A result becomes committed state k (R20, R79, R88, R289). -/
def commitState (s : State) (r : NetState) (plugs : List (List Plug)) : State :=
  let s := { s with nsa := { s.nsa with committed := some r, base := some (baseOf r), plugs := plugs, hyd := none,
                                        cycleOpen := none } }
  let s := setF s F.NSA_STATUS_HYD_BUSY 0
  let s := set64 (set64 s R.NSA_CYCLE_LO R.NSA_CYCLE_HI r.cycle) R.NSA_HT_LO R.NSA_HT_HI r.ht
  digestUnit s 1 0 r.cycle (resultBytes r)

/-- µs from an instant in ns to another. -/
def usSince (start now : Nat) : Nat := (now - start) / 1000

end Sys2Proof.Machine
end

