-- ==== Sys2Proof/Machine/NsaJobs.lean ====
section
/-!
DEFINITION. The jobs of the NSA: their start, their computation and their ends (02 R50, 03 R58 to R86, 04 R92 to
R100).
-/
namespace Sys2Proof.Machine

/-! ### Computation -/

/-- What a job's model, descriptor, boundary and in-service set make of the solver's input, with its floating sets. -/
structure Setup where
  x : SolveIn
  floating : List Bool
  anchors : List Bool
  deriving Repr

/-- The setup of a job on a model. -/
def setupOf (md : Model) (j : Job) (desc : List Nat) (snap : Snapshot) : Setup :=
  let flt := floatingOf md j.inServ j.isolated
  let anc := anchorsOf md j.inServ flt
  { x := { md := md, desc := desc, sh := shiftsOf md desc, snap := snap, inServ := j.inServ,
           held := heldOf md j.isolated anc },
    floating := flt, anchors := anc }

/-- Flows with every branch out of service at 0 (R54). -/
def servedFlows (j : Job) (q : List Int) : Array Int :=
  (q.zipIdx.map fun p => if lb j.inServ p.2 then p.1 else 0).toArray

/-- The starting iterate of a job. -/
def startIterate (md : Model) (j : Job) (kept : Option Factor) (baseP p q : List Int) : Iterate :=
  { p := (heldStart md j.snap j.isolated baseP p).toArray, q := servedFlows j q,
    blocked := Array.replicate md.branches.length false, pc := none, kept := kept, fallback := false,
    jacobiFb := false, done := 0 }

/-- What a job has made by its end: the solver's input and its iterate, its start, its floating sets and its thermal
outcome. -/
structure JobRun where
  su : Setup
  warm : WarmOut
  it : Iterate
  th : ThermOut
  deriving Repr

/-- The notes that a job begins with: a clamp of its inputs counts as saturation and shows no place (R85, R93). -/
def Job.notes0 (j : Job) : Notes := { Notes.none with sat := if j.sat then 2 ^ plRES else 0 }

/-- A CYCLE, PLY or STUDY job up to its end: the hydraulic part, and the thermal pass where it runs; a pass that is
discarded leaves its notes (R81, R82). -/
def jobRun (md : Model) (netMs : Nat) (j : Job) (kept : Option Factor) (base : BaseState) (warm : Job.M WarmOut)
    (therm : Bool) : Job.M JobRun := do
  let su := setupOf md j j.desc j.snap
  let w ← warm
  let it0 := startIterate md j kept base.p w.p w.q
  let it ← hydraulic su.x false (dNewton j.desc) (dCg j.desc) j.abandoned j.stop it0
  let th ← if !therm then pure (thermKeep md base j.plugs)
    else if j.thermSkip then do
      let _ ← thermalPass su.x netMs j.isolated base j.plugs it.q (512 * j.thermDone)
      pure (thermKeep md base j.plugs)
    else thermRun su.x netMs j.isolated base j.plugs it.q
  return { su := su, warm := w, it := it, th := th }

/-- What the result of a job is made from. -/
def resultIn (j : Job) (therm : Bool) (elapsed outcome : Nat) (x : JobRun) : ResultIn :=
  { outcome := outcome, elapsed := elapsed, retried := j.retried,
    thermSkip := therm && j.thermSkip, cgDone := dCg j.desc, cycle := j.cycle, ht := j.ht, warm := x.warm,
    isolated := j.isolated, floating := x.su.floating, anchors := x.su.anchors, orFlags := 0,
    defaulted := j.snap.subDef }

/-- What a finished job leaves: its result, plug tables, factor, blocked set and notes. -/
structure JobOut where
  r : NetState
  plugs : List (List Plug)
  kept : Option Factor
  blocked : List Bool
  notes : Notes
  deriving Repr

/-- A CYCLE, PLY or STUDY job computed to its end with its result. -/
def runJob (md : Model) (netMs : Nat) (j : Job) (kept : Option Factor) (base : BaseState) (warm : Job.M WarmOut)
    (therm : Bool) (elapsed : Nat) : JobOut :=
  let prog : Job.M (NetState × JobRun) := do
    let x ← jobRun md netMs j kept base warm therm
    let r ← mkResult x.su.x (resultIn j therm elapsed (if j.stop.isSome || (therm && j.thermSkip) then 1 else 0) x) x.it x.th
    return (r, x)
  let ((r, x), n) := prog.run j.notes0
  { r := r, plugs := x.th.plugs, kept := x.it.kept, blocked := x.it.blocked.toList, notes := n }

/-- A job that stops where it stands: before the thermal pass, or after so many of its groups. -/
def Job.cutAt (j : Job) (sp : StopPoint) : Job :=
  if sp.phase = 4 then { j with thermSkip := true, thermDone := sp.its } else { j with stop := j.stop <|> some sp }

/-- A CYCLE, PLY or STUDY job that ends with OUTCOME 3 where it stands: its header, what it noted, and a completed
factorisation (R73, R79, R82). -/
def cutJob (md : Model) (netMs : Nat) (j : Job) (kept : Option Factor) (base : BaseState) (warm : Job.M WarmOut)
    (therm : Bool) (sp : StopPoint) (elapsed : Nat) : JobOut :=
  let j := j.cutAt sp
  let (x, n) := (jobRun md netMs j kept base warm (therm && sp.phase = 4)).run j.notes0
  { r := headOf x.su.x { resultIn j false elapsed 3 x with thermSkip := false } x.it n, plugs := x.th.plugs,
    kept := x.it.kept, blocked := x.it.blocked.toList, notes := n }

/-- The state behind a job: that of the latest committed state, or the model's cold values. -/
def baseFor (s : State) (md : Model) : BaseState := s.nsa.base.getD (coldBase md)

/-- The plug tables in force, or those of a cold start. -/
def plugsFor (s : State) (md : Model) : List (List Plug) := if s.nsa.plugs = [] then coldPlugs md else s.nsa.plugs

/-- The clusters that NSA_ALLOC gives a job of a kind that starts now (R86, R88). -/
def allocMask (s : State) (kind : Nat) : Nat :=
  match kind with
  | 1 => 0
  | 2 => getF s F.NSA_ALLOC_PLY
  | 5 => getF s F.NSA_ALLOC_DPO
  | _ => getF s F.NSA_ALLOC_HYD

/-- A new job of a kind at the present instant. Committed state k − 1 of a STUDY is the latest one at its acceptance (DESIGN
CHOICE, log 68). -/
def newJob (s : State) (md : Model) (kind cycle start : Nat) (desc : List Nat) (snap : Snapshot) : Job :=
  let serv := inServNow s md
  { kind := kind, desc := desc, start := start, stop := none, thermSkip := false, thermDone := 0, abandoned := [],
    retried := false, snap := snap, inServ := serv, isolated := s.nsa.isolated, ht := topoHash md serv, cycle := cycle,
    ticket := 0, task := 0, base := baseFor s md, plugs := plugsFor s md, vector := [], model := some md,
    mask := allocMask s kind, sat := false }

/-! ### Plies (R92, R93) -/

/-- The predictor of a class (R90). -/
def predOf (d : List Nat) (c : Nat) : Nat := bitsOf (2 * c + 1) (2 * c) (dw d 11)

/-- A forecast value at a time, rescaled to an exponent, when the set covers the time, and whether it clamped (R93). Times
compare as R340 says. -/
def fcstAt (series : List Int) (off nPts t0 t : Nat) (e e' : Int) : Option (Int × Bool) :=
  let d := tdiff t t0
  if d < 0 || ((nPts - 1 : Nat) : Int) * 900000000000 < d || nPts < 2 then none
  else
    let i := min (d.toNat / 900000000000) (nPts - 2)
    let v := fun n => (rescale plRES e e' (li series (off + n))).run Notes.none
    let w := divEven ((d - i * 900000000000) * 2 ^ 30) 900000000000
    let df := sat32 ((v (i + 1)).1 - (v i).1)
    let p := wb (df.1 * w) 30
    let r := sat32 ((v i).1 + p.1)
    some (r.1, (v i).2.sat != 0 || (v (i + 1)).2.sat != 0 || df.2 || p.2 || r.2)

/-- A boundary value predicted for the next cycle, and whether it clamped: `bk` of snapshot k, `bp` of snapshot k − 1 where
TREND may use it, `f` a forecast value (R93). -/
def predict (pred : Nat) (bk : Int) (bp : Option Int) (f : Option (Int × Bool)) : Int × Bool :=
  let trend := match bp with | some b => sat32 (2 * bk - b) | none => (bk, false)
  match pred, f with
  | 0, _ => (bk, false)
  | 2, some x => x
  | _, _ => trend

/-- The snapshot that a ply works on, every boundary value predicted for T of cycle k + 1, and whether a prediction
clamped (R93). -/
def predictSnap (s : State) (md : Model) (d : List Nat) (sn : Snapshot) : Snapshot × Bool :=
  let t := (sn.cycle + 1) * netNs s
  let pv := s.nsa.prevSnap.filter fun p => p.cycle + 1 = sn.cycle && p.hs = sn.hs
  let prev := fun (f : Snapshot → List Int) i => pv.map fun p => li (f p) i
  let fc := s.dpo.forecast.filter fun f => !s.dpo.invalid && f.hs = md.hs && !s.qhc.lost
  let cls := fun c (f : Snapshot → List Int) => (f sn).zipIdx.map fun p => predict (predOf d c) p.1 (prev f p.2) none
  let sub := fun c (f : Snapshot → List Int) (series : Forecast → List Int) (e : Forecast → Int) (cl : Nat) =>
    (f sn).zipIdx.map fun p =>
      if lb sn.subDef p.2 then (p.1, false)
      else predict (predOf d c) p.1 (if (pv.map fun q => lb q.subDef p.2).getD true then none else prev f p.2)
        (fc.bind fun g => fcstAt (series g) (p.2 * g.nPts) g.nPts g.t0 t (e g) (expOf md cl))
  let subQ := sub 0 (·.subQ) (·.flows) (·.eFlow) 1
  let subT := sub 1 (·.subT) (·.temps) (·.eTemp) 2
  let plantQ := cls 2 (·.plantQ)
  let plantT := cls 3 (·.plantT)
  let storeQ := cls 4 (·.storeQ)
  let storeCold := cls 5 (·.storeCold)
  let storeHot := cls 5 (·.storeHot)
  let nodeP := cls 6 (·.nodeP)
  let speed := cls 7 (·.speed)
  let pos := cls 7 (·.pos)
  let vals := fun (l : List (Int × Bool)) => l.map (·.1)
  ({ sn with
     cycle := sn.cycle + 1, time := t, subQ := vals subQ, subT := vals subT, plantQ := vals plantQ, plantT := vals plantT,
     storeQ := vals storeQ, storeCold := vals storeCold, storeHot := vals storeHot, nodeP := vals nodeP,
     speed := vals speed, pos := vals pos },
   (subQ ++ subT ++ plantQ ++ plantT ++ storeQ ++ storeCold ++ storeHot ++ nodeP ++ speed ++ pos).any (·.2))

/-- A ply kept for its check with its outcome (R94). -/
def keepPly (s : State) (p : PlyRec) : State :=
  setF { s with nsa := { s.nsa with ply := none, plyDone := some p } } F.NSA_STATUS_PLY_BUSY 0

/-- Step 7 of R20: ply k + 1 starts from committed state k (R92); a descriptor that fails the check at Tₖ ends it REFUSED
(R61, R94). -/
def plyStart (s : State) : State :=
  match s.nsa.model, s.nsa.plyDesc, s.nsa.snap with
  | some md, some d, some sn =>
    if s.dpo.plyOff || flag s F.NSA_MODEL_STATUS_PREPARING then s
    else
      let c := descRefuse s d [2]
      let p := predictSnap s md d sn
      let j := { newJob s md 2 (sn.cycle + 1) (nowNs s) d p.1 with sat := p.2 }
      if c ≠ 0 then
        keepPly s { result := { emptyResult d 2 0 j.cycle j.ht md.hs 0 with refuse := c }, blocked := [], plugs := [],
                    factor := none, snap := j.snap, thermRan := false, desc := d }
      else setF { s with nsa := { s.nsa with ply := some j, plyDone := none } } F.NSA_STATUS_PLY_BUSY 1
  | _, _, _ => s

/-- A ply starts warm: from committed state k (R92). -/
def plyWarm (md : Model) (j : Job) : WarmOut :=
  { p := j.base.p, q := j.base.q, bad := false, refused := false, mapped := false, nMapped := md.nodes.length,
    nUnmapped := 0, bUnmapped := 0 }

/-- The kept factor is that of the most recently completed factorisation (R73). -/
def keepFactor (s : State) (f : Option Factor) : State := { s with nsa := { s.nsa with factor := f } }

/-- A ply that ran to its end (R94); `elapsed` is its time in µs. -/
def plyEnd (s : State) (md : Model) (j : Job) (elapsed : Nat) : State :=
  let o := runJob md (netMs s) j s.nsa.factor j.base (pure (plyWarm md j)) true elapsed
  keepPly (keepFactor (countNotes s o.notes) o.kept)
    { result := o.r, blocked := o.blocked, plugs := o.plugs, factor := o.kept, snap := j.snap,
      thermRan := !j.thermSkip, desc := j.desc }

/-- What a ply cut off where it stands leaves: its pivots counted and its completed factorisation kept (R95). -/
def plyCut (s : State) (md : Model) (j : Job) (sp : StopPoint) (elapsed : Nat) : State × JobOut :=
  let o := cutJob md (netMs s) j s.nsa.factor j.base (pure (plyWarm md j)) true sp elapsed
  (keepFactor (countNotes s o.notes) o.kept, o)

/-! ### The CYCLE job (R58, R81) -/

/-- A CYCLE job as it computes: with the plug tables in force, and a clamp of the values that its warm start maps (R85). -/
def cycleJob (s : State) (md : Model) (j : Job) : Job :=
  { j with plugs := plugsFor s md, sat := j.sat || (dWarm j.desc && (baseFor s md).sat) }

/-- What a CYCLE job or a study notes, shown and counted, and the factorisation that a CYCLE job completed (R73, R88). -/
def jobNotes (s : State) (n : Notes) (warmBad : Bool) : State :=
  let s := countNotes (showNotes s n) n
  if warmBad then setF s F.NSA_EVENTS_WARM_REFUSED 1 else s

/-- The OUTCOME and ELAPSED of the latest CYCLE job (R88). -/
def showCycle (s : State) (outcome elapsed : Nat) : State :=
  setF (setF s F.NSA_STATUS_LAST_OUTCOME outcome) F.NSA_LAST_TIME_ELAPSED elapsed

/-- The CYCLE job's own end: its result becomes committed state k (R79, R81, R88). -/
def cycleEnd (s : State) (md : Model) (j : Job) (elapsed : Nat) : State :=
  let ws := cycleStart md j.desc s.nsa.base
  let o := runJob md (netMs s) (cycleJob s md j) s.nsa.factor (baseFor s md) (pure ws) true elapsed
  let s := keepFactor (jobNotes s o.notes (ws.refused || ws.bad)) o.kept
  let s := if o.r.outcome = 1 then countDeadline s else s
  commitState (showCycle s o.r.outcome elapsed) o.r o.plugs

/-- A CYCLE job ends with OUTCOME 3: no committed state (R82). -/
def cycleFault (s : State) (md : Model) (j : Job) (sp : StopPoint) (elapsed : Nat) : State :=
  let ws := cycleStart md j.desc s.nsa.base
  let o := cutJob md (netMs s) (cycleJob s md j) s.nsa.factor (baseFor s md) (pure ws) true sp elapsed
  let s := keepFactor (jobNotes s o.notes (ws.refused || ws.bad)) o.kept
  showCycle (setF { s with nsa := { s.nsa with hyd := none } } F.NSA_STATUS_HYD_BUSY 0) 3 elapsed

/-- After a squash, step 4b of R20 solves the cycle under the cycle descriptor (R100). -/
def startCycleJob (s : State) : State :=
  match s.nsa.hyd, s.nsa.cycleDesc with
  | some j, some d =>
    let j := { j with kind := 0, desc := d, stop := none, abandoned := [], thermSkip := false, thermDone := 0,
                      retried := false, mask := allocMask s 0 }
    { s with nsa := { s.nsa with hyd := some j } }
  | _, _ => s

/-! ### The commit test (R96 to R100) -/

/-- RES_Q of a ply against the measured boundary (R97). -/
def resQ (md : Model) (j : Job) (ply : PlyRec) (held : List Bool) (sn : Snapshot) : Int :=
  let x : SolveIn := { md := md, desc := ply.desc, sh := shiftsOf md ply.desc, snap := sn, inServ := j.inServ, held := held }
  let q : Array Int := (md.branches.zipIdx.map fun e =>
    if !lb j.inServ e.2 || lb ply.blocked e.2 then 0
    else if conducts e.1.kind then ((ply.result.branches[e.2]?).map (·.q)).getD 0
    else givenFlow x e.1).toArray
  ((solvedNodes x).map fun n => (((sat32 (netFlow md q n)).1).natAbs : Int)).foldl max 0

/-- The pressures of the check: the ply's at solved nodes and anchors, those of cycle k at FIXED and isolated nodes. -/
def checkPressures (md : Model) (j : Job) (ply : PlyRec) (base : BaseState) (sn : Snapshot) : Array Int :=
  (heldStart md sn j.isolated base.p (ply.result.nodes.map (·.p))).toArray

/-- RES_P of a ply against the measured boundary (R97). -/
def resP (md : Model) (j : Job) (ply : PlyRec) (base : BaseState) (sn : Snapshot) : Int :=
  let x : SolveIn := { md := md, desc := ply.desc, sh := shiftsOf md ply.desc, snap := sn, inServ := j.inServ, held := [] }
  ((resLaw x (checkPressures md j ply base sn) ((ply.result.branches.map (·.q)).toArray) ply.blocked.toArray).run Notes.none).1

/-- RES_T: the largest difference between predicted and measured temperatures (R97). -/
def resT (a b : Snapshot) : Int :=
  let d := fun (f : Snapshot → List Int) => ((f a).zip (f b)).map fun p => (((sat32 (p.1 - p.2)).1).natAbs : Int)
  ((d (·.subT)) ++ (d (·.plantT)) ++ (d (·.storeCold)) ++ (d (·.storeHot))).foldl max 0

/-- The residual of a check that did not reach its test. -/
def resNone : Nat := 0x7FFFFFFF

/-- The residuals of a check in the order of its tests, the first `n` of them computed (R96, R97). -/
def checkResiduals (s : State) (md : Model) (j : Job) (ply : PlyRec) (n : Nat) : Option Int × Option Int × Option Int :=
  let anc := anchorsOf md j.inServ (floatingOf md j.inServ j.isolated)
  (if 1 ≤ n then some (resP md j ply (baseFor s md) j.snap) else none,
   if 2 ≤ n then some (resQ md j ply (heldOf md j.isolated anc) j.snap) else none,
   if 3 ≤ n then some (resT ply.snap j.snap) else none)

/-- The first test of 1 to 5 that fails, 0 when they pass (R96). `plugErr`: an uncorrectable DRAM error touched the ply's
plug tables. -/
def earlyReason (s : State) (j : Job) (plugErr : Bool) : Nat :=
  match s.nsa.plyReason, s.nsa.plyDone with
  | some r, _ => r
  | none, none => 1
  | none, some ply =>
    if !ply.thermRan then 3
    else if ply.result.ht ≠ j.ht then 4
    else if ply.result.flags.testBit 9 || ply.result.outcome = 2 || ply.result.outcome = 3 || plugErr then 5
    else 0

/-- The reason of a check and the residuals it computed (R96). -/
def checkReason (s : State) (md : Model) (j : Job) (plugErr : Bool) : Nat × Option Int × Option Int × Option Int :=
  let r := earlyReason s j plugErr
  match s.nsa.plyDone with
  | none => (if r = 0 then 1 else r, none, none, none)
  | some ply =>
    if r ≠ 0 then (r, none, none, none)
    else
      let d := s.nsa.plyDesc.getD ply.desc
      let (rp, rq, rt) := checkResiduals s md j ply 3
      if sInt 32 (dw d 12) < rp.getD 0 then (6, rp, none, none)
      else if sInt 32 (dw d 13) < rq.getD 0 then (7, rp, rq, none)
      else (if sInt 32 (dw d 14) < rt.getD 0 then 8 else 0, rp, rq, rt)

/-- The outcome of a check shown and counted (R96, R97, R100); a committed ply begins a refinement, whose REFINE_DL is 0
(R115). -/
def showCheck (s : State) (r : Nat × Option Int × Option Int × Option Int) : State :=
  let v := fun (x : Option Int) => match x with | some i => uNat 32 i | none => resNone
  let s := setF s F.DPO_PLY_LAST_REASON r.1
  let s := if r.1 = 0 then setF s F.DPO_PLY_LAST_REFINE_DL 0 else s
  let s := setF (setF (setF s F.DPO_PLY_RES_P_RES (v r.2.1)) F.DPO_PLY_RES_Q_RES (v r.2.2.1)) F.DPO_PLY_RES_T_RES (v r.2.2.2)
  if r.1 = 0 then bump s F.DPO_CNT_COMMIT_COUNT
  else if r.1 = 1 then bump s F.DPO_CNT_NOPLY_COUNT
  else
    let s := bump s F.DPO_CNT_SQUASH_COUNT
    if r.1 = 2 then bump s F.NSA_CNT_ABANDON_COUNT else s

/-- A committed ply is no longer one: its refinement met a second fault, and the cycle counts as squashed (R99).
DPO_CNT_COMMIT is taken back, modulo 2³² (DESIGN CHOICE, log 69). -/
def unCommit (s : State) : State :=
  let s := setF s F.DPO_PLY_LAST_REASON 5
  bump (setF s F.DPO_CNT_COMMIT_COUNT (getF s F.DPO_CNT_COMMIT_COUNT + 2 ^ 32 - 1)) F.DPO_CNT_SQUASH_COUNT

/-- The refinement's Newton part: the setup and its last iterate (R98, R99). -/
def refineRun (s : State) (md : Model) (j : Job) (ply : PlyRec) : Job.M (Setup × Iterate) := do
  let su := setupOf md j ply.desc j.snap
  let it0 := startIterate md j (ply.factor <|> s.nsa.factor) (baseFor s md).p (ply.result.nodes.map (·.p))
    (ply.result.branches.map (·.q))
  let it ← hydraulic su.x true (bitsOf 31 28 (dw ply.desc 15)) (bitsOf 25 16 (dw ply.desc 15)) [] j.stop it0
  return (su, it)

/-- The mixing pass: outlets of given-flow branches from snapshot k, those of transported branches from the ply, and node
temperatures by the refined flows (R98). -/
def mixingPass (x : SolveIn) (isolated : List Bool) (base : BaseState) (ply : PlyRec) (q : Array Int) : Job.M ThermOut := do
  let tOut : List Int := x.md.branches.zipIdx.map fun e =>
    if conducts e.1.kind then ((ply.result.branches[e.2]?).map (·.tOut)).getD 0
    else givenTemp x (li base.tOut e.2) e.1 (at0 q e.2)
  let mix ← (List.range x.md.nodes.length).mapM fun n => do
    match mixAt x q tOut.toArray n with
    | none => pure (li base.t n, true)
    | some (a, w) => if lb isolated n then pure (li base.t n, false) else do
        let t ← divM plTHERM a w 0
        pure (t, false)
  let fl := fun b => ply.result.branches.map fun r => r.flags.testBit b
  return { t := mix.map (·.1), stale := mix.map (·.2), tOut := tOut, flushed := fl 5, merged := fl 4, plugs := ply.plugs }

/-- The refinement and the mixing pass; the result becomes committed state k (R98, R99). -/
def refineEnd (s : State) (md : Model) (j : Job) (ply : PlyRec) (elapsed : Nat) : State :=
  let prog : Job.M NetState := do
    let (su, it) ← refineRun s md j ply
    let th ← mixingPass su.x j.isolated (baseFor s md) ply it.q
    let pr := ply.result
    let warm : WarmOut := { p := [], q := [], bad := false, refused := false, mapped := false, nMapped := pr.nodesMapped,
                            nUnmapped := pr.nodesUnmapped, bUnmapped := pr.branchesUnmapped }
    let r ← mkResult su.x
      { outcome := if j.stop.isSome then 1 else 0, elapsed := elapsed, retried := j.retried, thermSkip := false,
        cgDone := bitsOf 25 16 (dw ply.desc 15), cycle := j.cycle, ht := j.ht, warm := warm, isolated := j.isolated,
        floating := su.floating, anchors := su.anchors, orFlags := pr.flags, defaulted := j.snap.subDef } it th
    return { r with pivotCount := pr.pivotCount, pivotLast := pr.pivotLast, pivotFirst := pr.pivotFirst }
  let (r, n) := prog.run Notes.none
  let s := showNotes s n
  let s := if j.stop.isSome then countDeadline s else s
  commitState { s with nsa := { s.nsa with plyDone := none } } r ply.plugs

/-- A refinement that met a second fault where it stands: what it noted is shown (R82, R99). -/
def refineCut (s : State) (md : Model) (j : Job) (sp : StopPoint) : State :=
  match s.nsa.plyDone with
  | none => s
  | some ply =>
    let prog : Job.M Unit := do
      let (su, it) ← refineRun s md (if sp.phase = 4 then j else { j with stop := j.stop <|> some sp }) ply
      if sp.phase = 4 then do
        let _ ← mixingPass su.x j.isolated (baseFor s md) ply it.q
    showNotes s (prog.run Notes.none).2

/-! ### Studies (R62, R84, R232) -/

/-- The result block of a study and its outcome. -/
def studyResult (s : State) (j : Job) (elapsed : Nat) : NetState × Notes :=
  match j.model with
  | none => (emptyResult j.desc 4 0 j.cycle j.ht 0 elapsed, Notes.none)
  | some md =>
    let o := runJob md (netMs s) j s.nsa.factor j.base (studyStart md j.desc j.vector) false elapsed
    (o.r, o.notes)

/-- A study leaves the queue with an outcome: its result block is held for the post of its DONE record (R62, R231,
R232). -/
def studyFinish (s : State) (j : Job) (r : NetState) : State :=
  let s := { s with nsa := { s.nsa with studies := s.nsa.studies.drop 1 } }
  let s := setF s F.NSA_STATUS_STUDY_BUSY (bNat (!s.nsa.studies.isEmpty))
  let addr := dw j.desc 10
  let p : PostItem := { recordOf j.ticket 0 1 1 r.outcome (addr * 2 ^ 32 + dTag j.desc) with
    isStudy := true, dueTime := j.start + dw j.desc 2 * 1000, userOff := addr, userBytes := resultBytes r }
  let s := modTask s (taskIx j.task) fun k => { k with posts := k.posts ++ [p] }
  digestUnit s 5 j.task j.ticket (resultBytes r)

/-! ### Faults (R82, R83) -/

/-- A cluster leaves service (R83). -/
def clusterFaulty (s : State) (c : Nat) : State :=
  ev (setF s F.NSA_CLUSTER_FAULTY (getF s F.NSA_CLUSTER_FAULTY ||| 2 ^ c)) blkNSA 0x89 6 [c]

/-- A job of the hydraulic class or a study met a second fault, which ends it with OUTCOME 3 (R82). -/
def jobFault (s : State) : State := evBit s F.NSA_EVENTS_FAULT 5 []

end Sys2Proof.Machine
end

