-- ==== Sys2Proof/Machine/NsaCmd.lean ====
section
/-!
DEFINITION. The NSA commands: the engine calls of R231, deadlines, retries and the ends of jobs (02 R53, 03 R59 to R62
R73 R81 to R83 R88, 04 R94 to R100, 09 R231 R232).
-/
namespace Sys2Proof.Machine

/-! ### Engine calls (R231) -/

/-- A ply or dispatch descriptor or a dispatch job was refused (R115). -/
def dpoRefused (s : State) : State := setF s F.DPO_EVENTS_REFUSED 1

/-- INSTALL: a cycle, ply or dispatch descriptor that passes its checks waits for the next network-cycle instant
(R59, R61, R89). -/
def nsaInstall (s : State) (task ticket : Nat) (body : List Byte) : State :=
  let d := bodyWords body
  let code := descRefuse s d [0, 2, 5]
  let s := reply s task ticket 0 0 code
  if code = 0 then { s with nsa := { s.nsa with pendDesc := s.nsa.pendDesc ++ [(nowNs s, d)] } }
  else if dKind d = 2 || dKind d = 5 then dpoRefused s
  else s

/-- The bytes of the warm-start vector that a study descriptor names (R84). -/
def warmVector (s : State) (d : List Nat) : List Byte :=
  if !dWarm d then []
  else
    let a := dw d 9
    let n := 32 + 8 * (memLe s.mem (userBase + a + 16) 4 + memLe s.mem (userBase + a + 20) 4)
    memBytes s.mem (userBase + a) (min n (userSize - a))

/-- The boundary of a study: the latest closed snapshot, when it was taken for the active model; else every substation
at its defaults and the present tags (assumption 24). -/
def studySnap (s : State) (md : Model) : Snapshot :=
  match s.nsa.snap with
  | some sn => if sn.hs = md.hs then sn else snapshotOf s md [] (cycleNow s)
  | none => snapshotOf s md [] (cycleNow s)

/-- A study with no model: it has nothing to solve and ends with OUTCOME 4 (R61, R82). -/
def modellessStudy (s : State) (d : List Nat) : Job :=
  { kind := 1, desc := d, start := nowNs s, stop := none, thermSkip := false, thermDone := 0, abandoned := [],
    retried := false, snap := bareSnap s 0, inServ := [], isolated := [], ht := 0, cycle := 0, ticket := 0, task := 0,
    base := { p := [], t := [], q := [], tOut := [], byId := none, sat := false }, plugs := [], vector := [], model := none,
    mask := 0, sat := false }

/-- STUDY: a study that passes its checks joins the queue (R62). -/
def nsaStudy (s : State) (task ticket : Nat) (body : List Byte) : State :=
  let d := bodyWords body
  let code := descRefuse s d [1]
  let s := reply s task ticket 0 1 code
  if code ≠ 0 then s
  else
    let j := match s.nsa.model with
      | some md =>
        let sn := studySnap s md
        { newJob s md 1 sn.cycle (nowNs s) d sn with vector := warmVector s d }
      | none => modellessStudy s d
    let j := { j with ticket := ticket, task := task }
    setF { s with nsa := { s.nsa with studies := s.nsa.studies ++ [j] } } F.NSA_STATUS_STUDY_BUSY 1

/-- WRITE_USER: data written into the user region (R231). -/
def nsaWriteUser (s : State) (task ticket : Nat) (body : List Byte) : State :=
  let off := bodyW body 0
  let data := body.drop 8
  let code := if bodyW body 1 ≠ 0 then 5 else if off % 4 ≠ 0 || userSize < off + data.length then 6 else 0
  let s := reply s task ticket 0 2 code
  if code = 0 then { s with mem := memPut s.mem (userBase + off) data } else s

/-- READ_USER: a copy taken now and written at DEST at the post (R231). -/
def nsaReadUser (s : State) (task ticket : Nat) (body : List Byte) : State :=
  let off := bodyW body 0
  let len := bodyW body 1
  let dest := bodyW body 2
  if bodyW body 3 ≠ 0 then reply s task ticket 0 3 5
  else if off % 4 ≠ 0 || len % 4 ≠ 0 || len < 4 || 32768 < len || userSize < off + len || dest % 4 ≠ 0 ||
      dest < 0x8000 || 0x10000 < dest + len then reply s task ticket 0 3 6
  else addPost s task { recordOf ticket 0 3 1 0 len with dest := dest, bytes := memBytes s.mem (userBase + off) len }

/-- The bits of mask words, bit b of word w for branch FIRST + 32·w + b (R231). -/
def maskBits (ws : List Nat) : List Bool := ws.flatMap fun w => (List.range 32).map fun b => w.testBit b

/-- Whether FIRST, COUNT and a number of words make a mask write (R231). -/
def maskRangeOk (first count words : Nat) : Bool :=
  first % 32 = 0 && count % 32 = 0 && 32 ≤ count && count ≤ 32768 && first + count ≤ 32768 && words = count / 32

/-- Mask bits accepted at an instant wait for the next network-cycle instant (R53). -/
def queueMask (s : State) (acc first : Nat) (bits : List Bool) : State :=
  { s with nsa := { s.nsa with pendMask := s.nsa.pendMask ++ [(acc, first, bits)] } }

/-- MASK: branch service mask bits (R53); each module of a pair accepts the call of its own scan (R233). -/
def nsaMask (s : State) (task ticket : Nat) (body : List Byte) : State :=
  let ok := maskRangeOk (bodyW body 0) (bodyW body 1) (body.length / 4 - 2)
  let s := reply s task ticket 0 4 (if ok then 0 else 6)
  if ok then queueMask s (nowNs s) (bodyW body 0) (maskBits ((bodyWords body).drop 2)) else s

/-- A call is accepted only in run state (R226, R478). -/
def callCmd (s : State) (f : State → State) : Host.Outcome State Fault Refusal := .next (if s.runState then f s else s)

/-- NSA_INSTALL (R61). -/
def execNsaInstall (task : Fin 16) (ticket : BitVec 16) (body : List Byte) (s : State) :
    Host.Outcome State Fault Refusal := callCmd s fun s => nsaInstall s task.val ticket.toNat body
/-- NSA_STUDY (R62). -/
def execNsaStudy (task : Fin 16) (ticket : BitVec 16) (body : List Byte) (s : State) :
    Host.Outcome State Fault Refusal := callCmd s fun s => nsaStudy s task.val ticket.toNat body
/-- NSA_WRITE_USER (R232). -/
def execNsaWriteUser (task : Fin 16) (ticket : BitVec 16) (body : List Byte) (s : State) :
    Host.Outcome State Fault Refusal := callCmd s fun s => nsaWriteUser s task.val ticket.toNat body
/-- NSA_READ_USER (R232). -/
def execNsaReadUser (task : Fin 16) (ticket : BitVec 16) (body : List Byte) (s : State) :
    Host.Outcome State Fault Refusal := callCmd s fun s => nsaReadUser s task.val ticket.toNat body
/-- NSA_MASK (R53). -/
def execNsaMask (task : Fin 16) (ticket : BitVec 16) (body : List Byte) (s : State) :
    Host.Outcome State Fault Refusal := callCmd s fun s => nsaMask s task.val ticket.toNat body

/-! ### JOB frames of the active module (R284, R291) -/

/-- Whether a job factorises in a step, counted from 1, under a budget (R69, R73). -/
def factorsIn (j : Job) (step : Nat) : Bool :=
  !dJacobi j.desc && dw j.desc 4 != 0 && 1 ≤ step && step ≤ dNewton j.desc && (step = 1 || !dReuse j.desc) &&
    (j.abandoned.all fun e => e.1 != step)

/-- The steps whose factorisation a job completes when it ends with `done` steps or stops at a point. -/
def factSteps (j : Job) (stop : Option StopPoint) (done : Nat) : List Nat :=
  let last := match stop with | some sp => sp.steps + bNat (2 ≤ sp.phase) | none => done
  ((List.range last).map (· + 1)).filter (factorsIn j)

/-- The entry of a job that ended with a result. -/
def endOf (id : JobId) (r : NetState) : JobEnd :=
  { id := id, outcome := r.outcome, newton := r.newtonDone, cg := r.cgDone, therm := !r.flags.testBit 10,
    retried := r.flags.testBit 9, elapsed := r.elapsed, tick := none }

/-- A decision of the token holder sent to its standby. -/
def sendEntry (s : State) (e : JobEntry) : State := if roleOf s = roACTIVE then furovSend s (.job e) else s

/-- The end of a job sent, after the factorisations that it completed. -/
def sendJob (s : State) (j : Job) (stop : Option StopPoint) (e : JobEnd) : State :=
  let facts := if j.kind ≤ 2 then factSteps j stop e.newton else []
  sendEntry (forAll s facts fun s n => sendEntry s (.fact e.id n true)) (.done e)

/-! ### Deadlines and budgets (R73, R81, R82, R99) -/

/-- Where a hydraulic deadline may stop a job of `n` steps of `cg` iterations. -/
def stopOk (sp : StopPoint) (n cg : Nat) : Bool := sp.steps < n && sp.phase ≤ 3 && sp.its ≤ cg

/-- A job with its hydraulic part stopped, once. -/
def stopJob (j : Job) (sp : StopPoint) : Job :=
  if j.stop.isNone && stopOk sp (dNewton j.desc) (dCg j.desc) then { j with stop := some sp } else j

/-- The study at the head of the queue changed. -/
def modStudy (s : State) (f : Job → Job) : State :=
  { s with nsa := { s.nsa with studies := match s.nsa.studies with | [] => [] | j :: js => f j :: js } }

/-- The CYCLE job in progress changed. -/
def modCycle (s : State) (f : Job → Job) : State :=
  { s with nsa := { s.nsa with hyd := s.nsa.hyd.map fun j => if j.kind = 0 then f j else j } }

/-- The ply in progress changed. -/
def modPly (s : State) (f : Job → Job) : State := { s with nsa := { s.nsa with ply := s.nsa.ply.map f } }

/-- A standby has no deadline or budget of its own: the token holder's JOB frames decide (R291). -/
def ownDecision (s : State) (f : State → State) : Host.Outcome State Fault Refusal :=
  .next (if roleOf s = roSTANDBY then s else f s)

/-- The hydraulic part of a job stops at the end of its current unit (R82). -/
def hydStop (s : State) (sel : JobSel) (sp : StopPoint) : State :=
  match sel with
  | .hyd => modCycle s fun j => stopJob j sp
  | .ply => modPly s fun j => stopJob j sp
  | .study => s
  | .dpo => s

/-- HYDRAULIC_DEADLINE (R82). -/
def execHydraulicDeadline (sel : JobSel) (steps phase its : Nat) (s : State) : Host.Outcome State Fault Refusal :=
  ownDecision s fun s => hydStop s sel ⟨steps, phase, its⟩

/-- A thermal pass discarded after some of its groups: the job ends DEADLINE (R82); a ply shows nothing (R95). -/
def jobStop (s : State) (sel : JobSel) (sp : StopPoint) : State :=
  match sel with
  | .hyd =>
    match s.nsa.hyd with
    | some j => if j.kind = 0 && !j.thermSkip then
        evBit (modCycle s fun j => j.cutAt { sp with phase := 4 }) F.NSA_EVENTS_THERM_SKIPPED 3 [] else s
    | none => s
  | .ply => modPly s fun j => j.cutAt { sp with phase := 4 }
  | .study => modStudy s fun j => stopJob j sp
  | .dpo => s

/-- JOB_DEADLINE (R82). -/
def execJobDeadline (sel : JobSel) (steps phase its : Nat) (s : State) : Host.Outcome State Fault Refusal :=
  ownDecision s fun s => jobStop s sel ⟨steps, phase, its⟩

/-- The Newton part of the refinement stops (R99). -/
def refineStop (s : State) (sp : StopPoint) : State :=
  match s.nsa.hyd with
  | some j =>
    if j.kind = 4 && j.stop.isNone && stopOk sp (bitsOf 31 28 (dw j.desc 15)) (bitsOf 25 16 (dw j.desc 15)) then
      setF { s with nsa := { s.nsa with hyd := some { j with stop := some sp } } } F.DPO_PLY_LAST_REFINE_DL 1
    else s
  | none => s

/-- REFINE_DEADLINE (R99). -/
def execRefineDeadline (steps phase its : Nat) (s : State) : Host.Outcome State Fault Refusal :=
  ownDecision s fun s => refineStop s ⟨steps, phase, its⟩

/-- A job whose factorisation of a step is abandoned, with the factor kept now. -/
def abandonIn (kept : Option Factor) (step : Nat) (j : Job) : Job :=
  if factorsIn j step then { j with abandoned := j.abandoned ++ [(step, kept)] } else j

/-- A factorisation is abandoned for its substitute (R73, R82); a ply shows nothing (R95). -/
def factStop (s : State) (sel : JobSel) (step : Nat) : State :=
  match sel with
  | .hyd =>
    match s.nsa.hyd with
    | some j => if j.kind = 0 && factorsIn j step then
        evBit (modCycle s (abandonIn s.nsa.factor step)) F.NSA_EVENTS_PRECOND_FALLBACK 3 [] else s
    | none => s
  | .ply => modPly s (abandonIn s.nsa.factor step)
  | .study =>
    match s.nsa.studies with
    | j :: _ => if factorsIn j step then evBit (modStudy s (abandonIn s.nsa.factor step)) F.NSA_EVENTS_PRECOND_FALLBACK 3 [] else s
    | [] => s
  | .dpo => s

/-- The jobs that run now, by selector. -/
def runningJob (s : State) (sel : JobSel) : Option Job :=
  match sel with
  | .hyd => s.nsa.hyd
  | .ply => s.nsa.ply
  | .study => s.nsa.studies.head?
  | .dpo => s.dpo.job

/-- A job by its kind and its cycle number, ticket or dispatch index (R284). -/
def jobId (s : State) (sel : JobSel) (j : Job) : JobId :=
  match sel with
  | .study => ⟨1, j.ticket⟩
  | .dpo => ⟨5, s.dpo.jobIndex⟩
  | .hyd => ⟨j.kind, j.cycle⟩
  | .ply => ⟨2, j.cycle⟩

/-- FACT_BUDGET_EXPIRY (R73). -/
def execFactBudgetExpiry (sel : JobSel) (step : Nat) (s : State) : Host.Outcome State Fault Refusal :=
  ownDecision s fun s =>
    match runningJob s sel with
    | some j =>
      let s' := factStop s sel step
      if factorsIn j step && sel != .dpo then sendEntry s' (.fact (jobId s sel j) step false) else s'
    | none => s

/-! ### Faults (R82, R83, R97, R99, R110) -/

/-- A unit re-run after its first fault (R82, R88). -/
def countRetry (s : State) : State := bump s F.NSA_CNT_RETRY_COUNT

/-- The check is over: the ply and its area are gone (R96, R100). -/
def dropPly (s : State) : State := { s with nsa := { s.nsa with plyDone := none, plyReason := none } }

/-- A ply that met a second fault where it stands: it is kept with OUTCOME 3 for the check; its thermal pass counts as run
once it has begun (R94, R95, assumption 57). -/
def plyFault (s : State) (md : Model) (j : Job) (sp : StopPoint) (elapsed : Nat) : State :=
  let (s, o) := plyCut s md j sp elapsed
  keepPly s { result := o.r, blocked := o.blocked, plugs := [], factor := none, snap := j.snap,
              thermRan := sp.phase = 4 && !j.thermSkip, desc := j.desc }

/-- A check that met a second fault: reason 5, with the residuals computed before it (R97). -/
def checkFault (s : State) (md : Model) (j : Job) (done : Nat) : State :=
  let r := match s.nsa.plyDone with
    | some ply => if s.nsa.open_.isSome then (none, none, none) else checkResiduals s md j ply done
    | none => (none, none, none)
  startCycleJob (dropPly (showCheck s (5, r)))

/-- A second fault of a hydraulic-class job where it stands; `steps` of a check counts its residuals (R82, R97, R99). -/
def hydFault (s : State) (md : Model) (j : Job) (sp : StopPoint) (elapsed : Nat) : State :=
  jobFault (if j.kind = 0 then cycleFault s md j sp elapsed
    else if j.kind = 3 then checkFault s md j sp.steps
    else startCycleJob (dropPly (unCommit (refineCut s md j sp))))

/-- The job that a selector names met a first fault. -/
def retryJob (s : State) (sel : JobSel) : State :=
  let r := fun (j : Job) => { j with retried := true }
  match sel with
  | .hyd => { s with nsa := { s.nsa with hyd := s.nsa.hyd.map r } }
  | .ply => modPly s r
  | .study => modStudy s r
  | .dpo => { s with dpo := { s.dpo with retried := true } }

/-! ### Ends of studies (R62, R88, R233) -/

/-- The notes of a study shown; a refused or bad warm start is in its header (R82, R88). -/
def studyNotes (s : State) (n : Notes) (r : NetState) : State := jobNotes s n (r.flags.testBit 3 || r.flags.testBit 4)

/-- A study leaves the queue with its result, which the peer is told (R62, R291). -/
def studyOut (s : State) (j : Job) (r : NetState) : State :=
  sendJob (studyFinish s j r) j j.stop (endOf ⟨1, j.ticket⟩ r)

/-- The oldest study ends with a result, shown as R88 and R82 have it. -/
def studyEnd (s : State) (j : Job) (elapsed : Nat) : State :=
  let (r, n) := studyResult s j elapsed
  let s := studyNotes s n r
  let s := if r.outcome = 1 then countDeadline s else s
  studyOut s j r

/-- A study that ends without a solution where it stands: the header alone, with what it noted (R79, R88, assumption 25). -/
def studyCut (s : State) (j : Job) (sp : StopPoint) (elapsed outcome : Nat) : State :=
  match j.model with
  | none => studyOut s j (emptyResult j.desc outcome (bNat j.retried * 2 ^ 9) j.cycle j.ht 0 elapsed)
  | some md =>
    let o := cutJob md (netMs s) j s.nsa.factor j.base (studyStart md j.desc j.vector) false sp elapsed
    studyOut (studyNotes s o.notes o.r) { j with stop := j.stop <|> some sp } { o.r with outcome := outcome }

/-- A point between the steps whose factorisations a study abandoned and its last one, by a free value (assumption 8). -/
def freeStop (j : Job) (v : Nat) : StopPoint :=
  let lo := j.abandoned.foldl (fun m e => max m (e.1 - 1)) 0
  { steps := lo + v % (dNewton j.desc + 1 - lo), phase := v / 32 % 4, its := v / 128 % (dCg j.desc + 1) }

/-- The study that runs is cancelled: no command says how far it had come, so that is free (R88, assumption 25). -/
def studyCancel (s : State) (j : Job) : State :=
  let (v, s) := takeFree s
  studyCut s j (freeStop j v) (usSince j.start (nowNs s)) 5

/-- A study that met a second fault where it stands (R82). -/
def studyFault (s : State) (j : Job) (sp : StopPoint) (elapsed : Nat) : State := jobFault (studyCut s j sp elapsed 3)

/-! ### What a standby does with JOB frames (R291) -/

/-- The ply that runs is gone, at the point where it stands, with a reason for the check of its cycle (R95, R96). -/
def stopPly (s : State) (sp : StopPoint) (reason : Option Nat) : State :=
  match s.nsa.ply, s.nsa.model with
  | some j, some md =>
    let s := (plyCut s md j sp 0).1
    setF { s with nsa := { s.nsa with ply := none, plyReason := reason } } F.NSA_STATUS_PLY_BUSY 0
  | _, _ => s

/-- The ply that still runs at Tₖ has not ended before it, as the peer is told (R96, R291). -/
def sendLate (s : State) : State :=
  match s.nsa.ply with
  | some j =>
    sendEntry s (.done { id := ⟨2, j.cycle⟩, outcome := 5, newton := 0, cg := 0, therm := false, retried := j.retried,
                         elapsed := usSince j.start (nowNs s), tick := none })
  | none => s

/-- The active module's entry for a job. -/
def endFor (s : State) (id : JobId) : Option JobEnd := s.red.jobEnds.find? fun e => e.id = id

/-- Where a job stopped by the entry of its end: in the step after the last completed one, whose factorisation may have
completed. -/
def entryStop (s : State) (e : JobEnd) : StopPoint :=
  { steps := e.newton, phase := if s.red.jobFacts.contains (e.id, e.newton + 1, true) then 2 else 1, its := 0 }

/-- Entries of a job taken up; a committed state switches at the tick that the entry names. -/
def useEntries (s : State) (e : JobEnd) : State :=
  { s with red := { s.red with jobEnds := s.red.jobEnds.filter fun x => x.id != e.id,
                               jobFacts := s.red.jobFacts.filter fun x => x.1 != e.id,
                               switchAt := e.tick <|> s.red.switchAt } }

/-- A running job follows its entries: factorisations abandoned, the stop, the thermal pass, and RETRIED. -/
def followEnd (s : State) (sel : JobSel) (j : Job) (e : JobEnd) : State :=
  let gone := s.red.jobFacts.filter fun f => f.1 = e.id && !f.2.2
  let sp := entryStop s e
  let s := forAll s gone fun s f => factStop s sel f.2.1
  let s := if e.outcome ≠ 1 then s
    else if j.kind = 4 then refineStop s sp
    else if j.kind = 1 then jobStop s sel sp
    else if e.newton < dNewton j.desc then hydStop s sel sp
    else s
  let s := if (j.kind = 0 || j.kind = 2) && !e.therm then jobStop s sel { sp with its := 0 } else s
  let mark := fun (x : Job) => { x with retried := e.retried }
  match sel with
  | .hyd => { s with nsa := { s.nsa with hyd := s.nsa.hyd.map mark } }
  | .ply => modPly s mark
  | .study => modStudy s mark
  | .dpo => { s with dpo := { s.dpo with retried := e.retried } }

/-- The entries of every factorisation of a job have come. -/
def factsKnown (s : State) (j : Job) (e : JobEnd) : Bool :=
  2 < j.kind || (factSteps j none e.newton).all fun n => s.red.jobFacts.any fun f => f.1 = e.id && f.2.1 = n

/-- The end of a job: a standby waits for the active module's entries and takes ELAPSED and RETRIED from them (R291). -/
def withEnd (s : State) (sel : JobSel) (j : Job) (elapsed : Nat) (f : State → Job → Nat → State) : State :=
  if roleOf s ≠ roSTANDBY then f s j elapsed
  else match endFor s (jobId s sel j) with
    | some e =>
      let fault := e.outcome = 3 || (sel = .dpo && e.outcome = 1) || (sel != .dpo && e.outcome = 5)
      if fault || !factsKnown s j e then s
      else
        let s' := followEnd s sel j e
        f (useEntries s' e) ((runningJob s' sel).getD j) e.elapsed
    | none => s

/-- A committed state of the present tick is still to come (R291). -/
def stateAwaited (s : State) : Bool :=
  s.red.jobEnds.any fun e => (e.id.kind = 0 || e.id.kind = 4) && e.tick.any fun t => t ≤ tickNow s

/-- A job of the NSA that the active module's entry ends with FAULT or ABANDONED, with the entry's ELAPSED and RETRIED and at
its stage (R82, R88, R96, R100, R291). -/
def followFault (s : State) (sel : JobSel) : State :=
  match runningJob s sel with
  | none => s
  | some j =>
    match endFor s (jobId s sel j), s.nsa.model with
    | some e, some md =>
      let sp := if e.therm && sel != .study then ⟨e.newton, 4, 0⟩ else entryStop s e
      let u := useEntries s e
      let j := { j with retried := e.retried }
      match sel with
      | .hyd => if e.outcome = 3 then hydFault u md j sp e.elapsed else s
      | .ply => if e.outcome = 3 then plyFault u md j sp e.elapsed else if e.outcome = 5 then stopPly u sp (some 2) else s
      | .study =>
        if e.outcome = 3 then studyFault u j sp e.elapsed else if e.outcome = 5 then studyCut u j sp e.elapsed 5 else s
      | .dpo => s
    | _, _ => s

/-! ### The ends of studies -/

/-- STUDY_DONE: the study at the head of the queue ends (R62). -/
def execStudyDone (elapsed : Nat) (s : State) : Host.Outcome State Fault Refusal :=
  .next (match s.nsa.studies with
    | j :: _ => if waits s .study j then s else withEnd s .study j elapsed studyEnd
    | [] => s)

/-- NSA_CTRL.CANCEL_STUDY: every queued and running study ends with OUTCOME 5; those that wait have not begun (R88). -/
def cancelStudies (s : State) : State :=
  match s.nsa.studies with
  | [] => s
  | j :: js => forAll (studyCancel s j) js fun s j => studyCut s j ⟨0, 0, 0⟩ (usSince j.start (nowNs s)) 5

/-! ### The ply's end and the check -/

/-- The peer is told of a ply that ended (R291). -/
def plyTold (j : Job) (s : State) : State :=
  match s.nsa.plyDone with
  | some p => sendJob s j j.stop (endOf ⟨2, j.cycle⟩ p.result)
  | none => s

/-- PLY_COMPLETE: the ply ends and is kept for the check (R94). -/
def execPlyComplete (elapsed : Nat) (s : State) : Host.Outcome State Fault Refusal :=
  .next (match s.nsa.ply, s.nsa.model with
    | some j, some md => if waits s .ply j then s else withEnd s .ply j elapsed fun s j elapsed => plyTold j (plyEnd s md j elapsed)
    | _, _ => s)

/-- CHECK_COMPLETE: the tests of R96 in their order; the ply commits and a REFINE job starts, or the CYCLE job does.
Tests 6 to 8 wait for the closed snapshot, and for a cluster (R86); a standby whose ply still runs waits for it, or for the
decision of the active module (R100). -/
def execCheckComplete (plugErr : Bool) (s : State) : Host.Outcome State Fault Refusal :=
  .next (match s.nsa.hyd, s.nsa.model with
    | some j, some md =>
      if j.kind ≠ 3 || s.nsa.ply.isSome then s
      else
        let r := checkReason s md j plugErr
        if (s.nsa.open_.isSome || waits s .hyd j) && !(1 ≤ r.1 && r.1 ≤ 5) then s
        else
          let s := showCheck s r
          if r.1 = 0 then
            let d := match s.nsa.plyDone with | some p => p.desc | none => j.desc
            { s with nsa := { s.nsa with hyd := some { j with kind := 4, desc := d, retried := false, mask := allocMask s 4 } } }
          else startCycleJob (dropPly s)
    | _, _ => s)

end Sys2Proof.Machine
end

