-- ==== Sys2Proof/Machine/DpoProblem.lean ====
section
/-!
DEFINITION. The dispatch problem: the block of R104, the decisions and their bounds, and every entry of G, c, A, b, Ĉ
and d as an exact rational rounded once to Q8.24 (04 R103 to R106).
-/
namespace Sys2Proof.Machine

/-! ### Exact values (R106) -/

/-- 2 to an integer power. -/
def pow2 (e : Int) : Rat := if 0 ≤ e then ((2 ^ e.toNat : Nat) : Rat) else 1 / ((2 ^ e.natAbs : Nat) : Rat)

/-- A mantissa at an exponent. -/
def real (m e : Int) : Rat := (m : Rat) * pow2 e

/-- What a dispatch job notes: saturation, and a MINRES break (R113). -/
structure DNotes where
  sat : Bool
  brk : Bool
  deriving DecidableEq, Repr

/-- A computation of the dispatch job with its notes. -/
abbrev DM := StateM DNotes

/-- A clamped value with its saturation noted. -/
def dnote (r : Int × Bool) : DM Int := do
  modify fun n => { n with sat := n.sat || r.2 }
  pure r.1

/-- A rational at 2^s rounded half to even and passed through `sat32`. -/
def ratAt (r : Rat) (s : Int) : DM Int :=
  let v := r * pow2 s
  dnote (sat32 (divEven v.num v.den))

/-- A rational in Q8.24 (R106). -/
def q24 (r : Rat) : DM Int := ratAt r 24

/-! ### The problem block (R104) -/

/-- A zone: T_MIN, T_MAX, G_Z and T_AMB_Z. -/
structure Zone where
  tMin : Int
  tMax : Int
  g : Int
  tAmb : Int
  deriving DecidableEq, Repr, Inhabited

/-- The problem block. -/
structure Block where
  magicOk : Bool
  nTz : Nat
  nDpp : Nat
  wMoveH : Int
  wMoveS : Int
  wMoveT : Int
  wMoveDp : Int
  wProx : Int
  avail : Nat
  zones : List Zone
  /-- DP_MAX and P_KW by control point. -/
  points : List (Int × Int)
  plantZone : List Nat
  subPoint : List Nat
  /-- Every reserved bit and word is zero. -/
  clean : Bool
  deriving DecidableEq, Repr

/-- A length rounded up to 64 bytes. -/
def up64 (n : Nat) : Nat := (n + 63) / 64 * 64

/-- The offsets of the sections after the header, and the length of the block. -/
def blockOffs (nTz nDpp nSubs : Nat) : Nat × Nat × Nat × Nat × Nat :=
  let z := 64
  let p := z + up64 (16 * nTz)
  let q := p + up64 (16 * nDpp)
  let r := q + 64
  (z, p, q, r, r + nSubs)

/-- The block read from its bytes. -/
def blockRead (b : List Byte) (nSubs : Nat) : Block :=
  let m := b.toArray
  let byte := fun (i : Nat) => (m.getD i 0).toNat
  let u := fun (i : Nat) => byte i + 256 * byte (i + 1) + 65536 * byte (i + 2) + 16777216 * byte (i + 3)
  let w := fun (i : Nat) => u (4 * i)
  let i32 := fun (i : Nat) => sInt 32 (u i)
  let nTz := bitsOf 15 8 (w 1)
  let nDpp := bitsOf 7 0 (w 1)
  let (z, p, q, r, _) := blockOffs nTz nDpp nSubs
  { magicOk := w 0 = 0x514E4450, nTz := nTz, nDpp := nDpp, wMoveH := i32 8, wMoveS := i32 12, wMoveT := i32 16,
    wMoveDp := i32 20, wProx := i32 24, avail := w 7 + w 8 * 2 ^ 32,
    zones := (List.range nTz).map fun k =>
      let a := z + 16 * k
      { tMin := i32 a, tMax := i32 (a + 4), g := i32 (a + 8), tAmb := i32 (a + 12) },
    points := (List.range nDpp).map fun k => (i32 (p + 16 * k), i32 (p + 16 * k + 4)),
    plantZone := (List.range 64).map fun k => byte (q + k),
    subPoint := (List.range nSubs).map fun k => byte (r + k),
    clean := w 1 < 65536 && ([9, 10, 11, 12, 13, 14, 15].all fun k => w k = 0) &&
      (List.range nDpp).all fun k => u (p + 16 * k + 8) = 0 && u (p + 16 * k + 12) = 0 }

/-- Whether a block's fields are valid (R104). -/
def Block.ok (k : Block) : Bool :=
  k.magicOk && k.nTz ≤ 16 && k.nDpp ≤ 16 && k.clean && decide (0 ≤ k.wMoveH) && decide (0 ≤ k.wMoveS) &&
  decide (0 ≤ k.wMoveT) && decide (0 ≤ k.wMoveDp) && decide (0 < k.wProx) &&
  (k.zones.all fun z => decide (0 < z.tMax)) && (k.points.all fun p => decide (0 < p.1)) &&
  (k.plantZone.all fun z => z = 0xFF || z < k.nTz) && (k.subPoint.all fun p => p = 0xFF || p < k.nDpp)

/-! ### Inputs of a job -/

/-- What a dispatch job works on. -/
structure DIn where
  md : Model
  k : Block
  fc : Forecast
  desc : List Nat
  base : BaseState
  soc : List Int
  /-- The previous plan by decision index and step in Q8.24, when it has the same H_S and N_H. -/
  prev : Option (List Int)
  /-- The previous plan under whatever model and N_H: N_H, its values and the STORE_IDs of its model. -/
  before : Option (Nat × List Int × List Nat)
  /-- Time of D_{j+1} in ns. -/
  t0 : Nat
  /-- The first free value of the job. -/
  free : Nat
  deriving Repr

def DIn.nH (x : DIn) : Nat := bitsOf 7 0 (dw x.desc 13)

/-- A free 32-bit value of the job (assumption 8). -/
def DIn.freeInt (x : DIn) (i : Nat) : Int := sInt 32 (Config.freeValue (x.free + i))

/-- A forecast series at a time, held beyond its last point, and whether the interpolation clamped (R15, R93, R340); before
its first point it is free. -/
def DIn.seriesAt (x : DIn) (vs : List Int) (num t : Nat) : Int × Bool :=
  let f := x.fc
  let off := num * f.nPts
  let dt := tdiff t f.t0
  if dt < 0 then (x.freeInt (1024 + num), false)
  else if ((f.nPts - 1 : Nat) : Int) * 900000000000 ≤ dt then (li vs (off + f.nPts - 1), false)
  else
    let i := dt.toNat / 900000000000
    let w := divEven ((dt - i * 900000000000) * 2 ^ 30) 900000000000
    let d := sat32 (li vs (off + i + 1) - li vs (off + i))
    let p := wb (d.1 * w) 30
    let r := sat32 (li vs (off + i) + p.1)
    (r.1, d.2 || p.2 || r.2)

/-- The value of a forecast series at a time. -/
def DIn.series (x : DIn) (vs : List Int) (num t : Nat) : Int := (x.seriesAt vs num t).1

/-- The start of horizon step `t`. -/
def DIn.stepTime (x : DIn) (t : Nat) : Nat := x.t0 + t * 900000000000

/-- Some horizon step starts beyond the last forecast point (R113). -/
def DIn.extended (x : DIn) : Bool :=
  decide (((x.fc.nPts - 1 : Nat) : Int) * 900000000000 < tdiff (x.stepTime (x.nH - 1)) x.fc.t0)

/-! ### Decisions (R103, R105, R106) -/

/-- A present decision: its index, class exponent, nominal value, bounds, move weight, and the cost of one unit of it
at each step, all exact. -/
structure Dec where
  d : Nat
  e : Int
  nom : Rat
  inv : Rat
  lo : Rat
  hi : Rat
  conflict : Bool
  wMove : Int
  cost : List Rat
  deriving Repr

/-- A decision with its bounds settled: a lower bound above the upper one is replaced by it (R105). -/
def mkDec (x : DIn) (d : Nat) (e : Int) (nom lo hi : Rat) (wMove : Int) (cost : List Rat) : Dec :=
  { d := d, e := e, nom := nom, inv := if nom = 0 then real (x.freeInt (160 + d)) (-24) else 1 / nom,
    lo := if hi < lo then hi else lo, hi := hi, conflict := decide (hi < lo), wMove := wMove, cost := cost }

/-- The steps of the horizon. -/
def DIn.steps (x : DIn) : List Nat := List.range x.nH

/-- The electricity price of a step, per kWh. -/
def DIn.elecAt (x : DIn) (t : Nat) : Rat := real (x.series x.fc.elec 0 (x.stepTime t)) x.fc.eCost

/-- The heat price of a plant at a step; zero where the set has no such vector. -/
def DIn.priceAt (x : DIn) (ix t : Nat) : Rat :=
  if ix < x.fc.nPrice then real (x.series x.fc.prices ix (x.stepTime t)) x.fc.eCost else 0

/-- The plants of a zone. -/
def DIn.zonePlants (x : DIn) (z : Nat) : List MPlant :=
  (x.md.plants.zipIdx.filter fun e => x.k.plantZone.getD e.2 0xFF = z).map (·.1)

/-- The largest and the smallest of a list of integers against a start. -/
def maxOf (a : Int) (l : List Int) : Int := l.foldl max a
def minOf (a : Int) (l : List Int) : Int := l.foldl min a

/-- The present decisions in index order (R103). -/
def DIn.decs (x : DIn) : List Dec :=
  let md := x.md
  let eP := expOf md 0
  let eT := expOf md 2
  let eH := expOf md 6
  let dt : Rat := 1 / 4
  let plants := md.plants.zipIdx.filterMap fun (p, i) =>
    if x.k.avail.testBit i then
      some (mkDec x i eH (real p.heatMax eH) (real p.heatMin eH) (real p.heatMax eH) x.k.wMoveH
        (x.steps.map fun t => (x.priceAt p.priceIndex t + real p.elecRatio (-24) * x.elecAt t) * dt))
    else none
  let stores := md.stores.zipIdx.filterMap fun (p, i) =>
    if p.chgMax ≠ 0 || p.disMax ≠ 0 then
      some (mkDec x (64 + i) eH (real (max p.chgMax p.disMax) eH) (real (-p.disMax) eH) (real p.chgMax eH) x.k.wMoveS
        (x.steps.map fun _ => 0))
    else none
  let zones := x.k.zones.zipIdx.map fun (z, i) =>
    let ps := x.zonePlants i
    mkDec x (128 + i) eT (real z.tMax eT) (real (maxOf z.tMin (ps.map (·.tSupMin))) eT)
      (real (minOf z.tMax (ps.map (·.tSupMax))) eT) x.k.wMoveT (x.steps.map fun _ => 0)
  let points := x.k.points.zipIdx.map fun (p, i) =>
    let subs := (md.subs.zipIdx.filter fun e => x.k.subPoint.getD e.2 0xFF = i).map (·.1.dpMin)
    let lo := match subs with | [] => x.freeInt (320 + i) | a :: l => maxOf a l
    mkDec x (144 + i) eP (real p.1 eP) (real lo eP) (real p.1 eP) x.k.wMoveDp
      (x.steps.map fun t => real p.2 (-16) * x.elecAt t * dt)
  plants ++ stores ++ zones ++ points

/-- The heat of a plant in committed state k (R105). -/
def DIn.heatNow (x : DIn) (p : MPlant) : Rat :=
  let q := real (li x.base.q p.branch) (expOf x.md 1)
  let dT := real (li x.base.t p.sup - li x.base.t p.ret) (expOf x.md 2)
  q * real x.md.cp (-24) * (if p.cooling then -dT else dT)

/-! ### The program in Q8.24 (R105, R106) -/

/-- A sparse row: entries by column. -/
abbrev SRow := List (Nat × Int)

/-- The problem in per-unit Q8.24. -/
structure Prob where
  n : Nat
  nh : Nat
  g : Array SRow
  c : Array Int
  a : Array SRow
  b : Array Int
  cr : Array SRow
  d : Array Int
  x0 : Array Int
  conflict : Bool
  cold : Bool
  deriving Repr

/-- A two-sided row: exact coefficients and bounds. -/
structure RatRow where
  co : List (Nat × Rat)
  lo : Rat
  hi : Rat
  deriving Repr

/-- A two-sided row as its two rows of Ĉx ≥ d, with a lower bound above the upper one replaced by it. -/
def rowPair (r : RatRow) : DM (List (SRow × Int)) := do
  let lo := if r.hi < r.lo then r.hi else r.lo
  let pos ← r.co.mapM fun e => do return (e.1, ← q24 e.2)
  let neg ← r.co.mapM fun e => do return (e.1, ← q24 (-e.2))
  let dl ← q24 lo
  let dh ← q24 (-r.hi)
  return [(pos, dl), (neg, dh)]

/-- The charge rate of a store at a step of the previous plan, where that plan has the store and the step: a plan under another
H_S or N_H still is the previous one (R105; by STORE_ID and step, DESIGN CHOICE, log 69). -/
def DIn.prevRate (x : DIn) (st : MStore) (t : Nat) : Option Int :=
  x.before.bind fun (n, l, ids) => if t < n then (ids.findIdx? (· = st.id)).map fun i => li l ((64 + i) * n + t) else none

/-- The efficiency η of a store at a step (R105). -/
def DIn.eta (x : DIn) (st : MStore) (t : Nat) : Rat :=
  if (x.prevRate st t).any (· < 0) then 1 / real st.etaDis (-30) else real st.etaChg (-30)

/-- The two-sided rows of Ĉ: bounds, ramps and states of charge (R105). -/
def DIn.ratRows (x : DIn) (ds : List Dec) : List RatRow :=
  let nh := x.nH
  let dt : Rat := 1 / 4
  let bounds := ds.zipIdx.flatMap fun (v, i) => x.steps.map fun t =>
    { co := [(i * nh + t, 1)], lo := v.lo * v.inv, hi := v.hi * v.inv : RatRow }
  let eH := expOf x.md 6
  let ramps := ds.zipIdx.flatMap fun (v, i) =>
    match (if v.d < 64 then x.md.plants[v.d]? else none) with
    | none => []
    | some p => x.steps.map fun t =>
      let h0 := if t = 0 then x.heatNow p * v.inv else 0
      { co := (i * nh + t, (1 : Rat)) :: (if t = 0 then [] else [(i * nh + t - 1, -1)]),
        lo := real (-p.rampDown) eH * v.inv + h0, hi := real p.rampUp eH * v.inv + h0 : RatRow }
  let socs := ds.zipIdx.flatMap fun (v, i) =>
    match (if 64 ≤ v.d && v.d < 128 then x.md.stores[v.d - 64]? else none) with
    | none => []
    | some st =>
      let f := dt / real st.capacity (expOf x.md 7)
      let soc0 := real (li x.soc (v.d - 64)) (-30)
      x.steps.map fun t =>
        let loss := ((t + 1 : Nat) : Rat) * real st.loss eH * f
        { co := (List.range (t + 1)).map fun u => (i * nh + u, x.eta st u * v.nom * f),
          lo := real st.socMin (-30) - soc0 + loss, hi := real st.socMax (-30) - soc0 + loss : RatRow }
  bounds ++ ramps ++ socs

/-- σ of the balance: −1 when every plant is a cooling plant (R105). -/
def DIn.sigma (x : DIn) : Rat := if x.md.plants != [] && x.md.plants.all (·.cooling) then -1 else 1

/-- The coefficient of a decision in the balance row, before its division (R105). -/
def DIn.balCo (x : DIn) (v : Dec) : Rat :=
  if v.d < 64 then v.nom
  else if v.d < 128 then -v.nom
  else if v.d < 144 then -x.sigma * real ((x.k.zones.getD (v.d - 128) default).g) (expOf x.md 9) * v.nom
  else 0

/-- The right-hand side of a balance row, before its division; the heat demand is taken at the step's start, as prices are
(DESIGN CHOICE, log 69). -/
def DIn.balRhs (x : DIn) (t : Nat) : Rat :=
  let heat := (List.range x.fc.nSubs).foldl (fun (a : Rat) n =>
    a + real (x.series x.fc.heats n (x.stepTime t)) x.fc.eHeat) 0
  let amb := x.k.zones.foldl (fun (a : Rat) z => a + real z.g (expOf x.md 9) * real z.tAmb (expOf x.md 2)) 0
  heat - x.sigma * amb

/-- The starting point of a decision at a step in Q8.24, and whether it came from the previous plan (R107). -/
def DIn.startAt (x : DIn) (v : Dec) (t : Nat) : DM Int :=
  match (if dWarm x.desc then x.prev else none) with
  | some p => do
    let lo ← q24 (v.lo * v.inv)
    let hi ← q24 (v.hi * v.inv)
    return clampInt lo hi (li p (v.d * x.nH + t))
  | none => q24 ((v.lo + v.hi) / 2 * v.inv)

/-- v of step −1 in per unit, the initial value of the variable: the committed heat of a plant, and of any other x₀ at
step 0 (R105, R107, assumption 27). -/
def DIn.xBefore (x : DIn) (v : Dec) (x0 : Int) : Rat :=
  match (if v.d < 64 then x.md.plants[v.d]? else none) with
  | some p => x.heatNow p * v.inv
  | none => real x0 (-24)

/-- A price or demand that the problem takes from the forecast clamps in its interpolation (R93, R113). -/
def DIn.seriesClamps (x : DIn) : Bool :=
  let f := x.fc
  let sat := fun vs num => x.steps.any fun t => (x.seriesAt vs num (x.stepTime t)).2
  let plants := (x.md.plants.zipIdx.filter fun e => x.k.avail.testBit e.2).map (·.1)
  ((!plants.isEmpty || 0 < x.k.nDpp) && sat f.elec 0) ||
    (plants.any fun p => p.priceIndex < f.nPrice && sat f.prices p.priceIndex) ||
    (List.range f.nSubs).any fun n => sat f.heats n

/-- Row `t` of G for a decision whose variables start at column `c0` (R105). -/
def moveRow (wm wp : Int) (nh c0 t : Nat) : DM SRow := do
  let diag ← dnote (sat32 (2 * wm * (if t + 1 < nh then 2 else 1) + wp))
  let off ← dnote (sat32 (-2 * wm))
  return (if t = 0 then [] else [(c0 + t - 1, off)]) ++ [(c0 + t, diag)] ++ (if t + 1 < nh then [(c0 + t + 1, off)] else [])

/-- The problem built (R105, R106); x₀ in −W_PROX·x₀ is the start rounded to Q8.24 (DESIGN CHOICE, log 69). -/
def DIn.build (x : DIn) : DM Prob := do
  let ds := x.decs
  let nh := x.nH
  let sumH := ((x.md.plants.zipIdx.filter fun e => x.k.avail.testBit e.2).map fun e => real e.1.heatMax (expOf x.md 6)).foldl (· + ·) 0
  let invS := if sumH = 0 then real (x.freeInt (160 + 160)) (-24) else 1 / sumH
  let costs := ds.map fun v => v.cost.map (· * v.nom)
  let big := costs.foldl (fun (m : Rat) l => l.foldl (fun (m : Rat) c => max m (if c < 0 then -c else c)) m) 0
  let scale : Rat := if big = 0 then 1 else 1 / big
  let x0 ← ds.mapM fun v => x.steps.mapM fun t => x.startAt v t
  let g ← ds.zipIdx.mapM fun (v, i) => x.steps.mapM fun t => moveRow v.wMove x.k.wProx nh (i * nh) t
  let c ← ((ds.zip costs).zip x0).mapM fun ((v, cs), xs) => (cs.zip xs).zipIdx.mapM fun ((k, x0i), t) =>
    q24 (k * scale - real x.k.wProx (-24) * real x0i (-24) -
      (if t = 0 then 2 * real v.wMove (-24) * x.xBefore v x0i else 0))
  let a ← x.steps.mapM fun t => ds.zipIdx.mapM fun (v, i) => do return (i * nh + t, ← q24 (x.balCo v * invS))
  let b ← x.steps.mapM fun t => q24 (x.balRhs t * invS)
  let rr := x.ratRows ds
  let rows ← rr.mapM rowPair
  let rows := rows.flatten
  return { n := ds.length * nh, nh := nh, g := g.flatten.toArray, c := c.flatten.toArray, a := a.toArray, b := b.toArray,
           cr := (rows.map (·.1)).toArray, d := (rows.map (·.2)).toArray, x0 := x0.flatten.toArray,
           conflict := ds.any (·.conflict) || rr.any (fun r => decide (r.hi < r.lo)),
           cold := !(dWarm x.desc && x.prev.isSome) }

/-- A PRICE_INDEX without its vector, of a plant that is priced (R105). -/
def DIn.priceMissing (x : DIn) : Bool :=
  x.md.plants.zipIdx.any fun e => x.k.avail.testBit e.2 && x.fc.nPrice ≤ e.1.priceIndex

end Sys2Proof.Machine
end

