-- ==== Sys2Proof/Machine/DpoSolve.lean ====
section
/-!
DEFINITION. The interior-point method and MINRES of the dispatch optimiser, bit for bit (04 R107 to R109 R111).
-/
namespace Sys2Proof.Machine

/-! ### Q8.24 operations (R107) -/

/-- 1.0 in Q8.24. -/
def q24One : Int := 0x1000000

/-- A sum formed exactly and passed once through `sat32` (R64). -/
def dsum (v : Int) : DM Int := dnote (sat32 v)
/-- A product p·q. -/
def dmul (a b : Int) : DM Int := dnote (wb (a * b) 24)
/-- A quotient. -/
def ddiv (a b : Int) : DM Int := dnote (divq a b)

/-- The dot product kept at 2^48 scale. -/
def ddot (a b : Array Int) : Int := ((a.toList.zip b.toList).map fun e => e.1 * e.2).sum

/-- An elementwise operation. -/
def dmap (f : Int → DM Int) (a : Array Int) : DM (Array Int) := a.mapM f
/-- An elementwise operation on two vectors. -/
def dmap2 (f : Int → Int → DM Int) (a b : Array Int) : DM (Array Int) :=
  ((a.toList.zip b.toList).mapM fun e => f e.1 e.2).map List.toArray

/-- A matrix of rows times a vector: each row an exact sum written back once. -/
def dspmv (m : Array SRow) (v : Array Int) : DM (Array Int) :=
  m.mapM fun r => dnote (wb ((r.map fun e => e.2 * at0 v e.1).sum) 24)

/-- The transpose of a matrix with `n` columns. -/
def transpose (m : Array SRow) (n : Nat) : Array SRow :=
  (m.zipIdx).foldl (fun t (r, i) => r.foldl (fun t e => t.modify e.1 (fun l => l ++ [(i, e.2)])) t) (Array.replicate n [])

/-- The integer square root rounded down, by bits from `k` down. -/
def isqrtFrom (a : Nat) : Nat → Nat → Nat
  | 0, r => r
  | k + 1, r => let c := r + 2 ^ k; isqrtFrom a k (if c * c ≤ a then c else r)

/-- `sqrt24(A)`: the nearest integer to √A; 0 and MINRES_BREAK below 0 (R109). -/
def sqrt24 (a : Int) : DM Int := do
  if a < 0 then
    modify fun n => { n with brk := true }
    return 0
  let n := a.toNat
  let r := isqrtFrom n (bitLen n / 2 + 1) 0
  dnote (sat32 (if r * r + r < n then r + 1 else r))

/-! ### MINRES (R109) -/

/-- The state of a MINRES run. -/
structure Minres where
  v : Array Int
  qOld : Array Int
  eOld : Array Int
  e : Array Int
  q : Array Int
  u : Array Int
  g : Int
  gOld : Int
  eta : Int
  cOld : Int
  c : Int
  sOld : Int
  s : Int
  deriving Repr

/-- One iteration of MINRES. -/
def minresStep (spmv : Array Int → DM (Array Int)) (minv : Array Int) (m : Minres) : DM Minres := do
  if m.g = 0 then
    modify fun n => { n with brk := true }
    return m
  let u ← dmap (fun x => ddiv x m.g) m.u
  let ku ← spmv u
  let dl ← dnote (wb (ddot ku u) 24)
  let f1 ← ddiv dl m.g
  let f2 ← ddiv m.g m.gOld
  let t1 ← dmap (dmul f1) m.q
  let t2 ← dmap (dmul f2) m.qOld
  let qNew ← ((ku.toList.zip (t1.toList.zip t2.toList)).mapM fun e => dsum (e.1 - e.2.1 - e.2.2)).map List.toArray
  let uNew ← dmap2 dmul minv qNew
  let gNew ← sqrt24 (ddot uNew qNew)
  let a0 ← dsum ((← dmul m.c dl) - (← dmul (← dmul m.cOld m.s) m.g))
  let a2 ← dsum ((← dmul m.s dl) + (← dmul (← dmul m.cOld m.c) m.g))
  let a3 ← dmul m.sOld m.g
  let a1 ← sqrt24 (a0 * a0 + gNew * gNew)
  if a1 = 0 then
    modify fun n => { n with brk := true }
    return { m with u := u }
  let cNew ← ddiv a0 a1
  let sNew ← ddiv gNew a1
  let w1 ← dmap (dmul a3) m.eOld
  let w2 ← dmap (dmul a2) m.e
  let ws ← ((u.toList.zip (w1.toList.zip w2.toList)).mapM fun e => dsum (e.1 - e.2.1 - e.2.2)).map List.toArray
  let eNew ← dmap (fun x => ddiv x a1) ws
  let ce ← dmul cNew m.eta
  let v ← dmap2 (fun a b => do dsum (a + (← dmul ce b))) m.v eNew
  let eta ← dsum (-(← dmul sNew m.eta))
  return { v := v, qOld := m.q, q := qNew, u := uNew, gOld := m.g, g := gNew, eta := eta, cOld := m.c, c := cNew,
           sOld := m.s, s := sNew, eOld := m.e, e := eNew }

/-- `n` iterations of MINRES. -/
def minresRun (spmv : Array Int → DM (Array Int)) (minv : Array Int) : Nat → Minres → DM Minres
  | 0, m => pure m
  | n + 1, m => do minresRun spmv minv n (← minresStep spmv minv m)

/-- `minres(K, f, n)` from zero. -/
def minres (spmv : Array Int → DM (Array Int)) (minv f : Array Int) (n : Nat) : DM (Array Int) := do
  let z := Array.replicate f.size (0 : Int)
  let u ← dmap2 dmul minv f
  let g ← sqrt24 (ddot u f)
  let m0 : Minres :=
    { v := z, qOld := z, eOld := z, e := z, q := f, u := u, g := g, gOld := q24One, eta := g, cOld := q24One,
      c := q24One, sOld := 0, s := 0 }
  let m ← minresRun spmv minv n m0
  return m.v

/-! ### The interior-point iteration (R107, R108) -/

/-- The iterate of the interior-point method. -/
structure Ipm where
  x : Array Int
  y : Array Int
  w : Array Int
  z : Array Int
  deriving Repr

/-- An entry added to a row kept in ascending columns, at 2^48 scale. -/
def addEntry : SRow → Nat → Int → SRow
  | [], k, v => [(k, v)]
  | (k', v') :: m, k, v =>
    if k < k' then (k, v) :: (k', v') :: m else if k = k' then (k, v' + v) :: m else (k', v') :: addEntry m k v

/-- H for i ≤ j, mirrored (R108). -/
def formH (p : Prob) (sig : Array Int) : DM (Array SRow) := do
  let up0 : Array SRow := p.g.zipIdx.map fun (r, i) => (r.filter fun e => i ≤ e.1).foldl (fun l e => addEntry l e.1 (e.2 * 2 ^ 24)) []
  let up ← (List.range p.cr.size).foldlM (fun (h : Array SRow) r => do
    let row := p.cr.getD r []
    let us ← row.mapM fun e => do return (e.1, ← dnote (wb (at0 sig r * e.2) 24))
    return row.foldl (fun h ei => us.foldl (fun h uj =>
      if ei.1 ≤ uj.1 then h.modify ei.1 (fun l => addEntry l uj.1 (ei.2 * uj.2)) else h) h) h) up0
  let up ← up.mapM fun r => r.mapM fun e => do return (e.1, ← dnote (wb e.2 24))
  let low := transpose (up.zipIdx.map fun (r, i) => r.filter fun e => e.1 != i) p.n
  return (up.zipIdx.map fun (r, i) => low.getD i [] ++ r)

/-- The reciprocal preconditioner (R108). -/
def formMinv (p : Prob) (h : Array SRow) : DM (Array Int) := do
  let mx ← (List.range p.n).mapM fun i =>
    let hii := ((h.getD i []).find? fun e => e.1 = i).map (·.2)
    ddiv q24One (max (((hii.getD 0).natAbs : Nat) : Int) 1)
  let mxa := mx.toArray
  let mr ← p.a.toList.mapM fun r => do
    let sq ← r.mapM fun e => do return (e.1, ← dmul e.2 e.2)
    let m ← dnote (wb ((sq.map fun e => e.2 * at0 mxa e.1).sum) 24)
    ddiv q24One (max m 1)
  return (mx ++ mr).toArray

/-- `stepmax(v, Δ)`: 1.0 when no row falls (R107). -/
def stepmax (v dv : Array Int) : DM Int := do
  let qs ← ((v.toList.zip dv.toList).filter fun e => e.2 < 0).mapM fun e => ddiv e.1 (-e.2)
  return match qs with
    | [] => q24One
    | a :: l => l.foldl min a

/-- SIGMA of an outer iteration, counted from 1 (R107). -/
def sigmaOf (it : Nat) : Int := if it ≤ 6 then 0x20000000 else if it ≤ 14 then 0x0CCCCCCD else 0x06666666

/-- μ of an iterate: divq of the gap by the number of rows (R107). -/
def gapOf (p : Prob) (i : Ipm) : DM Int := do
  let d ← dnote (wb (ddot i.w i.z) 24)
  ddiv d (p.cr.size * 2 ^ 24)

/-- rp of an iterate (R107). -/
def balRes (p : Prob) (x : Array Int) : DM (Array Int) := do
  let ax ← dspmv p.a x
  dmap2 (fun a b => dsum (a - b)) ax p.b

/-- One outer iteration (R107). -/
def ipmStep (p : Prob) (at_ ct : Array SRow) (cg it : Nat) (i : Ipm) : DM Ipm := do
  let gx ← dspmv p.g i.x
  let aty ← dspmv at_ i.y
  let ctz ← dspmv ct i.z
  let rd ← ((List.range p.n).mapM fun k => dsum (at0 gx k + at0 p.c k - at0 aty k - at0 ctz k)).map List.toArray
  let rp ← balRes p i.x
  let cx ← dspmv p.cr i.x
  let rw_ ← ((List.range p.cr.size).mapM fun r => dsum (at0 cx r - at0 p.d r - at0 i.w r)).map List.toArray
  let mu ← gapOf p i
  let smu ← dnote (wb (sigmaOf it * mu) 30)
  let sig ← dmap2 ddiv i.z i.w
  let h ← formH p sig
  let t ← ((List.range p.cr.size).mapM fun r => do
    let a ← ddiv smu (at0 i.w r)
    let b ← dmul (at0 sig r) (at0 rw_ r)
    dsum (a - at0 i.z r - b)).map List.toArray
  let ctt ← dspmv ct t
  let fx ← dmap2 (fun a b => dsum (a - b)) ctt rd
  let fr ← dmap (fun a => dsum (-a)) rp
  let minv ← formMinv p h
  let k : Array SRow := (h.zipIdx.map fun (r, j) => r ++ (at_.getD j []).map fun e => (p.n + e.1, e.2)) ++ p.a
  let sol ← minres (dspmv k) minv (fx ++ fr) cg
  let dx := sol.extract 0 p.n
  let dy ← dmap (fun a => dsum (-a)) (sol.extract p.n (p.n + p.nh))
  let cdx ← dspmv p.cr dx
  let dw_ ← dmap2 (fun a b => dsum (a + b)) cdx rw_
  let dz ← ((List.range p.cr.size).mapM fun r => do dsum (at0 t r - (← dmul (at0 sig r) (at0 cdx r)))).map List.toArray
  let s1 ← stepmax i.w dw_
  let s2 ← stepmax i.z dz
  let al ← dmul (min q24One (min s1 s2)) 0x00FEB852
  let step := fun (a b : Int) => do dsum (a + (← dmul al b))
  let x ← dmap2 step i.x dx
  let y ← dmap2 step i.y dy
  let w ← dmap2 (fun a b => do return max (← step a b) 1) i.w dw_
  let z ← dmap2 (fun a b => do return max (← step a b) 1) i.z dz
  return { x := x, y := y, w := w, z := z }

/-- Outer iterations from number `it` on. -/
def ipmRun (p : Prob) (at_ ct : Array SRow) (cg : Nat) : Nat → Nat → Ipm → DM Ipm
  | 0, _, i => pure i
  | n + 1, it, i => do ipmRun p at_ ct cg n (it + 1) (← ipmStep p at_ ct cg it i)

/-- The iterate after so many outer iterations (R107). -/
def ipmIterate (p : Prob) (cg n : Nat) : DM Ipm := do
  let w0 : Int := 0x00100000
  let cx ← dspmv p.cr p.x0
  let w ← dmap2 (fun a b => do return max (← dsum (a - b)) w0) cx p.d
  let i0 : Ipm := { x := p.x0, y := Array.replicate p.nh 0, w := w, z := Array.replicate p.cr.size w0 }
  ipmRun p (transpose p.a p.n) (transpose p.cr p.n) cg n 1 i0

/-- The whole method: 24 outer iterations (R107), RP_MAX and μ of the result (R111). -/
def ipm (p : Prob) (cg : Nat) : DM (Array Int × Int × Int) := do
  let i ← ipmIterate p cg 24
  let rp ← balRes p i.x
  let mu ← gapOf p i
  return (i.x, rp.toList.foldl (fun (m : Int) v => max m ((v.natAbs : Nat) : Int)) 0, mu)

end Sys2Proof.Machine
end

