-- ==== Sys2Proof/Machine/Dpo.lean ====
section
/-!
DEFINITION. Forecast sets, dispatch instants and dispatch jobs, and the retries of solver units (04 R101 to R103 R110
to R115, 02 R52, 03 R82 R83).
-/
namespace Sys2Proof.Machine

/-! ### Forecast sets (R101, R102) -/

/-- The bytes that a set's counts make (R101). -/
def forecastLen (nPts nSubs nPrice : Nat) : Nat := 64 + 4 * nPts * (3 * nSubs + nPrice + 1)

/-- A set read from its bytes. -/
def forecastRead (b : List Byte) : Forecast :=
  let w := bodyW b
  let nPts := w 6
  let nS := w 7
  let nP := w 8
  let vals := ((bodyWords b).drop 16).map (sInt 32)
  let part := fun (i n : Nat) => (vals.drop (i * nPts)).take (n * nPts)
  { serial := w 3, t0 := w 4 + w 5 * 2 ^ 32, nPts := nPts, nSubs := nS, nPrice := nP,
    eFlow := sInt 8 (bitsOf 31 24 (w 9)), eTemp := sInt 8 (bitsOf 23 16 (w 9)), eHeat := sInt 8 (bitsOf 15 8 (w 9)),
    eCost := sInt 8 (bitsOf 7 0 (w 9)), hs := w 10 + w 11 * 2 ^ 32, flows := part 0 nS, temps := part nS nS,
    heats := part (2 * nS) nS, prices := part (3 * nS) nP, elec := part (3 * nS + nP) 1 }

/-- Whether a delivered set is accepted (R101, R102). -/
def forecastOk (s : State) (b : List Byte) : Bool :=
  let w := bodyW b
  match s.nsa.model with
  | none => false
  | some md =>
    w 0 = 0x514E4643 && w 1 = 1 && 2 ≤ w 6 && w 6 ≤ 169 && w 8 ≤ 64 && w 2 = b.length &&
    b.length = forecastLen (w 6) (w 7) (w 8) && w 7 = md.subs.length && w 10 + w 11 * 2 ^ 32 = md.hs &&
    [12, 13, 14, 15].all fun i => w i = 0

/-- A set delivered at an instant waits for the next network-cycle instant, or is refused (R102). -/
def deliverForecast (s : State) (acc : Nat) (b : List Byte) : State :=
  if forecastOk s b then { s with dpo := { s.dpo with pendForecast := some (acc, forecastRead b) } }
  else evBit s F.DPO_EVENTS_FCST_REFUSED 3 []

/-- A set that was accepted before the instant comes into force (R102). -/
def forecastInForce (s : State) : State :=
  match s.dpo.pendForecast with
  | none => s
  | some (t, f) =>
    if nowNs s ≤ t then s
    else
      let ok := match s.nsa.model with | some md => f.hs = md.hs | none => false
      let s := { s with dpo := { s.dpo with forecast := some f, pendForecast := none, invalid := !ok } }
      setF (setF s F.DPO_FCST_SERIAL_SERIAL f.serial) F.DPO_STATUS_NO_FCST (bNat (!ok))

/-- The valid set in force. -/
def validForecast (s : State) : Option Forecast := if s.dpo.invalid then none else s.dpo.forecast

/-! ### Outcomes (R112, R113) -/

/-- The bit of DPO_EVENTS of an outcome. -/
def outcomeBit (o : Nat) : Option Fld :=
  match o with
  | 1 => some F.DPO_EVENTS_DEADLINE
  | 2 => some F.DPO_EVENTS_REFUSED
  | 3 => some F.DPO_EVENTS_FAULT
  | 5 => some F.DPO_EVENTS_NO_FCST
  | 6 => some F.DPO_EVENTS_REJECTED
  | 7 => some F.DPO_EVENTS_NO_STATE
  | _ => none

/-- The outcome of dispatch instant `j` shown. -/
def dpoOutcome (s : State) (j o : Nat) : State :=
  let s := setF { s with dpo := { s.dpo with ended := some (j, o), due := none } } F.DPO_STATUS_LAST_OUTCOME o
  match outcomeBit o with
  | some f => setF s f 1
  | none => s

/-- The words of a plan block's header (R113). -/
def planHeader (desc : List Nat) (refuse outcome flags iters nH : Nat) (rp mu : Int) (j cycle serial elapsed : Nat) :
    List Byte :=
  let w := fun v => leBytes 4 v
  w (dTag desc * 2 ^ 16 + refuse * 16 + outcome) ++ w flags ++ w (iters * 256 + nH) ++ w (uNat 32 rp) ++ w (uNat 32 mu) ++
  w 0 ++ leBytes 8 j ++ leBytes 8 cycle ++ w serial ++ w elapsed ++ leBytes 16 0

/-- A plan block held until the next dispatch instant (R113, R232). -/
def holdPlan (s : State) (desc : List Nat) (bytes : List Byte) : State :=
  if dw desc 12 = 0 then s else { s with dpo := { s.dpo with plan := some (dw desc 12, bytes) } }

/-- The plan block of a descriptor lies in the user region (R113). -/
def planFits (d : List Nat) : Bool := dw d 12 + 64 + 640 * bitsOf 7 0 (dw d 13) ≤ userSize

/-- A job refused with a code; its plan block is the header alone, where the block lies in the user region (R113,
assumption 27). -/
def dpoRefuse (s : State) (d : List Nat) (j cycle serial at_ code : Nat) : State :=
  let s := setF (dpoOutcome s j 2) F.DPO_STATUS_LAST_REFUSE code
  let s := setF (setF s F.DPO_STATUS_FCST_EXTENDED 0) F.DPO_LAST_TIME_ELAPSED (usSince at_ (nowNs s))
  if planFits d then
    holdPlan s d (planHeader d code 2 0 0 (bitsOf 7 0 (dw d 13)) 0 0 j cycle serial (usSince at_ (nowNs s)))
  else s

/-! ### The decision table (R24, R52, R111, R112) -/

/-- A decision of an old model rescaled to a new one's class exponent (R50). -/
def mapValue (old new : Model) (cls : Nat) (v : Int) : Int := ((rescale plWARM (expOf old cls) (expOf new cls) v).run Notes.none).1

/-- Decisions mapped by PLANT_ID and STORE_ID, with the counts of discarded and undecided elements (R52). -/
def mapDecisions (old new : Model) (vs : List Int) : List Int × Nat × Nat :=
  let pick := fun (ids : List Nat) (off id : Nat) => (ids.findIdx? (· = id)).map fun i => mapValue old new 6 (li vs (off + i))
  let oP := old.plants.map (·.id)
  let oS := old.stores.map (·.id)
  let plants := new.plants.map fun p => (pick oP 0 p.id).getD p.heatMin
  let stores := new.stores.map fun p => (pick oS 64 p.id).getD 0
  let pad := fun (l : List Int) => (l ++ List.replicate 64 0).take 64
  let lost := (oP.filter fun i => !(new.plants.map (·.id)).contains i).length +
    (oS.filter fun i => !(new.stores.map (·.id)).contains i).length
  let bare := (new.plants.filter fun p => !oP.contains p.id).length + (new.stores.filter fun p => !oS.contains p.id).length
  (pad plants ++ pad stores ++ ((vs.drop 128).take 16).map (mapValue old new 2) ++
    ((vs.drop 144).take 16).map (mapValue old new 0), lost, bare)

/-- The next table comes into force, mapped where another model is active now (R24, R52, R112). -/
def tableInForce (s : State) (t : DecTable) : State :=
  let (vs, s) := match s.dpo.nextModel, s.nsa.model with
    | some old, some new =>
      if old = new then (t.values, s)
      else
        let r := mapDecisions old new t.values
        (r.1, ev s blkNSA 0x8A 3 [r.2.1, r.2.2])
    | _, _ => (t.values, s)
  let s := { s with dpo := { s.dpo with table := some { t with values := vs }, next := none } }
  setF (set64 s R.DPO_DEC_LO R.DPO_DEC_HI t.index) F.DPO_STATUS_DEC_VALID 1

/-- Dispatch instant j ended in another outcome: the table stays (R112). -/
def tableKept (s : State) (o : Nat) : State :=
  let s := bump s F.DPO_CNT_KEPT_COUNT
  if o = 8 then s else ev s blkDPO 0x80 4 [o]

/-- The inputs of a job in progress; the previous plan is that of the latest APPLIED job (DESIGN CHOICE, log 69). -/
def dinOf (s : State) (j : Job) (md : Model) (f : Forecast) : DIn :=
  let nh := bitsOf 7 0 (dw j.desc 13)
  { md := md, k := blockRead j.vector md.subs.length, fc := f, desc := j.desc, base := j.base, soc := j.snap.storeSoc,
    prev := match s.dpo.prevPlan with
      | some (hs, n, l, _) => if hs = md.hs && n = nh then some l else none
      | none => none,
    before := s.dpo.prevPlan.map (·.2),
    t0 := (s.dpo.jobIndex + 1) * dispNs s, free := s.dpo.jobFree }

/-- FLAGS of a plan block (R113). -/
def planFlags (conflict retried cold extended missing centred sat brk : Bool) : Nat :=
  bNat conflict * 128 + bNat retried * 64 + bNat cold * 32 + bNat extended * 16 + bNat missing * 8 + bNat centred * 4 +
    bNat sat * 2 + bNat brk

/-- FLAGS of a job that stopped after so many outer iterations (R113, assumption 27). -/
def cutFlags (s : State) (x : DIn) (iters : Nat) : Nat :=
  let prog : DM Prob := do
    let p ← x.build
    let _ ← ipmIterate p (dCg x.desc) iters
    return p
  let (p, n) := prog.run ⟨x.seriesClamps, false⟩
  planFlags p.conflict s.dpo.retried p.cold x.extended x.priceMissing false n.sat n.brk

/-- The dispatch job is over. -/
def endDispatch (s : State) : State :=
  setF { s with dpo := { s.dpo with job := none, retried := false } } F.NSA_STATUS_DPO_BUSY 0

/-- The peer is told of a dispatch job that ended after so many outer iterations (R291). -/
def dispatchTold (s : State) (j outcome iters elapsed : Nat) (retried : Bool) : State :=
  sendEntry s (.done { id := ⟨5, j⟩, outcome := outcome, newton := iters, cg := 0, therm := false, retried := retried,
                       elapsed := elapsed, tick := none })

/-- A dispatch job that ended without a plan, DEADLINE or FAULT, after so many outer iterations: its plan block is the header
alone (R113, assumption 27). -/
def dpoAbort (s : State) (j : Job) (outcome iters elapsed : Nat) : State :=
  match s.dpo.jobFcst, j.model with
  | some f, some md =>
    let x := dinOf s j md f
    let s := holdPlan s j.desc (planHeader j.desc 0 outcome (cutFlags s x iters) iters x.nH 0 0 s.dpo.jobIndex j.cycle
      f.serial elapsed)
    let s := setF (setF s F.DPO_STATUS_FCST_EXTENDED (bNat x.extended)) F.DPO_LAST_TIME_ELAPSED elapsed
    dispatchTold (endDispatch (dpoOutcome s s.dpo.jobIndex outcome)) s.dpo.jobIndex outcome iters elapsed s.dpo.retried
  | _, _ => s

/-- What became of the previous dispatch instant takes effect (R24, R112, R232). -/
def settleNow (s : State) (j : Nat) : State :=
  let s := match s.dpo.job with
    | some x => dpoAbort s x 1 0 (usSince x.start (nowNs s))
    | none => match s.dpo.due with
      | some d => dpoOutcome s d.1 7
      | none => s
  let s := match s.dpo.plan with
    | some (a, b) => { s with mem := memPut s.mem (userBase + a) b, dpo := { s.dpo with plan := none } }
    | none => s
  match s.dpo.ended with
  | some (i, o) =>
    let s := { s with dpo := { s.dpo with ended := none } }
    if o = 0 && i + 1 = j then (match s.dpo.next with | some t => tableInForce s t | none => s)
    else tableKept s o
  | none => s

/-- At dispatch instant `j` the previous one is settled; a standby whose job still runs waits for the end that the active
module's entry gives it (R291). -/
def settlePrevious (s : State) (j : Nat) : State :=
  if roleOf s = roSTANDBY && s.dpo.job.isSome then { s with dpo := { s.dpo with late := some j } } else settleNow s j

/-- A dispatch instant of a module that runs, not yet met (R18). -/
def atDispatch (s : State) : Bool :=
  s.runState && executes s && nowNs s % dispNs s = 0 && s.dpo.instant != some (nowNs s / dispNs s)

/-- The decision table in force digested (R289). -/
def digestTable (s : State) (j : Nat) : State :=
  match s.dpo.table with
  | some t => digestUnit s 3 0 j (leBytes 8 j ++ t.values.flatMap fun v => leBytes 4 (uNat 32 v))
  | none => s

/-- What waited for the end of a standby's dispatch job takes effect once it has ended (R291). -/
def settleLate (s : State) : State :=
  match s.dpo.late with
  | some j => digestTable (settleNow { s with dpo := { s.dpo with late := none } } j) j
  | none => s

/-- The end of a dispatch job on a standby that the next dispatch instant has met. -/
def afterDispatch (s : State) : State := if roleOf s = roSTANDBY && s.dpo.job.isNone then settleLate s else s

/-- A tick that arrives at a dispatch instant brings the table of the previous job into force before anything else of the
instant, as step 5 of R20 does its state (R24, R27, R112); a module that has become the holder waits no longer. -/
def settleTable (s : State) : State :=
  let s := if roleOf s = roSTANDBY then s else settleLate s
  if atDispatch s then settlePrevious s (nowNs s / dispNs s) else s

/-- A dispatch instant met: the previous one settled, where it is not yet, and a new job due (R24, R103, R112). -/
def dispatchMet (s : State) : State :=
  let j := nowNs s / dispNs s
  let s := settlePrevious { s with dpo := { s.dpo with instant := some j } } j
  let s := if s.dpo.late.isSome then s else digestTable s j
  if s.nsa.dispDesc.isNone then s
  else if s.dpo.dpoOff then dpoOutcome s j 8
  else if s.nsa.model.isNone then dpoOutcome s j 4
  else { s with dpo := { s.dpo with due := some (j, nowNs s) } }

/-- The dispatch instant of the present tick, where it is still to come; it follows the network-cycle instant that it is
(R18). -/
def meetDispatch (s : State) : State :=
  if atDispatch s && s.nsa.instant = some (cycleNow s) then dispatchMet s else s

/-- DISPATCH_INSTANT (R24). -/
def execDispatchInstant (s : State) : Host.Outcome State Fault Refusal := .next (meetDispatch s)

/-! ### Dispatch jobs -/

/-- The code that refuses a job's problem and plan blocks, 0 for none (R104, R105, R113); that of a problem block with an
invalid field is 8 (DESIGN CHOICE, log 69). -/
def blockRefuse (s : State) (md : Model) (d : List Nat) : Nat :=
  let a := dw d 11
  let hd := memLe s.mem (userBase + a + 4) 4
  let (_, _, _, _, len) := blockOffs (bitsOf 15 8 hd) (bitsOf 7 0 hd) md.subs.length
  if userSize < a + 64 || userSize < a + len ||
      (dw d 12 ≠ 0 && !planFits d) then 6
  else if md.plants.any (·.cooling) && md.plants.any (fun p => !p.cooling) then 8
  else if !(blockRead (memBytes s.mem (userBase + a) len) md.subs.length).ok then 8
  else 0

/-- The bytes of a problem block. -/
def blockBytes (s : State) (md : Model) (a : Nat) : List Byte :=
  let hd := memLe s.mem (userBase + a + 4) 4
  memBytes s.mem (userBase + a) (blockOffs (bitsOf 15 8 hd) (bitsOf 7 0 hd) md.subs.length).2.2.2.2

/-- The dispatch job of a due instant begins (R103); a standby's job that is still there by then counts as one that the holder
ended DEADLINE. -/
def dispatchStart (s : State) (md : Model) (j at_ : Nat) (d : List Nat) (st : NetState) (f : Forecast) (sn : Snapshot) : State :=
  let s := if s.dpo.job.isSome then settleLate s else s
  let job := { newJob s md 5 st.cycle at_ d sn with base := baseOf st, vector := blockBytes s md (dw d 11) }
  let s := { s with dpo := { s.dpo with job := some job, jobIndex := j, jobFcst := some f, jobFree := s.free,
                                        retried := false, due := none },
                    free := s.free + 65536 }
  setF s F.NSA_STATUS_DPO_BUSY 1

/-- DISPATCH_JOB_START: once committed state k of the cycle of Dⱼ exists (R103, R112, R113). -/
def execDispatchJobStart (s : State) : Host.Outcome State Fault Refusal :=
  .next (match s.dpo.due, s.nsa.committed, s.nsa.model, s.nsa.snap, s.nsa.dispDesc with
    | some (j, at_), some st, some md, some sn, some d =>
      if st.cycle ≠ at_ / netNs s then s
      else if s.dpo.dpoOff then dpoOutcome s j 8
      else match validForecast s with
        | none => dpoOutcome s j 5
        | some f =>
          let c := descRefuse s d [5]
          let c := if c = 0 then blockRefuse s md d else c
          if c ≠ 0 then dpoRefuse s d j st.cycle f.serial at_ c else dispatchStart s md j at_ d st f sn
    | _, _, _, _, _ => s)

/-- The class mantissa of a decision in per unit (R111). -/
def classValue (v : Dec) (x : Int) : DM Int := ratAt (real x (-24) * v.nom) (-v.e)

/-- What a job that ran to its end leaves. -/
structure DOut where
  table : List Int
  plan : List (List Int)
  pu : List Int
  rp : Int
  mu : Int
  conflict : Bool
  cold : Bool
  sat : Bool
  brk : Bool
  deriving Repr

/-- A list of `n` entries from pairs of index and value, 0 elsewhere. -/
def spread (n : Nat) (l : List (Nat × Int)) : List Int :=
  (l.foldl (fun (a : Array Int) e => a.set! e.1 e.2) (Array.replicate n 0)).toList

/-- The whole dispatch job computed (R105 to R111). -/
def dispatchRun (x : DIn) : DOut :=
  let prog : DM DOut := do
    let p ← x.build
    let ds := x.decs
    let (sol, rp, mu) ← ipm p (dCg x.desc)
    let at_ := fun (i t : Nat) => at0 sol (i * x.nH + t)
    let first ← ds.zipIdx.mapM fun (v, i) => do
      let m ← classValue v (at_ i 0)
      let lo ← ratAt v.lo (-v.e)
      let hi ← ratAt v.hi (-v.e)
      return (v.d, clampInt lo hi m)
    let plan ← x.steps.mapM fun t => do
      let l ← ds.zipIdx.mapM fun (v, i) => do return (v.d, ← classValue v (at_ i t))
      return spread 160 l
    let pu := spread (160 * x.nH) (ds.zipIdx.flatMap fun (v, i) => x.steps.map fun t => (v.d * x.nH + t, at_ i t))
    return { table := spread 160 first, plan := plan, pu := pu, rp := rp, mu := mu, conflict := p.conflict,
             cold := p.cold, sat := false, brk := false }
  let (o, n) := prog.run ⟨x.seriesClamps, false⟩
  { o with sat := n.sat, brk := n.brk }

/-- A job that ended APPLIED or REJECTED (R111, R112, R113). -/
def dispatchEnd (s : State) (j : Job) (md : Model) (f : Forecast) (elapsed : Nat) : State :=
  let x := dinOf s j md f
  let o := dispatchRun x
  let ok := decide (o.rp ≤ sInt 32 (dw j.desc 14))
  let outcome := if ok then 0 else 6
  let flags := planFlags o.conflict s.dpo.retried o.cold x.extended x.priceMissing
    (ok && decide (sInt 32 (dw j.desc 15) < o.mu)) o.sat o.brk
  let bytes := planHeader j.desc 0 outcome flags 24 x.nH o.rp o.mu s.dpo.jobIndex j.cycle f.serial elapsed ++
    o.plan.flatMap fun st => st.flatMap fun v => leBytes 4 (uNat 32 v)
  let s := holdPlan s j.desc bytes
  let s := setF (setF s F.DPO_STATUS_FCST_EXTENDED (bNat x.extended)) F.DPO_LAST_TIME_ELAPSED elapsed
  let ix := s.dpo.jobIndex
  let s := if ok then
      bump { s with dpo := { s.dpo with next := some { index := ix, values := o.table }, nextModel := some md,
                                        prevPlan := some (md.hs, x.nH, o.pu, md.stores.map (·.id)) } } F.DPO_CNT_APPLIED_COUNT
    else s
  dispatchTold (endDispatch (dpoOutcome s ix outcome)) ix outcome 24 elapsed s.dpo.retried

/-- DISPATCH_JOB_END: the job ends after its 24 iterations (R111). -/
def execDispatchJobEnd (elapsed : Nat) (s : State) : Host.Outcome State Fault Refusal :=
  .next (match s.dpo.job, s.dpo.jobFcst with
    | some j, some f =>
      (match j.model with
       | some md =>
         if waits s .dpo j then s
         else withEnd s .dpo j elapsed fun s j elapsed => afterDispatch (dispatchEnd s j md f elapsed)
       | none => s)
    | _, _ => s)

/-- The dispatch job stops and its result is discarded (R113). -/
def dispatchStop (s : State) (iters elapsed : Nat) : State :=
  match s.dpo.job with
  | some j => dpoAbort s j 1 (min iters 24) elapsed
  | none => s

/-- DPO_DEADLINE (R113). -/
def execDpoDeadline (iters elapsed : Nat) (s : State) : Host.Outcome State Fault Refusal :=
  ownDecision s fun s => dispatchStop s iters elapsed

/-- PLY_OFF or DPO_OFF written: it applies from the next network-cycle instant, on the standby as well (R115). -/
def ctrlWritten (s : State) : State :=
  let t := nextCycle s
  let bits := 2 * getF s F.DPO_CTRL_PLY_OFF + getF s F.DPO_CTRL_DPO_OFF
  forwardBody { s with dpo := { s.dpo with ctrlAt := t } } 0x0D t (leBytes 4 bits)

/-- PLY_OFF: DPO_CTRL.PLY_OFF written (R115). -/
def execPlyOff (on : Bool) (s : State) : Host.Outcome State Fault Refusal :=
  .next (ctrlWritten (setF s F.DPO_CTRL_PLY_OFF (bNat on)))

/-- DPO_OFF: DPO_CTRL.DPO_OFF written (R115). -/
def execDpoOff (on : Bool) (s : State) : Host.Outcome State Fault Refusal :=
  .next (ctrlWritten (setF s F.DPO_CTRL_DPO_OFF (bNat on)))

/-- A dispatch job that met a second fault after so many outer iterations (R110, R82). -/
def dpoFault (s : State) (j : Job) (iters elapsed : Nat) : State :=
  ev (dpoAbort s j 3 (min iters 24) elapsed) blkDPO F.DPO_EVENTS_FAULT.lo 5 []

/-- A second fault of a unit ends its job where it stands (R82, R95, R97, R99, R110). -/
def faultJob (s : State) (sel : JobSel) (j : Job) (sp : StopPoint) (elapsed : Nat) : State :=
  match sel, s.nsa.model with
  | .hyd, some md => hydFault s md j sp elapsed
  | .ply, some md => plyFault s md j sp elapsed
  | .study, _ => studyFault s j sp elapsed
  | .dpo, _ => dpoFault s j sp.steps elapsed
  | _, none => s

/-- The peer is told of a hydraulic-class job or a ply that ended FAULT; the ends of the others tell it themselves (R291). -/
def faultTold (s : State) (sel : JobSel) (j : Job) (sp : StopPoint) (elapsed : Nat) : State :=
  if sel = .hyd || sel = .ply then
    sendJob s j (some sp) { id := ⟨if sel = .ply then 2 else j.kind, j.cycle⟩, outcome := 3, newton := sp.steps, cg := sp.its,
                            therm := sp.phase = 4, retried := j.retried, elapsed := elapsed, tick := none }
  else s

/-- A dispatch job that the active module's entry ends DEADLINE or FAULT (R110, R113, R291). -/
def followDispatch (s : State) : State :=
  match s.dpo.job with
  | none => s
  | some j =>
    match endFor s (jobId s .dpo j) with
    | some e =>
      let u := useEntries { s with dpo := { s.dpo with retried := e.retried } } e
      if e.outcome = 1 then afterDispatch (dpoAbort u j 1 e.newton e.elapsed)
      else if e.outcome = 3 then afterDispatch (dpoFault u j e.newton e.elapsed)
      else s
    | none => s

/-- A JOB entry taken by the standby (R291). -/
def takeEntry (s : State) (e : JobEntry) : State :=
  match e with
  | .fact id n ok => { s with red := { s.red with jobFacts := s.red.jobFacts ++ [(id, n, ok)] } }
  | .done e =>
    let s := { s with red := { s.red with jobEnds := s.red.jobEnds ++ [e] } }
    followDispatch (followFault (followFault (followFault s .hyd) .ply) .study)

/-- A fault of a unit on a cluster of a running job: a first one re-runs the unit; a second one ends the job where it stands
and takes the cluster out (R82, R83, R86, R95, R97, R99, R110). -/
def unitFault (s : State) (sel : JobSel) (cluster : Nat) (second : Bool) (sp : StopPoint) (elapsed : Nat) : State :=
  match runningJob s sel with
  | none => s
  | some j =>
    if !(laneMask s sel).testBit cluster then s
    else if !second then countRetry (retryJob s sel)
    else if roleOf s = roSTANDBY then clusterFaulty s cluster
    else clusterFaulty (faultTold (faultJob s sel j sp elapsed) sel j sp elapsed) cluster

/-- UNIT_RETRY (R82). -/
def execUnitRetry (sel : JobSel) (cluster : Fin 8) (second : Bool) (steps phase its elapsed : Nat) (s : State) :
    Host.Outcome State Fault Refusal := .next (unitFault s sel cluster.val second ⟨steps, phase, its⟩ elapsed)

end Sys2Proof.Machine
end

