-- ==== Sys2Proof/Machine/RegOps.lean ====
section
/-!
DEFINITION. The write of a register by its field types, with the reserved-bit, lock, undefined-offset and clock-gate
checks (00 R8 to R13, 19 R461, 21 R486 R491).
-/
namespace Sys2Proof.Machine

/-- The bits of a register that fields of the given types name. -/
def RegDef.kindMask (r : RegDef) (p : Kind → Bool) : Nat :=
  r.fields.foldl (fun m f => if p f.kind then m ||| maskOf f.hi f.lo else m) 0

/-- The bits that no field names (R9). -/
def RegDef.reservedMask (r : RegDef) : Nat := 0xFFFFFFFF - r.kindMask fun _ => true

/-- Whether a register has an RWL field (R10). -/
def RegDef.hasRwl (r : RegDef) : Bool := r.fields.any fun f => f.kind = .rwl

/-- The address of the register that holds the lock bit of an address: one per CAN channel, one for the four UARTs,
else the CTRL of the block (R10, R396, R397). -/
def lockAddr (a : Nat) : Nat :=
  let b := ctlBase + blockOf a * 0x10000
  if blockOf a = 0x0D then b + offOf a / 0x4000 * 0x4000
  else if blockOf a = 0x0E then b + 0x1000
  else b

/-- Bit 8 of the block's CTRL, where the block has a lock bit (R10). -/
def locked (s : State) (a : Nat) : Bool :=
  (regDefAt (lockAddr a)).any fun r =>
    r.fields.any (fun f => f.kind = .w1s && f.lo = 8) && (getReg s (lockAddr a)).getLsbD 8

/-- The value of a register after a write, field type by field type (R8). -/
def writtenValue (r : RegDef) (old v : Nat) : Nat :=
  let rw := r.kindMask fun k => k = .rw || k = .rwl
  let w1c := r.kindMask fun k => k = .w1c
  let w1s := r.kindMask fun k => k = .w1s
  let kept := old &&& (0xFFFFFFFF - (rw ||| r.kindMask fun k => k = .wo))
  let cleared := kept &&& (0xFFFFFFFF - (v &&& w1c))
  cleared ||| (v &&& rw) ||| (v &&& w1s)

/-- A write is discarded whole by R9 or R10. -/
def writeBarred (s : State) (a : Nat) (r : RegDef) (v : Word) : Bool :=
  (v.toNat &&& r.reservedMask) != 0 || (r.hasRwl && locked s a)

/-- A write to a register by its field types alone: discarded whole with CFG_ERR under R9, R10 or R11, else stored
under R8. -/
def plainWrite (s : State) (a : Nat) (v : Word) : State :=
  (regDefAt a).elim (cfgErr s) fun r =>
    if writeBarred s a r v then cfgErr s
    else setReg s a (BitVec.ofNat 32 (writtenValue r (getReg s a).toNat v.toNat))

/-- A register's own action on a write that passes R9, R10 and R11. -/
def checkedWrite (s : State) (a : Nat) (v : Word) (f : State → State) : State :=
  (regDefAt a).elim (cfgErr s) fun r => if writeBarred s a r v then cfgErr s else f s

/-- The gate bits of CLK_GATE_PERI that an address needs, any one of them; none for an ungated address (R461). -/
def gateBits (a : Nat) : List Nat :=
  match blockOf a with
  | 0x0D => if offOf a / 0x4000 < 4 then [offOf a / 0x4000] else []
  | 0x0E => if offOf a < 0x1000 then [4 + offOf a / 0x400] else if offOf a = 0x1000 then [4, 5, 6, 7] else []
  | 0x0F => if offOf a = 0x200 || 0x240 ≤ offOf a && offOf a < 0x270 then [16] else []
  | 0x14 => [15]
  | _ => []

/-- The peripheral of an address has its clock gate off (R461). -/
def gateOff (s : State) (a : Nat) : Bool :=
  let g := (getReg s R.CLK_GATE_PERI).toNat
  gateBits a != [] && (gateBits a).all fun b => !g.testBit b

/-- The blocks that the PCIe side cannot reach (R419, R491). -/
def pcieBarred (s : State) (a : Nat) : Bool :=
  blockOf a = 0x10 || blockOf a = 0x14 || (s.prot.testBit 3 && (blockOf a = 0x11 || blockOf a = 0x15))

/-- Whether an access to a control-space address ends in a bus error (R6, R461, R486, R491). -/
def ctlBusErr (s : State) (pcie : Bool) (a size : Nat) : Bool :=
  size != 4 || a % 4 != 0 || a < ctlBase || ctlEnd ≤ a || gateOff s a || (pcie && pcieBarred s a)

end Sys2Proof.Machine
end

