-- ==== Sys2Proof/Machine/Keys.lean ====
section
/-!
DEFINITION. Fuse fields, the lifecycle and key fetches (17 R416 to R421 R429 to R431).
-/
namespace Sys2Proof.Machine

/-! ### Fuses (R416 to R418) -/

/-- The bits of a number that read 1, among the low `n`. -/
def popCount (n v : Nat) : Nat := ((List.range n).filter fun i => v.testBit i).length

/-- A lifecycle byte counts as burned when 5 of its bits read 1 (R418). -/
def lifeByte (s : State) (i : Nat) : Bool := 5 ≤ popCount 8 (fuseWord s 0 / 256 ^ i)

/-- The lifecycle state (R418). -/
def lifecycle (s : State) : Nat :=
  match lifeByte s 0, lifeByte s 1, lifeByte s 2 with
  | false, false, false => 0
  | true, false, false => 1
  | true, true, false => 2
  | _, _, _ => 3

/-- The value of a thermometer field of `n` bits: bits that read 1 before the first 0 (R418). -/
def thermo (bit : Nat → Bool) : Nat → Nat → Nat
  | 0, k => k
  | n + 1, k => if bit k then thermo bit n (k + 1) else k

/-- Bit `i` of a fuse field that starts at word `w`. -/
def fuseBit (s : State) (w i : Nat) : Bool := (fuseWord s (w + i / 32)).testBit (i % 32)

/-- RT_CNT, PG_CNT and ID_GEN as decoded (R418). -/
def rtCnt (s : State) : Nat := thermo (fuseBit s 60) 256 0
def pgCnt (s : State) : Nat := thermo (fuseBit s 68) 256 0
def idGen (s : State) : Nat := thermo (fuseBit s 2) 8 0

/-- SERIAL (R417). -/
def serialNo (s : State) : Nat := leNat (fuseBytes s 76 2)

/-! ### Addresses in force (R327, R332) -/

/-- Address zero stands for an address that the settings do not give. -/
def NetAddr.given : NetAddr → Bool
  | .v4 a => a != 0
  | .v6 a => a != 0

/-- A service address, a module address, and the host address. -/
def serviceAddr (s : State) (a : NetAddr) : Bool := a.given && (a = .v4 s.net.svcV4 || a = .v6 s.net.svcV6)
def moduleAddr (s : State) (a : NetAddr) : Bool := a.given && (a = .v4 s.net.modV4 || a = .v6 s.net.modV6)
def hostAddr (s : State) (a : NetAddr) : Bool := a.given && (a = .v4 s.net.hostV4 || a = .v6 s.net.hostV6)

/-- VLAN identifier and priority of a port: untagged where no setting gives one. -/
def vlanOf (s : State) (p : Nat) : Nat × Nat := (alGet? s.net.vlan p).getD (0, 0)

/-- A frame belongs to the VLAN of its port. -/
def onVlan (s : State) (f : NetFrom) : Bool := f.vid = (vlanOf s f.eth.val).1

/-! ### Key fetches (R430) -/

/-- A fetch by an engine: the key, or a denial counted (R430). -/
def fetchKey (s : State) (slot attr : Nat) : State × Option (List Byte) :=
  match keyOf s slot attr with
  | some k => (s, some k)
  | none => (evBit (bump s F.SEC_CNT_ATTR_DENY_COUNT) F.SEC_EVENTS_ATTR_DENY 5 [slot], none)

/-- A secure association is installed on a port, keyed from the slot that its setting names (R328, R430, R431). -/
def installPort (s : State) (e : Nat × Nat) : State :=
  match fetchKey s e.2 atMACSEC with
  | (s, some k) => { s with qhc := { s.qhc with macKey := alPut s.qhc.macKey e.1 k } }
  | (s, none) => { s with qhc := { s.qhc with macKey := alDel s.qhc.macKey e.1 } }

/-- The ports of the settings without an association whose slot holds a key now: their associations are installed (DESIGN
CHOICE, log 73). -/
def installKeyed (s : State) : State :=
  forAll s (s.qhc.macSlot.filter fun e => (alGet? s.qhc.macKey e.1).isNone && (keyOf s e.2 atMACSEC).isSome) installPort

/-- SES_STATUS.KEY_BAD follows the slot that SES_CFG names (R308). -/
def showKeyBad (s : State) : State :=
  let bad := (keyOf s (getF s F.SES_CFG_KEY_SLOT) atSES).isNone
  let s := if bad && !flag s F.SES_STATUS_KEY_BAD then setF s F.SES_EVENTS_KEY_BAD 1 else s
  setF s F.SES_STATUS_KEY_BAD (bNat bad)

end Sys2Proof.Machine
end

