-- ==== Sys2Proof/Machine/SerOps.lean ====
section
/-!
DEFINITION. Rings, slots and bit fields of the serial channels (15 R381 to R386, 10 R242).
-/
namespace Sys2Proof.Machine

/-! ### Bit fields of frames (R242, R386) -/

/-- The bytes that a field spans: the first and how many. -/
def fieldSpan (pos width : Nat) : Nat × Nat := (pos / 8, (pos % 8 + width + 7) / 8)

/-- Bytes in the order in which the field counts them. -/
def fieldOrder (msb : Bool) (b : List Byte) : List Byte := if msb then b.reverse else b

/-- The field of a frame, none where the frame ends before it. -/
def fieldGet (d : List Byte) (f : FieldBind) : Option Nat :=
  let (a, n) := fieldSpan f.bitpos f.width
  if d.length < a + n then none
  else some (leNat (fieldOrder f.msbFirst ((d.drop a).take n)) / 2 ^ (f.bitpos % 8) % 2 ^ f.width)

/-- The frame with a field written. -/
def fieldPut (d : List Byte) (f : FieldBind) (v : Nat) : List Byte :=
  let (a, n) := fieldSpan f.bitpos f.width
  let old := leNat (fieldOrder f.msbFirst ((d.drop a).take n))
  let x := putBits (f.bitpos % 8 + f.width - 1) (f.bitpos % 8) v old
  d.take a ++ fieldOrder f.msbFirst (leBytes n x) ++ d.drop (a + n)

/-! ### Rings (R381) -/

/-- The registers of a ring channel: CAN channels 0 to 3, then UARTs 0 to 3. -/
structure Ring where
  rxPut : Fld
  rxAck : Fld
  txPut : Fld
  txDone : Fld
  txAck : Fld
  rxLog : Fld
  txLog : Fld
  rxLo : Fld
  rxHi : Fld
  txLo : Fld
  txHi : Fld
  n : Nat

/-- The ring registers of a channel. -/
def ringOf (ch : Nat) : Ring :=
  if ch < 4 then
    { rxPut := F.CAN_RX_PUT_INDEX, rxAck := F.CAN_RX_ACK_INDEX, txPut := F.CAN_TX_PUT_INDEX, txDone := F.CAN_TX_DONE_INDEX,
      txAck := F.CAN_TX_ACK_INDEX, rxLog := F.CAN_RX_CFG_LOG2, txLog := F.CAN_TX_CFG_LOG2, rxLo := F.CAN_RX_BASE_LO_ADDR,
      rxHi := F.CAN_RX_BASE_HI_ADDR, txLo := F.CAN_TX_BASE_LO_ADDR, txHi := F.CAN_TX_BASE_HI_ADDR, n := ch }
  else
    { rxPut := F.UART_RX_PUT_INDEX, rxAck := F.UART_RX_ACK_INDEX, txPut := F.UART_TX_PUT_INDEX,
      txDone := F.UART_TX_DONE_INDEX, txAck := F.UART_TX_ACK_INDEX, rxLog := F.UART_RX_CFG_LOG2,
      txLog := F.UART_TX_CFG_LOG2, rxLo := F.UART_RX_BASE_LO_ADDR, rxHi := F.UART_RX_BASE_HI_ADDR,
      txLo := F.UART_TX_BASE_LO_ADDR, txHi := F.UART_TX_BASE_HI_ADDR, n := ch - 4 }

/-- COUNT of the receive and of the transmit ring. -/
def rxCount (s : State) (r : Ring) : Nat := 2 ^ getFi s r.rxLog r.n
def txCount (s : State) (r : Ring) : Nat := 2 ^ getFi s r.txLog r.n

/-- The distance from one free-running index to another. -/
def ixDist (a b : Nat) : Nat := (b + 65536 - a % 65536) % 65536

/-- The bytes of a slot: 272 for a UART, else by XL_EN. -/
def slotLen (s : State) (ch : Nat) : Nat :=
  if 4 ≤ ch then 272 else if getFi s F.CAN_CFG_XL_EN ch = 1 then 2080 else 96

/-- The address of slot `i` of the receive and of the transmit ring. -/
def rxSlot (s : State) (ch i : Nat) : Nat :=
  let r := ringOf ch
  getFi s r.rxLo r.n + getFi s r.rxHi r.n % 256 * 2 ^ 32 + i % rxCount s r * slotLen s ch
def txSlot (s : State) (ch i : Nat) : Nat :=
  let r := ringOf ch
  getFi s r.txLo r.n + getFi s r.txHi r.n % 256 * 2 ^ 32 + i % txCount s r * slotLen s ch

/-- Bytes written to DRAM by a channel or the runtime; elsewhere the access ends in a bus error (R381, R486). -/
def dramPut (s : State) (a : Nat) (b : List Byte) : State :=
  if regionOf a = .dram && regionOf (a + b.length - 1) = .dram then { s with mem := memPut s.mem a b } else busErr s a

/-- The clock gate of a channel is off (R461). -/
def serialGated (s : State) (ch : Nat) : Bool :=
  gateOff s (if ch < 4 then F.CAN_CTRL_LOCK.at ch else F.UART_CFG_ENABLE.at (ch - 4))

/-- The module drives its serial channels: not a standby, nor any other member of a pair without the token (R288). -/
def serialDrives (s : State) : Bool := !isPair s || holds s

/-- Software moves an index forward, never past its bound (R381). -/
def moveIndex (s : State) (f : Fld) (n bound : Nat) (v : Word) : State :=
  checkedWrite s (f.at n) v fun s =>
    let cur := getFi s f n
    if ixDist cur v.toNat ≤ ixDist cur bound then setFi s f n v.toNat else cfgErr s

/-- A write to RX_ACK, TX_PUT or TX_ACK. -/
def moveRxAck (s : State) (ch : Nat) (v : Word) : State :=
  let r := ringOf ch
  moveIndex s r.rxAck r.n (getFi s r.rxPut r.n) v
def moveTxPut (s : State) (ch : Nat) (v : Word) : State :=
  let r := ringOf ch
  moveIndex s r.txPut r.n (getFi s r.txAck r.n + txCount s r) v
def moveTxAck (s : State) (ch : Nat) (v : Word) : State :=
  let r := ringOf ch
  moveIndex s r.txAck r.n (getFi s r.txDone r.n) v

/-- A channel's receive ring has a free slot (R382). -/
def rxFree (s : State) (ch : Nat) : Bool :=
  let r := ringOf ch
  ixDist (getFi s r.rxAck r.n) (getFi s r.rxPut r.n) < rxCount s r

/-- Frames queued with a channel. -/
def txQueued (s : State) (ch : Nat) : Nat :=
  let r := ringOf ch
  ixDist (getFi s r.txDone r.n) (getFi s r.txPut r.n)

/-- A transmit slot is free for software to fill. -/
def txFree (s : State) (ch : Nat) : Bool :=
  let r := ringOf ch
  ixDist (getFi s r.txAck r.n) (getFi s r.txPut r.n) < txCount s r

/-- The five indices of a channel at 0 (R396, R397). -/
def resetIndices (s : State) (ch : Nat) : State :=
  let r := ringOf ch
  forAll s [r.rxPut, r.rxAck, r.txPut, r.txDone, r.txAck] fun s f => setFi s f r.n 0

end Sys2Proof.Machine
end

