-- ==== Sys2Proof/Machine/Prog.lean ====
section
/-!
DEFINITION. The payload of a program image, read from memory and checked (10 R237 to R243).
-/
namespace Sys2Proof.Machine

/-! ### Sections (R239) -/

/-- A section: its type, address, offset, length and count. -/
structure Section where
  typ : Nat
  addr : Nat
  off : Nat
  len : Nat
  count : Nat
  deriving DecidableEq, Repr

/-- A payload: the memory that holds it, its base and its length. -/
structure Payload where
  m : Mem
  base : Nat
  len : Nat
  sects : List Section

/-- The directory of a payload. -/
def payloadOf (m : Mem) (base len : Nat) : Payload :=
  { m := m, base := base, len := len,
    sects := (List.range (min 16 (imgW m base 4))).map fun i =>
      let w := fun k => imgW m base (16 + 16 * i + 4 * k)
      { typ := w 0, addr := base + w 1, off := w 1, len := w 2, count := w 3 } }

/-- A section of a type, empty where the payload has none. -/
def Payload.sect (p : Payload) (t : Nat) : Section :=
  (p.sects.find? fun s => s.typ = t).getD { typ := t, addr := p.base, off := 0, len := 0, count := 0 }

/-- Word `k` of the entry at an address. -/
def Payload.w (p : Payload) (a k : Nat) : Nat := imgW p.m a (4 * k)

/-- The addresses of a section's entries of a size. -/
def Payload.entries (p : Payload) (t size : Nat) : List Nat :=
  let s := p.sect t
  (List.range s.count).map fun i => s.addr + size * i

/-! ### Records -/

/-- A task record (R237). -/
def Payload.taskAt (p : Payload) (a : Nat) : TaskRec :=
  let v := p.w a 1
  { entry := p.w a 0, task := bitsOf 31 28 v, core := bitsOf 27 26 v, prio := bitsOf 23 20 v, halt := v.testBit 19,
    ovrMax := bitsOf 15 12 v, period := bitsOf 11 0 v }

/-- An instance directory entry with its INIT word (R238, R239). -/
def Payload.instAt (p : Payload) (a ini : Nat) : InstRec :=
  { id := p.w a 0, hash := p.w a 1, addr := p.w a 2, kind := bitsOf 31 28 (p.w a 3), size := bitsOf 26 0 (p.w a 3), init := ini }

/-- A tag entry (R240). -/
def Payload.tagAt (p : Payload) (a : Nat) : TagRec :=
  let v := p.w a 0
  { tag := bitsOf 15 0 v, typ := bitsOf 19 16 v, qn := bitsOf 28 24 v, out := v.testBit 20, owner := bitsOf 31 24 (p.w a 1),
    off := bitsOf 17 0 (p.w a 1) }

/-- A field of a frame (R242): BITPOS, WIDTH − 1 and MSB_FIRST in a word. -/
def bindOf (tag : Nat) (isReq : Bool) (v : Nat) : FieldBind :=
  { tag := tag, isReq := isReq, bitpos := bitsOf 15 0 v, width := bitsOf 22 16 v + 1, msbFirst := v.testBit 23 }

/-- The field entries of a CAN_TX or MB_POLL record. -/
def Payload.binds (p : Payload) (a n : Nat) : List FieldBind :=
  (List.range n).map fun i =>
    let b := a + 24 + 8 * i
    bindOf (bitsOf 15 0 (p.w b 0)) ((p.w b 0).testBit 16) (p.w b 1)

/-- A record of the I/O map; none for a KIND that R242 does not define. -/
def Payload.ioAt (p : Payload) (a : Nat) : Option IoRec :=
  let w := p.w a
  match bitsOf 31 16 (w 0) with
  | 1 => some (.di (bitsOf 15 0 (w 1)) (bitsOf 20 16 (w 1)) (bitsOf 25 24 (w 1)))
  | 2 => some (.dout (bitsOf 15 0 (w 1)) (bitsOf 19 16 (w 1)))
  | 3 => some (.time (bitsOf 15 0 (w 1)) (bitsOf 18 16 (w 1)))
  | 4 => some (.ses (bitsOf 15 0 (w 1)) (bitsOf 27 16 (w 1)) (bitsOf 3 0 (w 2)))
  | 5 => some (.canRx { bind := bindOf (bitsOf 15 0 (w 1)) false (w 4), ch := bitsOf 17 16 (w 1), ide := (w 1).testBit 18,
                        xl := (w 1).testBit 19, vcid := bitsOf 27 20 (w 1), matchVcid := (w 1).testBit 28,
                        id := bitsOf 28 0 (w 2), mask := bitsOf 28 0 (w 3), ageTag := bitsOf 15 0 (w 5) })
  | 6 => some (.canTx { ch := bitsOf 1 0 (w 1), ide := (w 1).testBit 2, fdf := (w 1).testBit 3, brs := (w 1).testBit 4,
                        xl := (w 1).testBit 5, onChange := (w 1).testBit 6, task := bitsOf 11 8 (w 1),
                        len := bitsOf 27 16 (w 1), id := bitsOf 28 0 (w 2), sdt := bitsOf 7 0 (w 3),
                        vcid := bitsOf 15 8 (w 3), sec := (w 3).testBit 16, af := w 4, fields := p.binds a (min 256 (w 5)) })
  | 7 => some (.mbPoll { uart := bitsOf 1 0 (w 1), task := bitsOf 11 8 (w 1), slave := bitsOf 23 16 (w 1),
                         fc := bitsOf 31 24 (w 1), start := bitsOf 15 0 (w 2), qty := bitsOf 31 16 (w 2),
                         ageTag := bitsOf 15 0 (w 3), fields := p.binds a (min 256 (w 5)) })
  | 8 => some (.diFilter (w 2) (w 3) (w 4) (w 5))
  | 9 => some (.gates (w 1))
  | _ => none

/-- The addresses of the records of the I/O map, each after the one before it. -/
def Payload.ioWalk (p : Payload) : Nat → Nat → List Nat
  | 0, _ => []
  | n + 1, a => a :: p.ioWalk n (a + bitsOf 15 0 (p.w a 0))

/-- The addresses of the records. -/
def Payload.ioAddrs (p : Payload) : List Nat := p.ioWalk (p.sect 10).count (p.sect 10).addr

/-- A CHKUNITS entry (R239). -/
def Payload.chkAt (p : Payload) (a : Nat) : ChkUnitRec :=
  let q := fun k => p.w a k + p.w a (k + 1) * 2 ^ 32
  { unit := p.w a 0, cfg := p.w a 1, poly := q 2, init := q 4, xor := q 6, exp := q 8 }

/-- The program that a payload holds, under the serial number of its image. -/
def Payload.program (p : Payload) (serial : Nat) : Program :=
  let sys := (p.sect 9).addr
  let ext := (p.sect 4).addr
  let c := p.sect 2
  { serial := serial, codeLen := (p.sect 1).len, constLen := c.len,
    consts := cellsOf 0 (memBytes p.m c.addr c.len),
    retLen := p.w ext 0, nonretLen := p.w ext 1, tasks := (p.entries 3 16).map p.taskAt,
    pages := (p.entries 5 8).map fun a => (p.w a 0 / 4096, p.w a 1 % 256),
    insts := (p.entries 6 16).zipIdx.map fun e => p.instAt e.1 (p.w (p.sect 7).addr e.2),
    tags := (p.entries 8 8).map p.tagAt, netMs := p.w sys 0, dispMult := p.w sys 1,
    canRecover := (List.range 4).map fun n => p.w sys (2 + n), projectId := p.w sys 6,
    iomap := p.ioAddrs.filterMap p.ioAt, chkUnits := (p.entries 11 48).map p.chkAt }

/-! ### The checks of R243: section TYPE, entry index, and whether the test holds -/

/-- An entry index of a fault without an entry. -/
def noEntry : Nat := 2 ^ 64 - 1

/-- The first failing test. -/
def firstBad (ts : List VTest) : Option (Nat × Nat) := (ts.find? fun t => !t.2.2).map fun t => (t.1, t.2.1)

/-- Check 1: header, directory and presence. -/
def Payload.check1 (p : Payload) : List VTest :=
  let n := p.w p.base 1
  [(0, noEntry, p.w p.base 0 = 0x514E5344 && 9 ≤ n && n ≤ 16 && p.w p.base 2 = 0 && p.w p.base 3 = 0 && 16 + 16 * n ≤ p.len)] ++
  (p.sects.zipIdx.map fun e =>
    let s := e.1
    let before := p.sects.take e.2
    (s.typ, noEntry, 1 ≤ s.typ && s.typ ≤ 11 && s.off % 64 = 0 && 16 + 16 * n ≤ s.off && s.off + s.len ≤ p.len &&
      !(before.any fun b => b.typ = s.typ) &&
      before.all fun b => s.len = 0 || b.len = 0 || s.off + s.len ≤ b.off || b.off + b.len ≤ s.off)) ++
  (List.range 9).map fun i => (i + 1, noEntry, p.sects.any fun s => s.typ = i + 1)

/-- The LENGTH and COUNT of a section are those of its type (check 2). -/
def Payload.lenOk (p : Payload) (s : Section) : Bool :=
  let each := fun (k lo hi : Nat) => s.len = k * s.count && lo ≤ s.count && s.count ≤ hi
  match s.typ with
  | 1 => s.count = 0 && s.len % 4 = 0 && 4 ≤ s.len && s.len ≤ 0x2000000
  | 2 => s.count = 0 && s.len ≤ 0x1000000
  | 3 => each 16 1 16
  | 4 => s.count = 0 && s.len = 16
  | 5 => each 8 0 81920
  | 6 => each 16 0 262144
  | 7 => each 4 0 262144 && s.count = (p.sect 6).count
  | 8 => each 8 0 65535
  | 9 => s.count = 0 && s.len = 64
  | 10 => s.len % 8 = 0
  | _ => each 48 0 8

def Payload.check2 (p : Payload) : List VTest := p.sects.map fun s => (s.typ, noEntry, p.lenOk s)

/-- Check 3: the task records. -/
def Payload.check3 (p : Payload) (g : Program) : List VTest :=
  ((p.entries 3 16).zip g.tasks).zipIdx.map fun e =>
    let (a, t) := e.1
    let before := g.tasks.take e.2
    (3, e.2, t.entry % 4 = 0 && t.entry + 4 ≤ g.codeLen && 1 ≤ t.period && t.period ≤ 4000 && bitsOf 25 24 (p.w a 1) = 0 &&
      bitsOf 18 16 (p.w a 1) = 0 && p.w a 2 = 0 && p.w a 3 = 0 && before.all fun b => b.task != t.task && b.prio != t.prio)

/-- The declared pages of an extent. -/
def extentPages (g : Program) : List Nat :=
  (List.range (g.retLen / 4096)).map (fun i => winRet / 4096 + i) ++
  (List.range (g.nonretLen / 4096)).map fun i => winNon / 4096 + i

/-- Check 4: extents and pages. -/
def Payload.check4 (p : Payload) (g : Program) : List VTest :=
  let a := (p.sect 4).addr
  let want := extentPages g
  [(4, noEntry, g.retLen % 4096 = 0 && g.retLen ≤ 0x4000000 && g.nonretLen % 4096 = 0 && g.nonretLen ≤ 0x10000000 &&
    p.w a 2 = 0 && p.w a 3 = 0)] ++
  ((p.entries 5 8).zip g.pages).zipIdx.map (fun e =>
    let (b, pg) := e.1
    (5, e.2, p.w b 0 % 4096 = 0 && want[e.2]? = some pg.1 && p.w b 1 < 256 && (pg.2 < 16 || pg.2 = 0xFE))) ++
  [(5, noEntry, g.pages.length = want.length && g.pages.countP (fun e => e.2 = 0xFE) ≤ 256)]

/-- An instance lies inside a declared extent. -/
def instInside (g : Program) (i : InstRec) : Bool :=
  (winRet ≤ i.addr && i.addr + i.size ≤ winRet + g.retLen) || (winNon ≤ i.addr && i.addr + i.size ≤ winNon + g.nonretLen)

/-- Check 5: the instance directory and INIT. -/
def Payload.check5 (p : Payload) (g : Program) : List VTest :=
  ((p.entries 6 16).zip g.insts).zipIdx.map (fun e =>
    let (a, i) := e.1
    let before := g.insts.take e.2
    (6, e.2, i.kind ≤ 2 && !(p.w a 3).testBit 27 && 1 ≤ i.size && (i.kind ≠ 1 || i.size = 32) && (i.kind ≠ 2 || i.size = 4) &&
      instInside g i &&
      before.all fun b => b.id != i.id && (i.addr + i.size ≤ b.addr || b.addr + b.size ≤ i.addr))) ++
  g.insts.zipIdx.map fun e => (7, e.2, e.1.init = 0xFFFFFFFF || e.1.init + e.1.size ≤ g.constLen)

/-- The alignment of a tag type: natural, and 8 for ts80. -/
def tagAlign (typ : Nat) : Nat := min 8 (max 1 (tagSize typ))

/-- Check 6: the tag entries. -/
def Payload.check6 (p : Payload) (g : Program) : List VTest :=
  ((p.entries 8 8).zip g.tags).zipIdx.map fun e =>
    let (a, t) := e.1
    let before := g.tags.take e.2
    (8, e.2, t.tag ≤ 0xFFFE && t.typ ≤ 12 && (t.typ = 9 || t.qn = 0) && bitsOf 31 29 (p.w a 0) = 0 &&
      bitsOf 23 21 (p.w a 0) = 0 && bitsOf 23 18 (p.w a 1) = 0 && t.off % tagAlign t.typ = 0 && t.off + tagSize t.typ ≤ 0x40000 &&
      (if t.out then t.owner < 16 || t.owner = 0xF0 || t.owner = 0xF1 else t.owner = 0) &&
      before.all fun b => b.tag < t.tag && (b.out != t.out || t.off + tagSize t.typ ≤ b.off || b.off + tagSize b.typ ≤ t.off))

/-- Check 7: the SYSTEM section (R16, R241). -/
def Payload.check7 (p : Payload) (g : Program) : List VTest :=
  let a := (p.sect 9).addr
  [(9, noEntry, 50 ≤ g.netMs && g.netMs ≤ 1000 && 1 ≤ g.dispMult && 1000 ≤ g.netMs * g.dispMult && g.netMs * g.dispMult ≤ 60000 &&
    (g.canRecover.all fun x => x ≤ 60000) && (List.range 9).all fun i => p.w a (7 + i) = 0)]

/-- The tag entry of an index in a program. -/
def Program.tag? (g : Program) (i : Nat) : Option TagRec := g.tags.find? fun t => t.tag = i

/-- An input tag of one of the types. -/
def Program.inTag (g : Program) (i : Nat) (ok : Nat → Bool) : Bool :=
  match g.tag? i with | some t => !t.out && ok t.typ | none => false

/-- An output tag that a task owns. -/
def Program.outTag (g : Program) (i : Nat) (ok : Nat → Nat → Bool) : Bool :=
  match g.tag? i with | some t => t.out && ok t.owner t.typ | none => false

/-- The bits of a tag type that a field may fill. -/
def typeBits (typ : Nat) : Nat := if typ = 8 then 1 else 8 * tagSize typ

/-- A field's width fits its tag, and the field lies inside `bytes` bytes. -/
def Program.fieldOk (g : Program) (f : FieldBind) (bytes : Nat) : Bool :=
  f.width ≤ 64 && f.bitpos + f.width ≤ 8 * bytes && match g.tag? f.tag with | some t => f.width ≤ typeBits t.typ | none => false

/-- An AGE_TAG is none or a u16 input tag. -/
def Program.ageOk (g : Program) (t : Nat) : Bool := t = 0xFFFF || g.inTag t (· = 2)

/-- The data bytes of a Modbus reply and of a request. -/
def replyLen (r : MbPollRec) : Nat := if r.fc ≤ 2 then (r.qty + 7) / 8 else if r.fc ≤ 4 then 2 * r.qty else 0
def requestLen (r : MbPollRec) : Nat := if r.fc = 6 then 2 else if r.fc = 16 then 2 * r.qty else 0

/-- The LEN of a record, and the bits that its table leaves zero (R242). -/
def Payload.ioForm (p : Payload) (a : Nat) : Bool :=
  let w := p.w a
  let len := bitsOf 15 0 (w 0)
  let only := fun (i : Nat) (fs : List (Nat × Nat)) => w i &&& (0xFFFFFFFF - fs.foldl (fun m f => m ||| maskOf f.1 f.2) 0) = 0
  let fields := fun (dir : Bool) => 1 ≤ w 5 && w 5 ≤ 256 && len = 24 + 8 * w 5 && (List.range (min 256 (w 5))).all fun i =>
    w (6 + 2 * i) < (if dir then 0x20000 else 0x10000) && only (7 + 2 * i) [(15, 0), (23, 16)]
  match bitsOf 31 16 (w 0) with
  | 1 => len = 8 && only 1 [(15, 0), (20, 16), (25, 24)]
  | 2 => len = 8 && only 1 [(15, 0), (19, 16)]
  | 3 => len = 8 && only 1 [(15, 0), (18, 16)]
  | 4 => len = 16 && only 1 [(15, 0), (27, 16)] && w 2 < 16 && w 3 = 0
  | 5 => len = 24 && only 1 [(15, 0), (28, 16)] && only 2 [(28, 0)] && only 3 [(28, 0)] && only 4 [(23, 0)] && w 5 < 0x10000
  | 6 => only 1 [(6, 0), (11, 8), (27, 16)] && only 2 [(28, 0)] && only 3 [(16, 0)] && fields false
  | 7 => only 1 [(1, 0), (11, 8), (31, 16)] && w 3 < 0x10000 && w 4 = 0 && fields true
  | 8 => len = 24 && w 1 = 0
  | 9 => len = 8
  | _ => false

/-- A record's tags, ranges and fields (check 8). -/
def Program.ioOk (g : Program) (r : IoRec) : Bool :=
  match r with
  | .di t k src =>
    match src with
    | 0 => g.inTag t (· = 8)
    | 1 => g.inTag t (· = 4)
    | 2 => g.inTag t (· = 8) && k < 16
    | _ => g.inTag t (· = 8) && k = 0
  | .dout t _ => g.outTag t fun o ty => o < 16 && ty = 8
  | .time t _ => g.inTag t (· = 6)
  | .ses t _ word => g.inTag t fun ty => ty != 12 && (tagSize ty < 8 || word ≤ 14)
  | .canRx c => g.inTag c.bind.tag (fun _ => true) && g.fieldOk c.bind (if c.xl then 2048 else 64) && g.ageOk c.ageTag
  | .canTx c => c.fields.all fun f => g.outTag f.tag (fun o _ => o = c.task) && g.fieldOk f c.len
  | .mbPoll m =>
    1 ≤ m.slave && m.slave ≤ 247 && [1, 2, 3, 4, 6, 16].contains m.fc && g.ageOk m.ageTag &&
    m.fields.all fun f =>
      if f.isReq then g.outTag f.tag (fun o _ => o = m.task) && g.fieldOk f (requestLen m)
      else g.inTag f.tag (fun _ => true) && g.fieldOk f (replyLen m)
  | .diFilter a b c d => [a, b, c, d].all fun v => (List.range 8).all fun j => bitsOf (4 * j + 3) (4 * j) v ≤ 5
  | .gates _ => true

/-- The input tags that a record binds. -/
def ioBinds (r : IoRec) : List Nat :=
  let age := fun (t : Nat) => if t = 0xFFFF then [] else [t]
  match r with
  | .di t _ _ => [t]
  | .time t _ => [t]
  | .ses t _ _ => [t]
  | .canRx c => c.bind.tag :: age c.ageTag
  | .mbPoll m => (m.fields.filter fun f => !f.isReq).map (·.tag) ++ age m.ageTag
  | _ => []

/-- Two records bind one DO, or both are DI_FILTER records. -/
def ioClash (a b : IoRec) : Bool :=
  match a, b with
  | .dout _ c, .dout _ d => c = d
  | .diFilter .., .diFilter .. => true
  | _, _ => false

/-- No entry of a list stands earlier in it. -/
def noRepeats (l : List Nat) : Bool := l.zipIdx.all fun e => !(l.take e.2).contains e.1

/-- Check 8: the I/O map. -/
def Payload.check8 (p : Payload) (g : Program) : List VTest :=
  let s := p.sect 10
  let as := p.ioAddrs
  let form : List VTest := as.zipIdx.map fun e => (10, e.2, p.ioForm e.1 && e.1 + bitsOf 15 0 (p.w e.1 0) ≤ s.addr + s.len)
  let total := (as.map fun a => bitsOf 15 0 (p.w a 0)).sum
  let rs := g.iomap
  let each : List VTest := rs.zipIdx.map fun e =>
    let before := rs.take e.2
    let mine := ioBinds e.1
    (10, e.2, g.ioOk e.1 && noRepeats mine && before.all fun b => !ioClash b e.1 && mine.all fun t => !(ioBinds b).contains t)
  let whole : List VTest := [(10, noEntry, total = s.len)]
  form ++ whole ++ each

/-- Check 9: the CHKUNITS section (R321, R322). -/
def Payload.check9 (p : Payload) (g : Program) : List VTest :=
  ((p.entries 11 48).zip g.chkUnits).zipIdx.map fun e =>
    let (a, u) := e.1
    let wd := u.cfg % 128
    (11, e.2, u.unit < 8 && u.cfg.testBit 31 && bitsOf 25 24 u.cfg = 0 && !u.cfg.testBit 7 && 3 ≤ wd && wd ≤ 64 &&
      p.w a 10 = 0 && p.w a 11 = 0 && (g.chkUnits.take e.2).all fun b => b.unit != u.unit)

/-- The first failure of R243, none where the payload passes. -/
def Payload.fault (p : Payload) (g : Program) : Option (Nat × Nat) :=
  (firstBad p.check1) <|> (firstBad p.check2) <|> (firstBad (p.check3 g)) <|> (firstBad (p.check4 g)) <|>
  (firstBad (p.check5 g)) <|> (firstBad (p.check6 g)) <|> (firstBad (p.check7 g)) <|> (firstBad (p.check8 g)) <|>
  (firstBad (p.check9 g))

/-- A payload loaded: the program, or the fault of R243. -/
def loadPayload (m : Mem) (base len serial : Nat) : Except (Nat × Nat) Program :=
  let p := payloadOf m base len
  let g := p.program serial
  match p.fault g with
  | some f => .error f
  | none => .ok g

/-! ### The signed header (R422, R423) -/

/-- The base of runtime slot 0 or 1, and of program slot 0 or 1 (R487). -/
def runtimeSlot (i : Nat) : Nat := 0x40000000 + i * 0x1000000
def programSlot (i : Nat) : Nat := 0x42000000 + i * 0x2000000

/-- Bytes of the signature. -/
def sigLen : Nat := 4627

/-- The payload of a program image: where it lies, decrypted or as it stands. `plain` is what an encrypted payload
decrypts to, none where its tag fails. -/
def programPayload (s : State) (base : Nat) (plain : Option (List Byte)) : Except (Nat × Nat) Program :=
  let len := imgW s.mem base 8 - sigLen - 0x80
  let serial := imgW s.mem base 12
  if (imgW s.mem base 0x14).testBit 0 then
    loadPayload (cellsOf 0 ((plain.getD []).take len)) 0 (min len (plain.getD []).length) serial
  else loadPayload s.mem (base + 0x80) len serial

end Sys2Proof.Machine
end

