-- ==== Sys2Proof/Machine/Image.lean ====
section
/-!
DEFINITION. The checks of runtime and program images, and the owner keys (17 R422 R423 R426).
-/
namespace Sys2Proof.Machine

/-! ### Owner keys (R426) -/

/-- The hash field of an owner slot (R417). -/
def ownerHash (s : State) (i : Nat) : List Byte := fuseBytes s (20 + 16 * i) 16

/-- The stored key of a slot matches its burned hash (R426). -/
def ownerMatches (s : State) (i : Nat) : Bool :=
  match alGet? s.sec.owners i with
  | some k => (ownerHash s i).any (· != 0) && sha3_512 k = ownerHash s i
  | none => false

/-- An owner slot is valid (R426). -/
def ownerValid (s : State) (i : Nat) : Bool := i < 2 && ownerMatches s i && !(fuseWord s 2).testBit (8 + i)

/-- SEC_STATUS.OWNER_VALID shown. -/
def showOwners (s : State) : State := setF s F.SEC_STATUS_OWNER_VALID (bNat (ownerValid s 0) + 2 * bNat (ownerValid s 1))

/-! ### Images (R422, R423) -/

/-- Image kinds. -/
def ikRUNTIME : Nat := 0
def ikPROGRAM : Nat := 1
def ikMODEL : Nat := 2

/-- The slot of an image kind, and its size. -/
def imageSlot (kind slot : Nat) : Nat :=
  if kind = ikRUNTIME then runtimeSlot slot else if kind = ikPROGRAM then programSlot slot else 0x46000000 + slot * 0x800000
def imageSlotLen (kind : Nat) : Nat := if kind = ikRUNTIME then 0x1000000 else if kind = ikPROGRAM then 0x2000000 else 0x800000

/-- The SHA3-512 digest of the image in a slot, over its LEN bytes (R51, R266, R286). -/
def imageDigest (s : State) (kind slot : Nat) : List Byte :=
  let base := imageSlot kind slot
  sha3_512 (memBytes s.mem base (min (imgW s.mem base 8) (imageSlotLen kind)))

/-- The bytes of a range are zero. -/
def memZero (m : Mem) (a n : Nat) : Bool := (memSlice m a (a + n)).isEmpty

/-- Check 1: MAGIC, FORMAT, zero fields and SVN. -/
def imageForm (m : Mem) (kind base : Nat) : Bool :=
  let w := imgW m base
  let enc := (w 0x14).testBit 0
  let key := w 0x18
  w 0 = (if kind = ikRUNTIME then 0x514E5254 else 0x514E5047) && w 4 = 1 && w 0x10 ≤ 256 && w 0x14 < 4 && key < 0x10000 &&
  (kind != ikRUNTIME || (!enc && key = 0)) && (enc || (key < 0x100 && memZero m (base + 0x20) 12 && memZero m (base + 0x30) 16)) &&
  w 0x1C = 0 && w 0x2C = 0 && memZero m (base + 0x40) 64

/-- Where the payload starts. -/
def payloadAt (kind : Nat) : Nat := if kind = ikRUNTIME then 0xAA0 else 0x80

/-- The first failing check of R423 on an image in a memory before decryption, 0 for none. `sigOk` tells whether the signature
verifies; `written` is the number of bytes written, where a request gives it. -/
def imageCode (s : State) (m : Mem) (kind base : Nat) (written : Option Nat) (sigOk : Bool) : Nat :=
  let w := imgW m base
  let len := w 8
  let lenOk := payloadAt kind + sigLen ≤ len && len ≤ imageSlotLen kind && written.all (· = len)
  let keyOk := if kind = ikRUNTIME then sha3_512 (memBytes m (base + 0x80) 2592) = fuseBytes s 4 16 else ownerValid s (w 0x18 % 256)
  if !imageForm m kind base then 1
  else if !lenOk then 2
  else if !keyOk then 3
  else if !sigOk then 4
  else if w 0x10 < (if kind = ikRUNTIME then rtCnt s else pgCnt s) then 5
  else 0

/-- An image checked under R423: its code, 0 where it passes. `decrypts` tells whether an encrypted payload decrypts. -/
def checkImage (s : State) (kind base : Nat) (written : Option Nat) (sigOk decrypts : Bool) : State × Nat :=
  let c := imageCode s s.mem kind base written sigOk
  if c ≠ 0 then (s, c)
  else if kind = ikRUNTIME then (s, 0)
  else if (imgW s.mem base 0x14).testBit 0 then
    let (s, k) := fetchKey s (imgW s.mem base 0x18 / 256) atIMAGE
    ({ s with sec := { s.sec with imageKey := k.isSome } }, if k.isSome && decrypts then 0 else 7)
  else (s, if s.prot.testBit 2 then 8 else 0)

/-- A refused image shown and recorded (R423). -/
def imageRefused (s : State) (kind code : Nat) : State :=
  let s := setF (setF s F.SEC_IMG_RES_KIND kind) F.SEC_IMG_RES_CODE code
  evBit (bump s F.SEC_CNT_IMG_REFUSED_COUNT) F.SEC_EVENTS_IMG_REFUSED 5 [code]

end Sys2Proof.Machine
end

