-- ==== Sys2Proof/Machine/LpeOps.lean ====
section
/-!
DEFINITION. Loop and group descriptors, their checks and their installs (05 R116 to R125 R129, 09 R231).
-/
namespace Sys2Proof.Machine

/-! ### Fields of a loop descriptor (R120 to R122) -/

/-- Word `i` of a descriptor as a number, and as a signed mantissa. -/
def lw (w : List Nat) (i : Nat) : Nat := w.getD i 0
def lwi (w : List Nat) (i : Nat) : Int := sInt 32 (lw w i)

def lpGroup (w : List Nat) : Nat := bitsOf 23 16 (lw w 0)
def lpMode (w : List Nat) : Nat := bitsOf 9 8 (lw w 0)
def lpDOnE (w : List Nat) : Bool := (lw w 0).testBit 1
def lpReverse (w : List Nat) : Bool := (lw w 0).testBit 0
def lpPeriod (w : List Nat) : Nat := bitsOf 27 16 (lw w 1)
def lpPhase (w : List Nat) : Nat := bitsOf 11 0 (lw w 1)
def lpEPv (w : List Nat) : Int := sInt 8 (bitsOf 31 24 (lw w 2))
def lpESched (w : List Nat) : Int := sInt 8 (bitsOf 23 16 (lw w 2))
def lpDest (w : List Nat) : Nat := bitsOf 15 0 (lw w 2)
def lpOutMin (w : List Nat) : Int := lwi w 4
def lpOutMax (w : List Nat) : Int := lwi w 5
def lpHys (w : List Nat) : Int := lwi w 8
def lpAgeMax (w : List Nat) : Nat := bitsOf 31 16 (lw w 9)
def lpNReg (w : List Nat) : Nat := bitsOf 7 4 (lw w 9)
def lpFallback (w : List Nat) : Nat := bitsOf 2 0 (lw w 9)
def lpBlendN (w : List Nat) : Nat := bitsOf 15 0 (lw w 10)

/-- The first word of each source, by place (R120). -/
def srcPV : Nat := 12
def srcSP : Nat := 15
def srcFF : Nat := 18
def srcSCHED : Nat := 21
def srcMAN : Nat := 24

def srcKind (w : List Nat) (a : Nat) : Nat := bitsOf 31 28 (lw w a)
def srcArg (w : List Nat) (a : Nat) : Nat := bitsOf 15 0 (lw w a)

/-- KP, CR, CD2 and BP of a region (R121). -/
def regKp (w : List Nat) (r : Nat) : Int := lwi w (32 + 4 * r)
def regCr (w : List Nat) (r : Nat) : Int := lwi w (33 + 4 * r)
def regCd2 (w : List Nat) (r : Nat) : Int := lwi w (34 + 4 * r)
def regBp (w : List Nat) (r : Nat) : Int := lwi w (35 + 4 * r)

/-- No group, and no destination (R120). -/
def noGroup : Nat := 0xFF
def noTag : Nat := 0xFFFF

/-! ### What has been accepted (R119) -/

/-- A loop that no call has named. -/
def Loop.blank : Loop :=
  { words := [], mode := 0, pendDesc := none, pendMode := none, f := 0, d := 0, xiLast := 0,
    rLast := 0, w := 0, init := true, fresh := true, reselect := false, target := 0, gains := (0, 0, 0), gFrom := (0, 0, 0), b := 0,
    last := [0, 0, 0, 0, 0], lostPv := false, lostSp := false, lostSched := false, resolved := false, stale := false }

/-- The accepted descriptor of a loop: the one that waits, else the one in force. -/
def Loop.accWords (l : Loop) : List Nat := match l.pendDesc with | some p => p.2 | Option.none => l.words

/-- A PV or SP source is lost. -/
def Loop.holds (l : Loop) : Bool := l.lostPv || l.lostSp

/-- The lost sources of a loop as they now resolve (R123): the loop, and whether a source became lost. -/
def Loop.resolve (l : Loop) (pv sp sched : Bool) : Loop × Bool :=
  ({ l with lostPv := pv, lostSp := sp, lostSched := sched, resolved := l.resolved || (l.holds && !(pv || sp)) },
    (pv && !l.lostPv) || (sp && !l.lostSp) || (sched && !l.lostSched))

/-- The accepted mode of a loop. -/
def Loop.accMode (l : Loop) : Nat :=
  match l.pendMode with
  | some p => p.2
  | Option.none => match l.pendDesc with | some p => lpMode p.2 | Option.none => l.mode

/-- The loops with an accepted descriptor. -/
def accLoops (s : State) : List (Nat × Loop) := s.lpe.loops.filter fun e => e.2.accWords != []

/-- The accepted destination of a group. -/
def LoopGroup.accDest (g : LoopGroup) : Option Nat := match g.pend with | some p => some p.2 | none => g.dest

/-- Loops as the load of R117 counts them: PERIOD, PHASE. -/
abbrev Load := Nat × Nat

/-- The peak load of R117. -/
def peakLoad (ls : List Load) : Nat :=
  (List.range 4000).foldl (fun m t =>
    max m (ls.countP fun e => let g := Nat.gcd e.1 4000; t % g = e.2 % g)) 0

/-- The loads of the accepted loops that are not OFF, without loop `i`. -/
def loadsBut (s : State) (i : Nat) : List Load :=
  ((accLoops s).filter fun e => e.1 != i && e.2.accMode != 0).map fun e => (lpPeriod e.2.accWords, lpPhase e.2.accWords)

/-- The peak load with loop `i` in a mode under a descriptor. -/
def peakWith (s : State) (i mode : Nat) (w : List Nat) : Nat :=
  peakLoad (loadsBut s i ++ (if mode = 0 then [] else [(lpPeriod w, lpPhase w)]))

/-! ### The checks of R125 -/

/-- Reserved bits of a word outside the given fields are zero. -/
def onlyBits (v : Nat) (fields : List (Nat × Nat)) : Bool :=
  v &&& (0xFFFFFFFF - fields.foldl (fun m f => m ||| maskOf f.1 f.2) 0) = 0

/-- The source of a place has no reserved bit set and a defined KIND. -/
def srcDefined (w : List Nat) (a : Nat) : Bool := onlyBits (lw w a) [(31, 28), (15, 0)] && srcKind w a < 8

/-- Code 2: reserved bits and words, and enums. -/
def loopCode2 (w : List Nat) : Bool :=
  onlyBits (lw w 0) [(23, 16), (9, 8), (1, 1), (0, 0)] && onlyBits (lw w 1) [(27, 16), (11, 0)] && lw w 7 = 0 &&
  onlyBits (lw w 9) [(31, 16), (7, 4), (2, 0)] && onlyBits (lw w 10) [(15, 0)] && lw w 11 = 0 &&
  ([27, 28, 29, 30, 31].all fun i => lw w i = 0) && lpMode w != 3 && (lpGroup w < 64 || lpGroup w = noGroup) &&
  ([srcPV, srcSP, srcFF, srcSCHED, srcMAN].all (srcDefined w))

/-- The kinds that a place allows (R122). -/
def srcAllowed (a : Nat) : List Nat :=
  if a = srcPV then [2, 4, 5, 6, 7]
  else if a = srcSP then [1, 2, 3, 4, 5, 6, 7]
  else if a = srcSCHED then [0, 2, 3, 4, 5, 6, 7]
  else [0, 1, 2]

/-- Code 6 for one source: KIND allowed, indices in range, unused fields zero (R122). -/
def srcOk (w : List Nat) (a : Nat) : Bool :=
  let v1 := lw w (a + 1) = 0
  let v2 := lw w (a + 2) = 0
  let ar := srcArg w a = 0
  (srcAllowed a).contains (srcKind w a) &&
  match srcKind w a with
  | 0 => ar && v1 && v2
  | 1 => ar && v2
  | 2 => srcArg w a != noTag && v1 && v2
  | 3 => srcArg w a < 160 && v1 && v2
  | 5 => ar
  | _ => ar && v2

/-- Code 7: regions and hysteresis (R120, R121). -/
def regionsOk (w : List Nat) : Bool :=
  let n := lpNReg w
  1 ≤ n && n ≤ 8 && lpFallback w < n && decide (0 ≤ lpHys w) && decide (regBp w 0 = 0) &&
  ((List.range 8).all fun r =>
    if r < n then r = 0 || decide (2 * lpHys w < regBp w r - regBp w (r - 1))
    else (List.range 4).all fun i => lw w (32 + 4 * r + i) = 0)

/-- Code 8: exponents and ranges (R120, R121). -/
def rangesOk (w : List Nat) : Bool :=
  let ex := fun (e : Int) => decide (-48 ≤ e) && decide (e ≤ 16)
  ex (lpEPv w) && ex (lpESched w) && decide (0 < lwi w 3) && decide (lpOutMin w < lpOutMax w) && lw w 6 ≤ 0x3FFFFFFF &&
  ((List.range (lpNReg w)).all fun r =>
    decide (0 < regKp w r) && decide (0 ≤ regCr w r) && decide (regCr w r ≤ one30))

/-- A destination is already that of another accepted loop or group. -/
def destTaken (s : State) (dest : Nat) (loop group : Option Nat) : Bool :=
  dest != noTag &&
  ((accLoops s).any (fun e => some e.1 != loop && lpDest e.2.accWords = dest) ||
   s.lpe.groups.any fun e => some e.1 != group && e.2.accDest = some dest)

/-- The lowest code of R125 for a loop install, 0 for none. -/
def loopRefuse (s : State) (i w1 : Nat) (w : List Nat) : Nat :=
  let others := (accLoops s).filter fun e => e.1 != i && lpGroup e.2.accWords = lpGroup w
  if 511 < i then 1
  else if w1 ≠ 0 || !loopCode2 w then 2
  else if lpPeriod w = 0 || 4000 < lpPeriod w || lpPeriod w ≤ lpPhase w then 3
  else if getF s F.LPE_CFG_MAX_LOAD < peakWith s i (lpMode w) w then 4
  else if lpGroup w ≠ noGroup && (8 ≤ others.length ||
      others.any fun e => lpPeriod e.2.accWords != lpPeriod w || lpPhase e.2.accWords != lpPhase w) then 5
  else if !([srcPV, srcSP, srcFF, srcSCHED, srcMAN].all (srcOk w)) then 6
  else if !regionsOk w then 7
  else if !rangesOk w then 8
  else if (lpGroup w ≠ noGroup && lpDest w ≠ noTag) || destTaken s (lpDest w) (some i) none then 9
  else 0

/-- The lowest code for a group install. -/
def groupRefuse (s : State) (g w1 : Nat) (w : List Nat) : Nat :=
  if 63 < g then 1
  else if w1 ≠ 0 || 0xFFFF < lw w 0 || lw w 1 ≠ 0 || lw w 2 ≠ 0 || lw w 3 ≠ 0 then 2
  else if destTaken s (lw w 0) none (some g) then 9
  else 0

/-- The lowest code for a mode change: 1, 2, 4 and 10 only. -/
def modeRefuse (s : State) (i w1 : Nat) : Nat :=
  let l := (alGet? s.lpe.loops i).getD Loop.blank
  if 511 < i then 1
  else if 2 < w1 then 2
  else if l.accWords = [] then 10
  else if l.accMode = 0 && getF s F.LPE_CFG_MAX_LOAD < peakWith s i w1 l.accWords then 4
  else 0

/-! ### Installs -/

/-- The accepted peak load shown (R136). -/
def showPeak (s : State) : State := setF s F.LPE_STATUS_PEAK_LOAD (peakLoad (loadsBut s 512))

/-- A loop changed. -/
def modLoop (s : State) (i : Nat) (f : Loop → Loop) : State :=
  { s with lpe := { s.lpe with loops := alPut s.lpe.loops i (f ((alGet? s.lpe.loops i).getD Loop.blank)) } }

/-- A group changed. -/
def modGroup (s : State) (g : Nat) (f : LoopGroup → LoopGroup) : State :=
  let e : LoopGroup := (alGet? s.lpe.groups g).getD { dest := none, pend := none, winner := none }
  { s with lpe := { s.lpe with groups := alPut s.lpe.groups g (f e) } }

/-- An LPE call answered: LPE_EVENTS.REFUSED shows a refusal (R125). -/
def lpeReply (s : State) (task ticket fn code : Nat) : State :=
  let s := reply s task ticket 2 fn code
  if code = 0 then s else setF s F.LPE_EVENTS_REFUSED 1

/-- LOOP: a later install replaces one that waits, and a mode change that waits (R226). -/
def lpeLoop (s : State) (task ticket : Nat) (body : List Byte) : State :=
  let i := bodyW body 0
  let w := (bodyWords body).drop 2
  let code := loopRefuse s i (bodyW body 1) w
  let s := lpeReply s task ticket 0 code
  if code = 0 then showPeak (modLoop s i fun l => { l with pendDesc := some (tickNow s, w), pendMode := none }) else s

/-- GROUP. -/
def lpeGroup (s : State) (task ticket : Nat) (body : List Byte) : State :=
  let g := bodyW body 0
  let w := (bodyWords body).drop 2
  let code := groupRefuse s g (bodyW body 1) w
  let s := lpeReply s task ticket 1 code
  if code = 0 then modGroup s g fun l => { l with pend := some (tickNow s, lw w 0) } else s

/-- MODE. -/
def lpeMode (s : State) (task ticket : Nat) (body : List Byte) : State :=
  let i := bodyW body 0
  let code := modeRefuse s i (bodyW body 1)
  let s := lpeReply s task ticket 2 code
  if code = 0 then showPeak (modLoop s i fun l => { l with pendMode := some (tickNow s, bodyW body 1) }) else s

/-- LPE_LOOP (R119). -/
def execLpeLoop (task : Fin 16) (ticket : BitVec 16) (body : List Byte) (s : State) :
    Host.Outcome State Fault Refusal := callCmd s fun s => lpeLoop s task.val ticket.toNat body
/-- LPE_GROUP (R129). -/
def execLpeGroup (task : Fin 16) (ticket : BitVec 16) (body : List Byte) (s : State) :
    Host.Outcome State Fault Refusal := callCmd s fun s => lpeGroup s task.val ticket.toNat body
/-- LPE_MODE (R128). -/
def execLpeMode (task : Fin 16) (ticket : BitVec 16) (body : List Byte) (s : State) :
    Host.Outcome State Fault Refusal := callCmd s fun s => lpeMode s task.val ticket.toNat body

end Sys2Proof.Machine
end

