-- ==== Sys2Proof/Machine/MtrOps.lean ====
section
/-!
DEFINITION. Metering registers, line cycles, thermal samples and the configuration (06 R137 to R148 R153 to R157).
-/
namespace Sys2Proof.Machine

/-! ### Registers (R147, R154) -/

/-- The key of a register of an electric and of a thermal channel. -/
def eKey (c r : Nat) : Nat := 8 * c + r
def tKey (n r : Nat) : Nat := 4096 + 4 * n + r

/-- A metering register. -/
def mtrReg (s : State) (k : Nat) : Nat := amGet (fun _ => 0) s.mtr.regs k

/-- The words of pulse output `p`'s record. -/
def pulseCfg (s : State) (p : Nat) : List Nat := (alGet? s.mtr.pulses p).getD [0, 0, 0, 0]

/-- The key of the register that a pulse record names. -/
def pulseKey (w : List Nat) : Nat :=
  let ch := bitsOf 27 16 (lw w 0)
  let r := bitsOf 15 12 (lw w 0)
  if (lw w 0).testBit 30 then tKey ch r else eKey ch r

/-- Whole pulses added to a backlog, which saturates; lost pulses are counted (R154). -/
def addBacklog (s : State) (p n : Nat) : State :=
  let b := getFi s F.MTR_PULSE_STAT_BACKLOG p + n
  let s := setFi s F.MTR_PULSE_STAT_BACKLOG p (min b 65535)
  if b ≤ 65535 then s
  else
    let s := bumpBy s F.MTR_CNT_PULSE_LOST_COUNT 0 (b - 65535)
    if getFi s F.MTR_PULSE_STAT_OVF p = 1 then s
    else setF (setFi s F.MTR_PULSE_STAT_OVF p 1) F.MTR_EVENTS_PULSE_OVF 1

/-- An increment of a register fed to the accumulators that follow it (R154). -/
def feedPulses (s : State) (k inc : Nat) : State :=
  forAll s (List.range 8) fun s p =>
    let w := pulseCfg s p
    if (lw w 0).testBit 31 && pulseKey w = k then
      let a := (alGet? s.mtr.pacc p).getD 0 + inc
      let u := lw w 1 * 2 ^ 32
      addBacklog { s with mtr := { s.mtr with pacc := alPut s.mtr.pacc p (a % u) } } p (a / u)
    else s

/-- The channel of a register's key. -/
def regChannel (k : Nat) : Nat := if k < 4096 then k / 8 else (k - 4096) / 4

/-- A register raised by an increment in 2⁻³² LSB; each wrap of VALUE is an event with its channel (R147, R441). -/
def addReg (s : State) (k inc : Nat) : State :=
  let old := mtrReg s k
  let wraps := (old % 2 ^ 80 + inc) / 2 ^ 80
  let s := { s with mtr := { s.mtr with regs := amSet (fun _ => 0) s.mtr.regs k ((old + inc) % 2 ^ 96) } }
  feedPulses (forAll s (List.range wraps) fun s _ => evBit s F.MTR_EVENTS_WRAP 2 [regChannel k]) k inc

/-! ### The configuration (R149, R155 to R157) -/

/-- The nominal frequency: 50 Hz unless the latch record says 60. -/
def fNom (s : State) : Nat := match s.mtr.latch with | some (_, true) => 60 | _ => 50

/-- N_LINE/f is a multiple of the network cycle (R149). -/
def latchFits (s : State) (n : Nat) (sixty : Bool) : Bool := n != 0 && n * 1000 % ((if sixty then 60 else 50) * netMs s) = 0

/-- A valid latch configuration is in force (R156). -/
def latchValid (s : State) : Bool := match s.mtr.latch with | some (n, f) => latchFits s n f | none => false

/-- The record of an electric and of a thermal channel; disabled where none was written. -/
def elecCfg (s : State) (c : Nat) : List Nat := (alGet? s.mtr.elec c).getD [0, 0, 0, 0]
def thermCfg (s : State) (n : Nat) : List Nat := (alGet? s.mtr.therm n).getD [0, 0, 0, 0]
def elecOn (s : State) (c : Nat) : Bool := (lw (elecCfg s c) 0).testBit 31
def thermOn (s : State) (n : Nat) : Bool := (lw (thermCfg s n) 0).testBit 31

/-- The first line cycle that starts at or after the present instant (R138). -/
def lineFrom (s : State) : Nat := (nowNs s * fNom s + 999999999) / 1000000000

/-- Every metering channel starts anew under another nominal frequency; energy since the previous demand stays (R138,
assumption 61). -/
def rescaleChans (s : State) : State :=
  { s with mtr := { s.mtr with chans := s.mtr.chans.map fun (e : Nat × EChan) =>
                                 (e.1, { samples := [], next := lineFrom s, dem := e.2.dem }) } }

/-- Interval data under another latch record: it counts for the interval that runs now (R149). -/
def rekeyInts (s : State) : State :=
  let k := match s.mtr.latch with | some (n, _) => if n = 0 then 0 else nowNs s * fNom s / 1000000000 / n | none => 0
  { s with mtr := { s.mtr with eint := s.mtr.eint.map fun (e : Nat × EInt) => (k * 64 + e.1 % 64, e.2) } }

/-- An electric channel that starts to meter. -/
def startChan (s : State) (c : Nat) : State :=
  { s with mtr := { s.mtr with chans := alPut s.mtr.chans c { samples := [], next := lineFrom s, dem := 0 } } }

/-- Every enabled channel starts to meter (R138, R159). -/
def startMeters (s : State) : State := forAll s (List.range 34) fun s c => if elecOn s c then startChan s c else s

/-- The records that pulse outputs accepted or in force use, by index: those that wait prevail. -/
def accPulse (s : State) (p : Nat) : List Nat :=
  match (s.mtr.pend.filter fun e => e.2.1 = 5 && e.2.2.1 = p).getLast? with
  | some e => e.2.2.2
  | none => pulseCfg s p

/-- The lowest code of R157 for a record, 0 for none. -/
def mtrRefuse (s : State) (kind ix w1 : Nat) (w : List Nat) : Nat :=
  let bound := match kind with | 0 => 1 | 1 => 34 | 2 => 4096 | 3 => 2 | 4 => 32 | 5 => 8 | _ => 65536
  let only := onlyBits (lw w 0)
  let a := lw w 0
  if bound ≤ ix then 1
  else match kind with
    | 0 =>
      if w1 ≠ 0 || !only [(16, 0)] || lw w 1 ≠ 0 then 2
      else if !latchFits s (bitsOf 15 0 a) (a.testBit 16) then 3 else 0
    | 1 =>
      if w1 ≠ 0 || !only [(31, 30)] || !onlyBits (lw w 2) [(7, 0)] || lw w 3 ≠ 0 then 2
      else if (a.testBit 31 && lw w 1 = 0) || decide (sInt 8 (lw w 2) < -127) || decide (0 < sInt 8 (lw w 2)) then 4 else 0
    | 2 =>
      if w1 ≠ 0 || !only [(31, 29), (7, 0)] || lw w 3 ≠ 0 then 2
      else if bitsOf 7 0 a = 0 || decide (sInt 32 (lw w 1) < 0) || 10 * 65536 < lw w 1 ||
        decide (sInt 32 (lw w 2) < 0) || 65536 < lw w 2 then 6 else 0
    | 3 => if w1 ≠ 0 then 2 else if (List.range 441).all fun i => decide (0 < lwi w i) then 0 else 5
    | 4 => if w1 ≠ 0 || lw w 1 ≠ 0 then 2 else 0
    | 5 =>
      let th := a.testBit 30
      if !th && 33 < bitsOf 27 16 a then 1
      else if w1 ≠ 0 || bitsOf 29 28 a ≠ 0 || lw w 2 ≠ 0 || lw w 3 ≠ 0 then 2
      else if bitsOf 7 0 a = 0 || lw w 1 = 0 || (if th then 3 else 7) < bitsOf 15 12 a ||
        (a.testBit 31 && (List.range 8).any fun p => p != ix &&
          (let o := lw (accPulse s p) 0; o.testBit 31 && bitsOf 11 8 o = bitsOf 11 8 a)) then 7 else 0
    | _ => 2

/-- The first latch instant at or after a time, the first network-cycle instant while no latch configuration is valid: when a
record accepted two network cycles before takes effect (R156). -/
def latchAfter (s : State) (t : Nat) : Nat :=
  match s.mtr.latch with
  | some (n, _) =>
    if latchValid s then
      let d := n * 1000000000 / fNom s
      (t + d - 1) / d * d
    else (t + netNs s - 1) / netNs s * netNs s
  | none => (t + netNs s - 1) / netNs s * netNs s

/-- A record submitted at an instant: accepted to wait, or refused with its code (R156, R157). -/
def mtrSubmit (s : State) (acc kind ix w1 : Nat) (w : List Nat) : State × Nat :=
  let code := mtrRefuse s kind ix w1 w
  if code ≠ 0 then (setF s F.MTR_EVENTS_CFG_REFUSED 1, code)
  else
    let s := { s with mtr := { s.mtr with pend := s.mtr.pend ++ [(acc, kind, ix, w)], serial := s.mtr.serial + 1 } }
    (setF s F.MTR_STATUS_CFG_PENDING 1, 0)

/-- The mirrors of a pulse record (R161). -/
def showPulse (s : State) (p : Nat) (w : List Nat) : State :=
  setFi (setReg s (F.MTR_PULSE_CFG_ENABLE.at p) (BitVec.ofNat 32 (lw w 0))) F.MTR_PULSE_WT_WEIGHT p (lw w 1)

/-- A record takes effect. -/
def mtrApply (s : State) (kind ix : Nat) (w : List Nat) : State :=
  let m := s.mtr
  match kind with
  | 0 =>
    let f := fNom s
    let s := { s with mtr := { m with latch := some (bitsOf 15 0 (lw w 0), (lw w 0).testBit 16) } }
    let s := if fNom s != f then rescaleChans s else s
    let s := if m.latch != s.mtr.latch then rekeyInts s else s
    setReg s R.MTR_LATCH_CFG (BitVec.ofNat 32 (lw w 0))
  | 1 =>
    let was := elecOn s ix
    let s := { s with mtr := { m with elec := alPut m.elec ix w } }
    if elecOn s ix && !was then startChan s ix else s
  | 2 => { s with mtr := { m with therm := alPut m.therm ix w } }
  | 3 => { s with mtr := { m with tables := alPut m.tables ix w } }
  | 4 =>
    setReg { s with mtr := { m with subs := alPut m.subs ix (lw w 0), svLast := alPut m.svLast ix (nowNs s) } }
      (F.MTR_SV_SUB_APPID.at ix) (BitVec.ofNat 32 (lw w 0))
  | _ => showPulse { s with mtr := { m with pulses := alPut m.pulses ix w } } ix w

/-- A first valid latch configuration is in force: the interval that runs starts here, and with it MISSING (R156, R161). -/
def startLatching (s : State) : State :=
  let s := { s with mtr := { s.mtr with since := nowNs s, tint := [], eint := [] } }
  forAll s (List.range 32) fun s m => setFi s F.MTR_SV_STAT_MISSING m 0

/-- The records accepted at least two network cycles before an instant take effect (R156). -/
def mtrTake (s : State) (at_ : Nat) : State :=
  let (due, rest) := s.mtr.pend.partition fun e => e.1 + 2 * netNs s ≤ at_
  if due.isEmpty then s
  else
    let was := latchValid s
    let s := forAll { s with mtr := { s.mtr with pend := rest, cfgChanged := true, stored := true } } due fun s e =>
      mtrApply s e.2.1 e.2.2.1 e.2.2.2
    let s := if latchValid s && !was then startLatching s else s
    let s := setF (setF s F.MTR_STATUS_CFG_PENDING (bNat (!rest.isEmpty))) F.MTR_STATUS_NO_CFG 0
    setF s F.MTR_STATUS_NO_LATCH (bNat (!latchValid s))

/-- When a record accepted now takes effect: at the first latch instant at least two network cycles later (R156). -/
def configAt (s : State) : Nat := latchAfter s (nowNs s + 2 * netNs s)

/-- MTR CONFIG (R231): each module of a pair accepts the call of its own scan (R233), and the active one forwards the record too
(R156). -/
def mtrConfig (s : State) (task ticket : Nat) (body : List Byte) : State :=
  let at_ := configAt s
  let r := mtrSubmit s (nowNs s) (bodyW body 0 / 65536) (bodyW body 0 % 65536) (bodyW body 1) ((bodyWords body).drop 2)
  if r.2 ≠ 0 then reply r.1 task ticket 3 0 r.2
  else reply (forwardBody r.1 0x09 at_ body) task ticket 3 0 0

/-- MTR_CONFIG (R156). -/
def execMtrConfig (task : Fin 16) (ticket : BitVec 16) (body : List Byte) (s : State) :
    Host.Outcome State Fault Refusal := callCmd s fun s => mtrConfig s task.val ticket.toNat body

/-! ### Electric samples and line cycles (R138 to R143) -/

/-- The latch interval of a sample index. -/
def intervalOf (s : State) (ix : Nat) : Nat :=
  match s.mtr.latch with | some (n, _) => if n = 0 then 0 else ix / (80 * n) | none => 0

/-- Interval data of an electric channel changed. -/
def modEInt (s : State) (k : Nat) (f : EInt → EInt) : State :=
  let e : EInt := (alGet? s.mtr.eint k).getD { miss := 0, lost := false, unsync := false, gap := false }
  { s with mtr := { s.mtr with eint := alPut s.mtr.eint k (f e) } }

/-- A missing sample counted (R141). -/
def countMissing (s : State) (c ix : Nat) : State :=
  let s := setF (bump s F.MTR_CNT_GAP_COUNT) F.MTR_EVENTS_GAP 1
  let s := if 2 ≤ c then bumpSat s F.MTR_SV_STAT_MISSING (c - 2) 1 else s
  modEInt s (intervalOf s ix * 64 + c) fun e => { e with miss := e.miss + 1, gap := true }

/-- The nearest integer to a square root. -/
def isqrtNear (n : Nat) : Nat :=
  let r := isqrtBits n (bitLen n / 2 + 1) 0
  if r * r + r < n then r + 1 else r
where
  /-- The square root rounded down, by bits from `k` down. -/
  isqrtBits (a : Nat) : Nat → Nat → Nat
    | 0, r => r
    | k + 1, r => let c := r + 2 ^ k; isqrtBits a k (if c * c ≤ a then c else r)

/-- The increments dP, dQ and dS of a line cycle in 2⁻³² LSB (R142). -/
def lineSums (sm : List (Nat × ESample)) (first : Nat) (inv : Bool) (keM : Nat) (keE : Int) : Int × Int × Int :=
  let zero : ESample := { v := [0, 0, 0], i := [0, 0, 0] }
  let at_ := fun (ix : Nat) => (alGet? sm ix).getD zero
  let ixs := (List.range 80).map (first + ·)
  let sumOf := fun (f : Nat → Int) => (ixs.map f).sum
  let one := fun (ph : Nat) =>
    let v := fun ix => (at_ ix).v.getD ph 0
    let i := fun ix => if inv then -((at_ ix).i.getD ph 0) else (at_ ix).i.getD ph 0
    let old := fun (ix : Nat) => if ix < 20 then 0 else v (ix - 20)
    (sumOf fun ix => v ix * i ix, sumOf fun ix => old ix * i ix,
     ((isqrtNear ((sumOf fun ix => v ix * v ix) * (sumOf fun ix => i ix * i ix)).toNat : Nat) : Int))
  let ps := [0, 1, 2].map one
  let go := fun (x : Int) => roundEven (x * keM) (-keE)
  (go (ps.map (·.1)).sum, go (ps.map (·.2.1)).sum, go (ps.map (·.2.2)).sum)

/-- The registers of a quadrant: active, reactive, apparent (R143). -/
def quadrant (dP dQ : Int) : Nat × Nat × Nat :=
  if 0 ≤ dP then (if 0 ≤ dQ then (0, 2, 6) else (0, 5, 6)) else if 0 ≤ dQ then (1, 3, 7) else (1, 4, 7)

/-- The channel state of an electric channel. -/
def chanOf (s : State) (c : Nat) : EChan := (alGet? s.mtr.chans c).getD { samples := [], next := 0, dem := 0 }

/-- The line cycle of a channel that closes next is whole. -/
def lineWhole (e : EChan) : Bool := (List.range 80).all fun i => (alGet? e.samples (80 * e.next + i)).isSome

/-- A line cycle closes: its increments enter the quadrant's registers; the last of an interval is copied for the latch
(R142, R143, R150). -/
def closeLine (s : State) (c : Nat) : State :=
  let e := chanOf s c
  let w := elecCfg s c
  let (dP, dQ, dS) := lineSums e.samples (80 * e.next) ((lw w 0).testBit 30) (lw w 1) (sInt 8 (lw w 2))
  let q := quadrant dP dQ
  let s := addReg (addReg (addReg s (eKey c q.1) dP.natAbs) (eKey c q.2.1) dQ.natAbs) (eKey c q.2.2) dS.natAbs
  let e' : EChan := { samples := e.samples.filter fun x => 80 * (e.next + 1) ≤ x.1 + 20, next := e.next + 1, dem := e.dem + dP }
  let s := { s with mtr := { s.mtr with chans := alPut s.mtr.chans c e' } }
  match s.mtr.latch with
  | some (n, _) =>
    if n ≠ 0 && e'.next % n = 0 then
      { s with mtr := { s.mtr with copied := alPut s.mtr.copied c ((List.range 8).map fun r => mtrReg s (eKey c r)) } }
    else s
  | none => s

/-- Every whole line cycle at the front of a channel closes, at most `n` of them (R142). -/
def closeLines : Nat → State → Nat → State
  | 0, s, _ => s
  | n + 1, s, c => if lineWhole (chanOf s c) then closeLines n (closeLine s c) c else s

/-- A decision about samples that the active module forwards (R141, R284). -/
def forwardSample (s : State) (d : MtrFwd) : State :=
  if roleOf s = roACTIVE then { s with mtr := { s.mtr with fwd := s.mtr.fwd ++ [d] } } else s

/-- A sample, or its absence, entered for a channel; what completes a line cycle closes it. A sample that comes twice
or after its line cycle is dropped. -/
def enterSample (s : State) (c ix : Nat) (x : Option ESample) : State :=
  let e := chanOf s c
  if !elecOn s c || ix < 80 * e.next || (alGet? e.samples ix).isSome then s
  else
    let s := forwardSample s (.sample c ix x)
    let s := if x.isNone then countMissing s c ix else s
    let v := x.getD { v := [0, 0, 0], i := [0, 0, 0] }
    let s := { s with mtr := { s.mtr with chans := alPut s.mtr.chans c { e with samples := alPut e.samples ix v } } }
    closeLines ((chanOf s c).samples.length / 80) s c

/-! ### Thermal samples (R144 to R146) -/

/-- kcoef of a heat table's words at two temperatures (R146). -/
def kcoef (tab : List Nat) (thf thr : Int) : Int :=
  let cl := fun (t : Int) => (clampInt 0 (160 * 65536 - 1) t).toNat
  let f := cl thf
  let r := cl thr
  let jf := f / 2 ^ 19
  let jr := r / 2 ^ 19
  let pf : Int := ((f % 2 ^ 19 : Nat) : Int)
  let pr : Int := ((r % 2 ^ 19 : Nat) : Int)
  let k := fun (a b : Nat) => lwi tab (21 * a + b)
  let mix := fun (a b p : Int) => (sat32 (a + (wb ((b - a) * p) 19).1)).1
  mix (mix (k jf jr) (k (jf + 1) jr) pf) (mix (k jf (jr + 1)) (k (jf + 1) (jr + 1)) pf) pr

/-- Interval data of a thermal channel changed. -/
def modTInt (s : State) (n : Nat) (f : TInt → TInt) : State :=
  let e : TInt := (alGet? s.mtr.tint n).getD { taken := 0, lowFlow := 0, lowDt := 0, missing := 0, fwd := false, rev := false }
  { s with mtr := { s.mtr with tint := alPut s.mtr.tint n (f e) } }

/-- The telemetry of a channel is usable for metering (R144, R315). -/
def thermUsable (r : Session) (ageMax : Nat) : Bool :=
  r.state = 2 && !r.never && !r.crcFail && !r.pipRepeat && !r.pipJump && r.age < ageMax

/-- The demand of an energy in 2⁻³² mWh over a network cycle, in W (R153). -/
def demandOf (s : State) (e : Int) : Int := (sat32 (divEven (3600 * e) (2 ^ 32 * netMs s))).1

/-- One thermal sample (R144, R145) with its demand (R153). -/
def thermSample (s : State) (n : Nat) (rec : Option Session) : State :=
  let w := thermCfg s n
  let s := modTInt s n fun e => { e with taken := e.taken + 1 }
  match rec.filter fun r => thermUsable r (bitsOf 7 0 (lw w 0)) with
  | none =>
    let s := setF (bump s F.MTR_CNT_THERM_MISS_COUNT) F.MTR_EVENTS_THERM_MISSING 1
    let s := modTInt s n fun e => { e with missing := e.missing + 1 }
    { s with mtr := { s.mtr with demMiss := s.mtr.demMiss ++ [n] } }
  | some r =>
    let q := sInt 32 r.q
    let tf := sInt 32 r.tf
    let tr := sInt 32 r.tr
    let dth := (sat32 (if (lw w 0).testBit 30 then tr - tf else tf - tr)).1
    let k := kcoef ((alGet? s.mtr.tables (bNat ((lw w 0).testBit 29))).getD []) tf tr
    if q.natAbs < lw w 2 then modTInt s n fun e => { e with lowFlow := e.lowFlow + 1 }
    else
      let dV := q.natAbs * netMs s * 65536
      let low := decide (dth < lwi w 1)
      let dH := if low then 0 else (roundEven (k * q.natAbs * dth * netMs s) 30).natAbs
      let s := if low then modTInt s n fun e => { e with lowDt := e.lowDt + 1 } else s
      let fwd := decide (0 < q)
      let s := modTInt s n fun e => { e with fwd := e.fwd || fwd, rev := e.rev || !fwd }
      let s := addReg (addReg s (tKey n (if fwd then 0 else 1)) dH) (tKey n (if fwd then 2 else 3)) dV
      let d := demandOf s (if fwd then (dH : Int) else -(dH : Int))
      { s with mtr := { s.mtr with demT := alPut s.mtr.demT n d } }

/-- The copy of a latch that waited for the thermal samples of its instant (R150 step 1). -/
def thermCopy (s : State) : State :=
  match s.mtr.latching.filter (·.due) with
  | some t =>
    { s with mtr := { s.mtr with
        latching := some { t with regs := s.mtr.regs.filter fun e => 4096 ≤ e.1, tint := s.mtr.tint, due := false }, tint := [] } }
  | none => s

/-- The thermal samples of the instant of a snapshot that closes, from its records (R144, R153); the instant at which the
first latch configuration came into force takes none (R156). -/
def thermSamples (s : State) (t : Nat) : State :=
  let s := { s with mtr := { s.mtr with demT := [], demMiss := [] } }
  let on := if s.mtr.since < t then (s.mtr.therm.map (·.1)).filter (thermOn s) else []
  thermCopy (forAll s on fun s n => thermSample s n (alGet? s.ses.frozen n))

/-- The demands of a snapshot that closes: thermal ones as formed, electric ones up to now (R153, R234). -/
def closeDemands (s : State) : State :=
  let on := (s.mtr.elec.map (·.1)).filter (elecOn s)
  let de := on.map fun c => (c, demandOf s (chanOf s c).dem)
  { s with mtr := { s.mtr with viewT := s.mtr.demT, viewMiss := s.mtr.demMiss, viewE := de,
                               chans := s.mtr.chans.map fun e => (e.1, { e.2 with dem := 0 }) } }

end Sys2Proof.Machine
end

