-- ==== Sys2Proof/Machine/FioOps.lean ====
section
/-!
DEFINITION. The levels of the digital outputs, what a tick's arrival does, and the field tags of the input sample
(16 R398 to R411, 11 R273 to R275, 01 R25 R27).
-/
namespace Sys2Proof.Machine

/-! ### Drive (R273, R404, R411) -/

/-- FIO_STATUS.DRIVE. -/
def drOFF : Nat := 0
def drLIVE : Nat := 1
def drLATCHED : Nat := 2
def drSAFE : Nat := 3
def driveOf (s : State) : Nat := getF s F.FIO_STATUS_DRIVE

/-- The level that a channel keeps after a restart: that of its latch while the latch is engaged, else its safe value
(R411). -/
def keptLevel (s : State) (ch : Nat) : Bool :=
  if s.red.latched && !s.red.holdOver then s.fio.latch.testBit ch else s.fio.safe.testBit ch

/-- The pulse output that names a channel, if one is enabled (R154). -/
def pulseOn (s : State) (ch : Nat) : Option Nat :=
  (List.range 8).find? fun p => (lw (pulseCfg s p) 0).testBit 31 && bitsOf 11 8 (lw (pulseCfg s p) 0) = ch

/-- The output tag that a DO record binds to a channel (R242). -/
def doTag (s : State) (ch : Nat) : Option TagRec :=
  s.prog.bind fun p => (p.iomap.findSome? fun | .dout g c => if c = ch then some g else none | _ => none).bind (tagOf s)

/-- The level of a channel under rules 1 to 4 of R404, with R411 before the first commit after a restart. -/
def ruleLevel (s : State) (ch : Nat) : Bool :=
  match forceOn s.forcesEff 1 ch with
  | some f => f.value.testBit 0
  | none =>
    match pulseOn s ch with
    | some p => getFi s F.MTR_PULSE_STAT_ACTIVE p = 1
    | none =>
      match doTag s ch with
      | some e => if (taskOf s (taskIx e.owner)).emitted then memRead s.outImg e.off != 0 else keptLevel s ch
      | none => if s.fio.unbound then false else keptLevel s ch

/-- The outputs are emitted, live or in the standby's shadow (R273, R288). -/
def emits (s : State) : Bool := driveOf s = drLIVE || roleOf s = roSTANDBY

/-- The reference level of a channel (R404); from a take to its emission it is that of the hold image (R277). -/
def refLevel (s : State) (ch : Nat) : Bool :=
  if s.red.taking then s.fio.latch.testBit ch
  else if emits s then ruleLevel s ch
  else if driveOf s = drLATCHED then s.fio.latch.testBit ch
  else driveOf s = drSAFE && s.fio.safe.testBit ch

/-- A word of 16 bits by channel. -/
def chanBits (f : Nat → Bool) : Nat := ((List.range 16).map fun c => bNat (f c) * 2 ^ c).sum

/-- A channel's switch is closed: its level is 1, and neither protection nor a reversed supply holds it off (R399,
R405). -/
def switchOn (s : State) (ch : Nat) : Bool :=
  driveOf s != drOFF && (getF s F.FIO_DO_VALUE).testBit ch && (alGet? s.fio.chOff ch).isNone &&
    (alGet? s.fio.grpOff (ch / 8)).isNone && !s.fio.held.contains (ch / 8)

/-! ### FAULT (R409) -/

/-- FIO_STATUS.FAULT after what holds now, with the events of its edges. -/
def showFault (s : State) : State :=
  let bad := !s.fio.chOff.isEmpty || !s.fio.grpOff.isEmpty || (s.fio.disagree.any fun e => 10 ≤ e.2) ||
    (s.fio.seen && !(flag s F.FIO_STATUS_FSUP0_OK && flag s F.FIO_STATUS_FSUP1_OK))
  let was := flag s F.FIO_STATUS_FAULT
  let s := setF s F.FIO_STATUS_FAULT (bNat bad)
  if bad && !was then evBit s F.FIO_EVENTS_FAULT 4 []
  else if !bad && was then ev s blkFIO 0x80 2 []
  else s

/-- The outputs driven anew: a channel whose level becomes 0 leaves protection (R404, R405). -/
def driveOutputs (s : State) : State :=
  let v := chanBits (refLevel s)
  let s := setF s F.FIO_DO_VALUE v
  let s := if emits s then { s with fio := { s.fio with emitted := v } } else s
  let off := s.fio.chOff.filter fun e => v.testBit e.1
  if off.length = s.fio.chOff.length then s else showFault { s with fio := { s.fio with chOff := off } }

/-- The outputs that a pulse record names and the I/O map binds too: the pulse output and the channel (R404). -/
def pulseClash (s : State) : List (Nat × Nat) :=
  match s.prog with
  | none => []
  | some p => (List.range 8).filterMap fun i =>
      let w := pulseCfg s i
      let ch := bitsOf 11 8 (lw w 0)
      if (lw w 0).testBit 31 && p.iomap.any fun | .dout _ c => c = ch | _ => false then some (i, ch) else none

/-- The event of R404 for each pulse output that names a bound channel since `before`. -/
def clashEvents (s : State) (before : List (Nat × Nat)) : State :=
  forAll s ((pulseClash s).filter fun e => !before.contains e) fun s e => ev s blkFIO 0x81 3 [e.2]

/-! ### The input sample -/

/-- An input tag given a value. -/
def setInTag (s : State) (tag v : Nat) : State :=
  match tagOf s tag with
  | some e => if e.out then s else { s with inImg := memPut s.inImg e.off (leBytes (tagSize e.typ) v) }
  | none => s

/-- The I/O map's records with their indices. -/
def ioRecs (s : State) : List (IoRec × Nat) := match s.prog with | some p => p.iomap.zipIdx | none => []

/-- The field tags of the sample take the latest capture (R401 to R403, R407, R409). -/
def sampleField (s : State) : State :=
  forAll s (ioRecs s) fun s e =>
    match e.1 with
    | .di tag k src =>
      setInTag s tag (match src with
        | 0 => bNat ((getF s F.FIO_DI_VALUE).testBit k)
        | 1 => (getFi s F.FIO_CNT_VALUE k + getFi s F.FIO_CNT_OFS_VALUE k) % 2 ^ 32
        | 2 => bNat ((getF s F.FIO_RB_VALUE).testBit k)
        | _ => getF s F.FIO_STATUS_FAULT)
    | _ => s

end Sys2Proof.Machine
end

