-- ==== Sys2Proof/Machine/Mtr.lean ====
section
/-!
DEFINITION. The commands of the metering engine: samples, latches, the archive, reads and pulses (06 R138 to R161).
-/
namespace Sys2Proof.Machine

/-! ### Samples (R139 to R141, R412) -/

/-- A module whose metering runs on its own samples: it executes, is not the standby of a pair, and its engine has its clock
(R141, R287, R462, assumption 76). -/
def metersOwn (s : State) : Bool := s.runState && executes s && roleOf s != roSTANDBY && flag s F.CLK_GATE_ENG_MTR

/-- The present instant is `ns` after sample index `ix` or later (R138). -/
def sampleAge (s : State) (ix ns now : Nat) : Bool := ix * 1000000000 + ns * (80 * fNom s) ≤ now * (80 * fNom s)

/-- A sample within the range at which conversions saturate (R412). -/
def afeSat (v : Int) : Int := clampInt (1 - 2 ^ 31) (2 ^ 31 - 1) v

/-- A sample that reaches the metering engine, shown in FIO_AFE_SMP (R139, R412, R413). -/
def afeSample (s : State) (ch ix : Nat) (x : ESample) : State :=
  if gateOff s R.FIO_AFE_OVR then s
  else
    let s := forAll s (List.range 6) fun s i =>
      setFi s F.FIO_AFE_SMP_SAMPLE (6 * ch + i) (uNat 32 (if i < 3 then x.v.getD i 0 else x.i.getD (i - 3) 0))
    if metersOwn s then enterSample s ch ix (some x) else s

/-- AFE_SAMPLE (R139): sample index and the resampled values Va, Vb, Vc and Ia, Ib, Ic of a set. -/
def execAfeSample (ch : Fin 2) (ix : Nat) (v i : List Int) (s : State) : Host.Outcome State Fault Refusal :=
  let part := fun (l : List Int) => (List.range 3).map fun p => afeSat (l.getD p 0)
  .next (afeSample s ch.val ix { v := part v, i := part i })

/-- The sample index of a frame: the nearest second, taken × 80·f, plus smpCnt (R140). -/
def svIndex (s : State) (smpCnt arrival : Nat) : Nat :=
  let n := 80 * fNom s
  let sec : Int := ((2 * ((arrival * n : Nat) : Int) - 2 * ((smpCnt * 1000000000 : Nat) : Int)) + ((n * 1000000000 : Nat) : Int)) /
    (2 * ((n * 1000000000 : Nat) : Int))
  sec.toNat * n + smpCnt

/-- A quality word is good: validity 00 in bits 1 and 0, and no test bit 11 (R141; positions as IEC 61850-9-2). -/
def qualGood (q : Nat) : Bool := q % 4 = 0 && !q.testBit 11

/-- A channel's stream is synchronised again (R141). -/
def streamSynced (s : State) (c : Nat) : State := setFi (forwardSample s (.synced c)) F.MTR_SV_STAT_UNSYNC (c - 2) 0

/-- A frame with smpSynch 0 of a channel's stream (R141). -/
def streamUnsync (s : State) (c ix : Nat) : State :=
  let s := setFi (forwardSample s (.unsync c ix)) F.MTR_SV_STAT_UNSYNC (c - 2) 1
  modEInt (setF s F.MTR_EVENTS_SV_UNSYNC 1) (intervalOf s ix * 64 + c) fun e => { e with unsync := true }

/-- A channel's stream is lost, from a sample index on (R141). -/
def streamLost (s : State) (c ix : Nat) : State :=
  let s := setF (setFi (forwardSample s (.lost c ix)) F.MTR_SV_STAT_LOST (c - 2) 1) F.MTR_EVENTS_SV_LOST 1
  modEInt s (intervalOf s ix * 64 + c) fun e => { e with lost := true }

/-- A channel's stream has come back. -/
def streamFound (s : State) (c : Nat) : State := setFi (forwardSample s (.found c)) F.MTR_SV_STAT_LOST (c - 2) 0

/-- A decision of the active module entered on the standby (R141, R287). -/
def enterForwarded (s : State) (d : MtrFwd) : State :=
  match d with
  | .sample c ix x => if c < 34 then enterSample s c ix x else s
  | .unsync c ix => if 2 ≤ c && c < 34 then streamUnsync s c ix else s
  | .synced c => if 2 ≤ c && c < 34 then streamSynced s c else s
  | .lost c ix => if 2 ≤ c && c < 34 then streamLost s c ix else s
  | .found c => if 2 ≤ c && c < 34 then streamFound s c else s

/-- A frame taken by a subscription slot (R140, R141). -/
def svTake (s : State) (m smpCnt synch : Nat) (vals : List Int) (quals : List Nat) (arrival : Nat) : State :=
  let ix := svIndex s smpCnt arrival
  let s := if getFi s F.MTR_SV_STAT_LOST m = 1 then streamFound s (m + 2) else s
  let s := if synch ≠ 0 && getFi s F.MTR_SV_STAT_UNSYNC m = 1 then streamSynced s (m + 2) else s
  let s := { s with mtr := { s.mtr with svLast := alPut s.mtr.svLast m arrival } }
  let s := if synch = 0 then streamUnsync s (m + 2) ix else s
  let good := [0, 1, 2, 4, 5, 6].all fun i => qualGood (quals.getD i 0)
  let late := sampleAge s ix 2000000 arrival
  let x : ESample := { v := [vals.getD 4 0, vals.getD 5 0, vals.getD 6 0], i := [vals.getD 0 0, vals.getD 1 0, vals.getD 2 0] }
  enterSample s (m + 2) ix (if synch = 0 || !good || late then none else some x)

/-- The slots subscribed to a stream (R140, R155). -/
def svSlots (s : State) (appid macLo : Nat) : List Nat :=
  (List.range 32).filter fun m =>
    let w := (alGet? s.mtr.subs m).getD 0
    w ≠ 0 && w = appid * 65536 + macLo

/-- SV_FRAME_RECEIVE (R140): APPID, last two octets of the destination, smpCnt, smpSynch, the eight values and quality
words, and the port with its TB1 stamp in ns (R355). -/
def execSvFrameReceive (appid macLo : BitVec 16) (smpCnt synch : Nat) (vals : List Int) (quals : List (BitVec 32))
    (at_ : Arrival) (s : State) : Host.Outcome State Fault Refusal :=
  let arrival := (ingress s at_.port.val at_.stamp).toNat
  .next (if metersOwn s then
    forAll s (svSlots s appid.toNat macLo.toNat) fun s m =>
      svTake s m smpCnt synch vals (quals.map (·.toNat)) arrival
    else s)

/-- SAMPLE_MISSING_TIMEOUT (R141): 2 ms after its nominal instant the sample has not arrived. -/
def execSampleMissingTimeout (ch : Fin 34) (ix : Nat) (s : State) : Host.Outcome State Fault Refusal :=
  .next (if metersOwn s && sampleAge s ix 2000000 (nowNs s) then enterSample s ch.val ix none else s)

/-- No frame of a subscription slot has arrived for 320 samples (R141). -/
def streamSilent (s : State) (m : Nat) : Bool :=
  (alGet? s.mtr.svLast m).getD 0 * (80 * fNom s) + 320 * 1000000000 ≤ nowNs s * (80 * fNom s)

/-- SV_STREAM_LOST (R141). -/
def execSvStreamLost (m : Fin 32) (s : State) : Host.Outcome State Fault Refusal :=
  .next (if metersOwn s && (alGet? s.mtr.subs m.val).getD 0 ≠ 0 && streamSilent s m.val then
      streamLost s (m.val + 2) (80 * (chanOf s (m.val + 2)).next)
    else s)

/-- A converted value saturates: beyond 1.9 × full scale (R412). -/
def saturates (v : Int) : Bool := decide (19 * 2 ^ 30 < 10 * v.natAbs)

/-- Phase a of set 0 converted: the positive-going zero crossings that a measurement against the mains counts (R374). -/
def seeMains (s : State) (v : Int) : State :=
  let r := s.rtc
  let n := if r.mainsNeg && 0 ≤ v && flag s F.RTC_STATUS_MEAS_RUN then r.crossings + 1 else r.crossings
  { s with rtc := { r with crossings := n, mainsNeg := decide (v < 0) } }

/-- AFE_CONVERSION (R412): the linear conversions of the 12 channels; those that saturate are shown. -/
def execAfeConversion (vals : List Int) (s : State) : Host.Outcome State Fault Refusal :=
  let m := ((List.range 12).map fun c => if saturates (vals.getD c 0) then 2 ^ c else 0).sum
  .next (if gateOff s R.FIO_AFE_OVR then s
    else
      let s := seeMains s (vals.getD 0 0)
      if m = 0 then s
      else setF (setF s F.FIO_AFE_OVR_OVR (getF s F.FIO_AFE_OVR_OVR ||| m)) F.FIO_EVENTS_AFE_OVR 1)

/-! ### Latching (R149 to R151) -/

/-- The latch index of the present instant, when it is a latch instant (R149). -/
def latchNow (s : State) : Option Nat :=
  match s.mtr.latch with
  | some (n, _) =>
    let d := n * 1000000000
    if latchValid s && nowNs s * fNom s % d = 0 then some (nowNs s * fNom s / d) else none
  | none => none

/-- TB1 time of latch instant L. -/
def latchTime (s : State) (l : Nat) : Nat :=
  match s.mtr.latch with | some (n, _) => n * 1000000000 * l / fNom s | none => 0

/-- LATCH_INSTANT (R150 step 1): the copy waits for the thermal samples while the snapshot of the instant is open; the
instant at which a latch configuration came into force closes no interval (R156). -/
def execLatchInstant (s : State) : Host.Outcome State Fault Refusal :=
  .next (match latchNow s with
    | some l =>
      if s.runState && executes s && s.nsa.instant = some (nowNs s / netNs s) && s.mtr.latching.isNone &&
          s.mtr.since < nowNs s then
        let s := { s with mtr := { s.mtr with latching := some { idx := l, regs := [], tint := [], due := true } } }
        if s.nsa.open_.isSome then s else thermCopy s
      else s
    | none => s)

/-- VALUE and WRAP of a register as the 64 bits of a record (R151). -/
def regField (v : Nat) : List Byte := leBytes 8 (v / 2 ^ 32)

/-- Flag bits put together. -/
def flagBits (l : List (Bool × Nat)) : Nat := (l.map fun e => bNat e.1 * 2 ^ e.2).sum

/-- The electric record of a channel for the interval that closes (R151). -/
def elecRecord (s : State) (l c : Nat) : List Byte :=
  let e : EInt := (alGet? s.mtr.eint ((l - 1) * 64 + c)).getD { miss := 0, lost := false, unsync := false, gap := false }
  let lost := e.lost || (2 ≤ c && getFi s F.MTR_SV_STAT_LOST (c - 2) = 1)
  let fl := flagBits [(!elecOn s c, 5), (s.mtr.cfgChanged, 4), (s.mtr.restarted, 3), (lost, 2), (e.unsync, 1), (e.gap, 0)]
  let rs := (alGet? s.mtr.copied c).getD ((List.range 8).map fun r => mtrReg s (eKey c r))
  leBytes 4 (fl * 256 + c) ++ leBytes 4 e.miss ++ leBytes 8 0 ++ rs.flatMap regField

/-- The thermal record of a channel (R151). -/
def thermRecord (s : State) (t : Latch) (n : Nat) : List Byte :=
  let e : TInt := (alGet? t.tint n).getD { taken := 0, lowFlow := 0, lowDt := 0, missing := 0, fwd := false, rev := false }
  let fl := flagBits [(!thermOn s n, 6), (s.mtr.cfgChanged, 5), (s.mtr.restarted, 4), (decide (0 < e.lowFlow), 3),
    (decide (0 < e.lowDt), 2), (decide (0 < e.missing), 1), (e.fwd && e.rev, 0)]
  leBytes 4 (fl * 65536 + n) ++ leBytes 4 (e.lowDt % 65536 * 65536 + e.missing % 65536) ++
    leBytes 4 (e.taken % 65536 * 65536 + e.lowFlow % 65536) ++ leBytes 4 0 ++
    (List.range 4).flatMap fun r => regField (amGet (fun _ => 0) t.regs (tKey n r))

/-- The sequence number `n` slots after `q`: never 0 (R151). -/
def slotSeq (q n : Nat) : Nat := (q + n - 1) % (2 ^ 32 - 1) + 1

/-- An archive slot (R151). -/
def archSlot (s : State) (t : Latch) : List Byte :=
  let (n, f) := s.mtr.latch.getD (0, false)
  let head := leBytes 4 0x514E4D41 ++ leBytes 4 (slotSeq s.mtr.seq (s.mtr.slots.length + 1)) ++ leBytes 8 (t.idx - 1) ++
    leBytes 8 (latchTime s t.idx) ++ leBytes 4 (flagBits [(s.mtr.restarted, 17), (f, 16)] + n) ++ leBytes 4 s.mtr.serial ++
    leBytes 4 (4096 * 65536 + 34) ++ leBytes 24 0
  let body := (List.range 34).flatMap (elecRecord s t.idx) ++ leBytes 0x20 0 ++ (List.range 4096).flatMap (thermRecord s t)
  head ++ leBytes 4 (crc32c (head ++ body)) ++ body

/-- One register set of a channel cleared (R158). -/
def clearChannel (s : State) (th : Bool) (c : Nat) : State :=
  let ks := if th then (List.range 4).map (tKey c) else (List.range 8).map (eKey c)
  let s := { s with mtr := { s.mtr with regs := ks.foldl (fun m k => amSet (fun _ => 0) m k 0) s.mtr.regs, cfgChanged := true } }
  ev s blkMTR 0x81 5 [c]

/-- mtrTake with the event of R404. -/
def takeConfig (s : State) (at_ : Nat) : State :=
  clashEvents (mtrTake s at_) (pulseClash s)

/-- Every enabled electric channel has closed its last line cycle before latch index L (R150 step 2). -/
def linesClosed (s : State) (l : Nat) : Bool :=
  match s.mtr.latch with
  | some (n, _) => s.mtr.chans.all fun e => !elecOn s e.1 || n * l ≤ e.2.next
  | none => true

/-- The MISSING fields restarted for the interval that follows (R161). -/
def showMissing (s : State) (l : Nat) : State :=
  forAll s (List.range 32) fun s m =>
    setFi s F.MTR_SV_STAT_MISSING m (min 65535 (((alGet? s.mtr.eint (l * 64 + m + 2)).map EInt.miss).getD 0))

/-- The words of MTR_PULSE_STAT. -/
def pulseWords (s : State) : List Word := (List.range 8).map fun p => getReg s (F.MTR_PULSE_STAT_ACTIVE.at p)

/-- At the first latch instant of a pair in sync the active module's metering goes to the standby (R159, R301). -/
def sendMetering (s : State) : State :=
  if roleOf s = roACTIVE && !s.red.mtrSent then
    furovSend { s with red := { s.red with mtrSent := true } } (.state (.metering { s.mtr with fwd := [] } (pulseWords s)))
  else s

/-- Steps 2 and 3 of R150 with the digest of R289: the slot is built, then changes and clears take effect. -/
def latchCopy (s : State) (t : Latch) : State :=
  let slot := archSlot s t
  let s := digestUnit s 4 0 t.idx (slot.take 0x3C ++ slot.drop 0x40)
  let tl := latchTime s t.idx
  let (clears, later) := s.mtr.clears.partition fun c => c.1 < tl
  let m := { s.mtr with slots := s.mtr.slots ++ [(t.idx, slot)], latching := none, copied := [], cfgChanged := false,
                        restarted := false, clears := later, eint := s.mtr.eint.filter fun e => 64 * t.idx ≤ e.1 }
  let s := showMissing { s with mtr := m } t.idx
  let s := takeConfig s tl
  let s := forAll s clears fun s c => clearChannel s c.2.1 c.2.2
  sendMetering (set64 s R.MTR_LATCH_IDX_LO R.MTR_LATCH_IDX_HI t.idx)

/-- LATCH_ELECTRIC_COPY (R150 steps 2 and 3). -/
def execLatchElectricCopy (s : State) : Host.Outcome State Fault Refusal :=
  .next (match s.mtr.latching with
    | some t => if !t.due && linesClosed s t.idx then latchCopy s t else s
    | none => s)

/-! ### The archive (R151, R152) -/

/-- The address of archive slot h. -/
def slotAddr (h : Nat) : Nat := archBase + h * 0x40000

/-- A slot written over the oldest; one that held a valid record which nobody acknowledged is lost (R151, R152). -/
def putSlot (s : State) (bytes : List Byte) : State :=
  let h := if s.mtr.arch = [] then 0 else (getF s F.MTR_ARCH_HEAD + 1) % 256
  let ack := getF s F.MTR_ARCH_ACK_SEQ
  let old := memLe s.mem (slotAddr h + 4) 4
  let s := if s.mtr.arch.contains h && ack ≠ 0 && ack < old then
      evBit (bump s F.MTR_CNT_ARCH_LOST_COUNT) F.MTR_EVENTS_ARCH_LOST 4 [h]
    else s
  let s := { s with mem := memBlock s.mem (slotAddr h) bytes,
                    mtr := { s.mtr with seq := leNat ((bytes.drop 4).take 4), arch := insertUp h s.mtr.arch } }
  setF (setF s F.MTR_ARCH_HEAD h) F.MTR_ARCH_VALID s.mtr.arch.length

/-- MRAM writes are frozen (R464). -/
def mramFrozen (s : State) : Bool := flag s F.PWR_STATUS_FROZEN

/-- ARCHIVE_SLOT_WRITE (R150 step 4, R160). -/
def execArchiveSlotWrite (s : State) : Host.Outcome State Fault Refusal :=
  .next (match s.mtr.slots with
    | [] => s
    | (_, b) :: rest =>
      if mramFrozen s then setF s F.MTR_STATUS_ARCH_FROZEN 1
      else
        let s := putSlot { s with mtr := { s.mtr with slots := rest } } b
        setF s F.MTR_STATUS_ARCH_FROZEN 0)

/-! ### Reads of registers (R148, R161) -/

/-- The demand of a channel in 32-bit two's complement (R153). -/
def demandWord (l : List (Nat × Int)) (c : Nat) : Nat := uNat 32 ((alGet? l c).getD 0)

/-- What a selection captures: RD_LO, RD_HI and RD_FRAC; none where CH or REG is beyond the space's range. -/
def mtrCapture (s : State) (sel : Nat) : Option (Nat × Nat × Nat) :=
  let c := bitsOf 27 16 sel
  let r := bitsOf 3 0 sel
  let ofReg := fun (v : Nat) => some (bitsOf 63 32 v, v / 2 ^ 64 % 2 ^ 32, v % 2 ^ 32)
  match bitsOf 31 30 sel with
  | 0 => if 33 < c || 7 < r then none else ofReg (mtrReg s (eKey c r))
  | 1 => if 3 < r then none else ofReg (mtrReg s (tKey c r))
  | 2 => if 33 < c then none else some (demandWord s.mtr.viewE c, 0, 0)
  | _ => some (demandWord s.mtr.demT c, 0, 0)

/-- A capture shown; zeros and CFG_ERR where there is none. -/
def mtrShow (s : State) (r : Option (Nat × Nat × Nat)) : State :=
  let (a, b, c) := r.getD (0, 0, 0)
  let s := if r.isNone then cfgErr s else s
  setF (setF (setF s F.MTR_RD_LO_DATA a) F.MTR_RD_HI_DATA b) F.MTR_RD_FRAC_DATA c

/-- A write to MTR_RD_SEL (R161). -/
def writeRdSel (s : State) (v : Word) : State :=
  checkedWrite s R.MTR_RD_SEL v fun s => mtrShow (plainWrite s R.MTR_RD_SEL v) (mtrCapture s v.toNat)

/-- MTR_RD_SEL_WRITE (R161). -/
def execMtrRdSelWrite (v : BitVec 32) (s : State) : Host.Outcome State Fault Refusal := .next (writeRdSel s v)

/-! ### Pulses (R154) -/

/-- WIDTH of a pulse output in ns. -/
def pulseWidth (s : State) (p : Nat) : Nat := bitsOf 7 0 (lw (pulseCfg s p) 0) * 1000000

/-- Pulses that start at a tick (R154, item 5 of R27). -/
def pulseStarts (s : State) : State :=
  forAll s (List.range 8) fun s p =>
    let b := getFi s F.MTR_PULSE_STAT_BACKLOG p
    if (lw (pulseCfg s p) 0).testBit 31 && getFi s F.MTR_PULSE_STAT_ACTIVE p = 0 && b ≠ 0 &&
        (alGet? s.mtr.poff p).getD 0 ≤ nowNs s then
      let s := setFi (setFi s F.MTR_PULSE_STAT_ACTIVE p 1) F.MTR_PULSE_STAT_BACKLOG p (b - 1)
      { s with mtr := { s.mtr with poff := alPut s.mtr.poff p (nowNs s + pulseWidth s p) } }
    else s

/-- PULSE_END (R154): the pulse has lasted WIDTH ms; its off-time starts. -/
def execPulseEnd (p : Fin 8) (s : State) : Host.Outcome State Fault Refusal :=
  .next (if getFi s F.MTR_PULSE_STAT_ACTIVE p.val = 1 && (alGet? s.mtr.poff p.val).getD 0 ≤ nowNs s then
    let s := setFi s F.MTR_PULSE_STAT_ACTIVE p.val 0
    driveOutputs { s with mtr := { s.mtr with poff := alPut s.mtr.poff p.val (nowNs s + pulseWidth s p.val) } }
    else s)

end Sys2Proof.Machine
end

