-- ==== Sys2Proof/Machine/Ses.lean ====
section
/-!
DEFINITION. The session engine (12 R303 to R320 R335, 09 R231, 20 R481).
-/
namespace Sys2Proof.Machine

/-! ### Sessions (R303 to R305) -/

def ssFREE : Nat := 0
def ssPENDING : Nat := 1
def ssADMITTED : Nat := 2

/-- A session that has met nothing. -/
def Session.fresh : Session :=
  { state := 0, subId := 0, port := 0, never := true, pipSkip := false, pipJump := false, pipRepeat := false,
    crcFail := false, age := 0xFFFFFFFF, epoch := 0, rxTime := 0, measTime := 0, pip := 0, status := 0, q := 0, tf := 0,
    tr := 0, dp := 0, skipped := 0, seqHi := 0, seen := [], pipLast := none, txSeq := 0, joined := 0, lastJoin := 0,
    lastRx := 0, key := [], src := none, bound := false }

/-- The live record of a session. -/
def sesOf (s : State) (n : Nat) : Session := (alGet? s.ses.live n).getD Session.fresh

/-- The record of a session in the latest closed snapshot. -/
def snapRecord (s : State) (n : Nat) : Session := (alGet? s.ses.snap n).getD Session.fresh

/-- The sessions in a state. -/
def sesIn (s : State) (st : Nat) : List (Nat × Session) := s.ses.live.filter fun e => e.2.state = st

/-- N_PENDING, N_ADMITTED and NO_BIND shown (R335). -/
def showSes (s : State) : State :=
  setF (setF (setF s F.SES_STATUS_N_PENDING (sesIn s ssPENDING).length) F.SES_STATUS_N_ADMITTED (sesIn s ssADMITTED).length)
    F.SES_STATUS_NO_BIND (bNat s.nsa.model.isNone)

/-- The state with a live record replaced. -/
def putSes (s : State) (n : Nat) (x : Session) : State :=
  showSes { s with ses := { s.ses with live := alPut s.ses.live n x } }

/-- A session that leaves ADMITTED, or PENDING, for another state: its telemetry is unusable (R304). -/
def Session.leave (x : Session) (st : Nat) : Session :=
  { x with state := st, never := true, age := 0xFFFFFFFF, pipSkip := false, pipJump := false, pipRepeat := false,
           crcFail := false, key := [] }

/-- The SUB_ID that the active model binds to a session (R303). -/
def boundId (s : State) (n : Nat) : Option Nat :=
  s.nsa.model.bind fun md => (md.subs.find? fun e => e.hasSession && e.session = n).map (·.id)

/-- The session that the active model binds to a SUB_ID. -/
def sesOfSub (s : State) (sub : Nat) : Option Nat :=
  s.nsa.model.bind fun md => (md.subs.find? fun e => e.hasSession && e.id = sub).map (·.session)

/-- What was kept of a session for an instant to come is dropped: it is another substation's from that instant (R304). -/
def dropEarly (s : State) (n : Nat) : State := { s with ses := { s.ses with early := alDel s.ses.early n } }

/-- Bindings set anew at an activation: a session that is unbound, or whose SUB_ID changes, goes to FREE (R303, R304). -/
def rebindSessions (s : State) : State :=
  let one := fun (s : State) (n : Nat) =>
    let x := sesOf s n
    match boundId s n with
    | some id =>
      if x.bound && x.subId = id then s
      else
        let s := if x.state = ssADMITTED then ev s blkSES 0x81 4 [n] else s
        putSes (dropEarly s n) n { (if x.state = ssFREE then x else x.leave ssFREE) with subId := id, bound := true }
    | none =>
      if !x.bound then s
      else
        let s := if x.state = ssADMITTED then ev s blkSES 0x81 4 [n] else s
        putSes (dropEarly s n) n { (if x.state = ssFREE then x else x.leave ssFREE) with bound := false }
  let ids := match s.nsa.model with | some md => (md.subs.filter (·.hasSession)).map (·.session) | none => []
  showSes (forAll s (sortDedup (ids ++ s.ses.live.map (·.1))) one)

/-- The 64 bytes of a session record (R305). -/
def sesRecord (x : Session) : List Byte :=
  leBytes 4 x.subId ++
  leBytes 4 (x.state * 2 ^ 30 + x.port % 16 * 2 ^ 26 + 16 * bNat x.never + 8 * bNat x.pipSkip + 4 * bNat x.pipJump +
    2 * bNat x.pipRepeat + bNat x.crcFail) ++
  leBytes 4 (if x.never then 0xFFFFFFFF else x.age) ++ leBytes 4 (x.epoch % 2 ^ 31) ++ leBytes 8 x.rxTime ++
  leBytes 8 x.measTime ++ leBytes 4 (x.status * 65536 + x.pip) ++ leBytes 4 x.q ++ leBytes 4 x.tf ++ leBytes 4 x.tr ++
  leBytes 4 x.dp ++ leBytes 4 x.skipped ++ leBytes 8 x.seqHi

/-! ### Datagrams received (R306 to R314) -/

/-- Only the token holder receives and sends QSP (R319, R481). -/
def sesServes (s : State) : Bool := holds s && lifecycle s = 2

/-- A datagram that the session engine hears: on a ring port or an uplink, at a service address (R306). -/
def sesHears (s : State) (h : QspHdr) : Bool :=
  sesServes s && h.src.eth.val ≤ 5 && onVlan s h.src && serviceAddr s h.src.dst

/-- RX_TIME of a datagram, with the ingress delay of its port (R355). -/
def qspRx (s : State) (h : QspHdr) : Nat := (ingress s h.src.eth.val h.rx).toNat

/-- VER, LEN and the length of a datagram are as R306 gives them. -/
def qspOk (h : QspHdr) : Bool := h.ver = 1 && h.size = 36 + h.len && h.len ≤ 256 && h.len % 4 = 0

/-- A datagram dropped under order 1 of R313. -/
def authDrop (s : State) : State := setF (bump s F.SES_CNT_AUTH_COUNT) F.SES_EVENTS_AUTH 1

/-- The key of a session (R308). -/
def sesKey (k : List Byte) (sub epoch : Nat) : List Byte :=
  kmac256 k (asciiBytes "QSP1" ++ leBytes 4 sub ++ leBytes 4 epoch) 32 (asciiBytes "QN-884 session")

/-- The SEQ of the latest datagram sent in an epoch of a SUB_ID, 0 before the first (R306). -/
def txLastOf (s : State) (sub epoch : Nat) : Nat := (alGet? s.ses.txLast (sub * 2 ^ 32 + epoch)).getD 0

/-- A datagram has taken a SEQ of its epoch (R306). -/
def noteTx (s : State) (sub epoch seq : Nat) : State :=
  { s with ses := { s.ses with txLast := alPut s.ses.txLast (sub * 2 ^ 32 + epoch) seq } }

/-- A datagram of the module as bytes: the header, whose bytes 8 to 19 are the nonce, the ciphertext and the tag (R306). -/
def qspBytes (key : List Byte) (sub epoch typ seq : Nat) (p : List Byte) : List Byte :=
  let head := leBytes 1 1 ++ leBytes 1 typ ++ leBytes 2 p.length ++ leBytes 4 sub ++ leBytes 4 (2 ^ 31 + epoch % 2 ^ 31) ++
    leBytes 8 seq
  head ++ (List.range p.length).map (Config.gcmByte key (head.drop 8) head p) ++
    (List.range 16).map (Config.gcmTag key (head.drop 8) head p)

/-- The key of an epoch of a SUB_ID: the one that its session keeps, or else the one that the slot in SES_CFG gives (R308,
R431). -/
def epochKey (s : State) (sub epoch : Nat) : List Byte :=
  let kept := ((sesOfSub s sub).map (sesOf s)).filter fun x => x.epoch = epoch && x.key != []
  match kept with
  | some x => x.key
  | none => sesKey ((keyOf s (getF s F.SES_CFG_KEY_SLOT) atSES).getD []) sub epoch

/-- A datagram sent (R306). -/
def sendQsp (s : State) (dest : Option NetFrom) (sub epoch typ seq : Nat) (p : List Byte) : State :=
  send s (.qsp dest sub epoch typ seq p (qspBytes (epochKey s sub epoch) sub epoch typ seq p))

/-- A datagram of a session sent with its next transmit SEQ. -/
def sesSend (s : State) (n typ : Nat) (payload : List Byte) : State :=
  let x := sesOf s n
  let s := noteTx (putSes s n { x with txSeq := x.txSeq + 1 }) x.subId x.epoch (x.txSeq + 1)
  sendQsp s x.src x.subId x.epoch typ (x.txSeq + 1) payload

/-- REFUSE, at most once per second per SUB_ID (R309). Where no session is in that epoch, its SEQ counts on in the epoch
(R306, assumption 8), and it goes where the JOIN came from unless the session has accepted a datagram. -/
def sesRefuse (s : State) (src : NetFrom) (sub epoch reason : Nat) : State :=
  let recent : Bool := match alGet? s.ses.refusedAt sub with | some t => decide (nowNs s < t + 1000000000) | none => false
  if recent then s
  else
    let s := { s with ses := { s.ses with refusedAt := alPut s.ses.refusedAt sub (nowNs s) } }
    let body := leBytes 2 reason ++ leBytes 2 0
    match (sesOfSub s sub).filter fun n => (sesOf s n).epoch = epoch with
    | some n => sesSend s n 0x03 body
    | none =>
      let q := txLastOf s sub epoch + 1
      let back := (sesOfSub s sub).bind fun n => (sesOf s n).src
      sendQsp (noteTx s sub epoch q) (some (back.getD src)) sub epoch 0x03 q body

/-- The highest epoch ever admitted for a SUB_ID (R309). -/
def topEpoch (s : State) (sub : Nat) : Nat := (alGet? s.ses.epochs sub).getD 0

/-- A valid JOIN: the session is pending, at the time of its first JOIN (R304, R309). -/
def sesJoin (s : State) (n epoch : Nat) (key : List Byte) (src : NetFrom) : State :=
  let x := sesOf s n
  let y := if x.state = ssPENDING then x else { x.leave ssPENDING with joined := nowNs s }
  putSes s n { y with src := some src, port := src.eth.val, epoch := epoch, key := key, lastJoin := nowNs s,
                       txSeq := if y.epoch = epoch then y.txSeq else txLastOf s x.subId epoch }

/-- The record as it stands is kept for an instant that is still to come when a datagram is stamped at or after it
(R315). -/
def keepEarly (s : State) (n rx : Nat) : State :=
  match s.nsa.instant with
  | some k =>
    if (k + 1) * netNs s ≤ rx && (alGet? s.ses.early n).isNone then
      { s with ses := { s.ses with early := alPut s.ses.early n (sesOf s n) } }
    else s
  | none => s

/-- The network-cycle instants up to instant k that follow a receive timestamp: AGE in snapshot k + 1 (R315). -/
def ageAt (s : State) (rx k : Nat) : Nat := (k - rx / netNs s) % 2 ^ 32

/-- A datagram stamped before the instant of a snapshot that is still open belongs to it: the frozen record and the boundary
values follow the live record (R315). -/
def keepLate (s : State) (n rx : Nat) : State :=
  match s.nsa.open_ with
  | some o =>
    if o.time ≤ rx then s
    else
      let x := sesOf s n
      let x := if x.never then x else { x with age := ageAt s x.rxTime (o.cycle - 1) }
      let s := { s with ses := { s.ses with frozen := alPut s.ses.frozen n x } }
      modOpen s fun md sn => snapSubs md s.ses.frozen sn
  | none => s

/-- What a datagram of a session with its receive timestamp does, to the live record and to the snapshot it belongs to. -/
def stamped (s : State) (n rx : Nat) (f : State → State) : State := keepLate (f (keepEarly s n rx)) n rx

/-- The engines that derive a session key and open its datagrams have their clock (R308, R462, assumption 76). -/
def joinEngines (s : State) : Bool := flag s F.CLK_GATE_ENG_GCM && flag s F.CLK_GATE_ENG_KMAC

/-- QSP_JOIN_RECEIVE (R308, R309): the tag verifies under the key derived from the slot in SES_CFG. -/
def execQspJoinReceive (h : QspHdr) (s : State) : Host.Outcome State Fault Refusal :=
  .next (if !(sesHears s h && joinEngines s) then s
    else
      let (s, k) := fetchKey s (getF s F.SES_CFG_KEY_SLOT) atSES
      let s := showKeyBad s
      match k with
      | none => authDrop s
      | some k =>
        let sub := h.sub.toNat
        let e := h.epoch.toNat
        if !qspOk h || h.len ≠ 8 || !h.tagOk || e = 0 || 2 ^ 31 ≤ e then authDrop s
        else match sesOfSub s sub with
          | none => sesRefuse s h.src sub e 1
          | some n =>
            if e ≤ topEpoch s sub then sesRefuse s h.src sub e 2
            else stamped s n (qspRx s h) fun s => sesJoin s n e (sesKey k sub e) h.src)

/-- Whether a SEQ is a replay (order 2 of R313). -/
def seqReplay (x : Session) (q : Nat) : Bool := q + 64 ≤ x.seqHi || q = x.seqHi || x.seen.contains q

/-- The window after a SEQ is seen. -/
def seqSeen (x : Session) (q : Nat) : Session :=
  let hi := max x.seqHi q
  { x with seqHi := hi, seen := (x.seen ++ [q]).filter fun v => hi < v + 64 }

/-- The telemetry payload of R307 in a record: everything but the checks and AGE. -/
def takeTelemetry (x : Session) (p : List Byte) (src : NetFrom) (rx : Nat) : Session :=
  let w := fun i => leNat ((p.drop i).take 4)
  { x with measTime := leNat (p.take 8), pip := w 8 % 65536, status := w 8 / 65536, q := w 12, tf := w 16, tr := w 20,
           dp := w 24, rxTime := rx, lastRx := rx, port := src.eth.val, src := some src, never := false, pipSkip := false,
           pipJump := false, pipRepeat := false, crcFail := false }

/-- The pip check of R314 on a record with the new PIP, and whether it failed. -/
def pipRule (x : Session) (tol : Nat) : Session × Bool :=
  let y := { x with pipLast := some x.pip }
  match x.pipLast with
  | none => (y, false)
  | some l =>
    let d := (x.pip + 65536 - l % 65536) % 65536
    if d = 1 then (y, false)
    else if d = 0 then ({ y with pipRepeat := true }, true)
    else if d ≤ 1 + tol then ({ y with pipSkip := true, skipped := (x.skipped + (d - 1)) % 2 ^ 32 }, false)
    else ({ y with pipJump := true }, true)

/-- Orders 2 to 5 of R313 for a telemetry datagram whose tag and epoch are right. -/
def sesTelemetry (s : State) (n q : Nat) (src : NetFrom) (rx : Nat) (p : List Byte) : State :=
  let x := sesOf s n
  if seqReplay x q then bump s F.SES_CNT_REPLAY_COUNT
  else if q < x.seqHi then bump (putSes s n (seqSeen x q)) F.SES_CNT_LATE_COUNT
  else
    let y := { takeTelemetry (seqSeen x q) p src rx with age := ageAt s rx (s.nsa.instant.getD 0) }
    if crc32c (p.take 28) ≠ leNat (p.drop 28) then
      setF (bump (putSes s n { y with crcFail := true }) F.SES_CNT_CRC_COUNT) F.SES_EVENTS_CRC 1
    else
      let (y, bad) := pipRule y (getF s F.SES_CFG_PIP_TOL)
      let s := bump (putSes s n y) F.SES_CNT_OK_COUNT
      if bad then setF (bump s F.SES_CNT_PIP_COUNT) F.SES_EVENTS_PIP 1 else s

/-- The session that order 1 of R313 lets a datagram reach: its key is the one that it has kept since its JOIN, whatever
became of the slot (R308, R431; DEDUCED, log 73). -/
def sesAdmits (s : State) (h : QspHdr) : Option Nat :=
  (sesOfSub s h.sub.toNat).filter fun n => qspOk h && h.tagOk && (sesOf s n).key != [] &&
    (sesOf s n).state = ssADMITTED && (sesOf s n).epoch = h.epoch.toNat

/-- QSP_TELEMETRY_RECEIVE (R313): any datagram but a JOIN or a LEAVE; a type other than TELEMETRY is dropped (R307). -/
def execQspTelemetryReceive (h : QspHdr) (typ : BitVec 8) (payload : List (BitVec 8)) (s : State) :
    Host.Outcome State Fault Refusal :=
  .next (if !sesHears s h then s
    else match sesAdmits s h with
      | some n =>
        if typ = 0x10 && h.len = 32 && payload.length = 32 then
          stamped s n (qspRx s h) fun s => sesTelemetry s n h.seq.toNat h.src (qspRx s h) payload
        else authDrop s
      | none => authDrop s)

/-- QSP_LEAVE_RECEIVE (R312, R313). -/
def execQspLeaveReceive (h : QspHdr) (s : State) : Host.Outcome State Fault Refusal :=
  .next (if !sesHears s h then s
    else match sesAdmits s h with
      | some n =>
        let x := sesOf s n
        if h.len ≠ 0 then authDrop s
        else if seqReplay x h.seq.toNat then bump s F.SES_CNT_REPLAY_COUNT
        else if h.seq.toNat < x.seqHi then bump (putSes s n (seqSeen x h.seq.toNat)) F.SES_CNT_LATE_COUNT
        else stamped s n (qspRx s h) fun s => ev (putSes s n
            { (seqSeen x h.seq.toNat).leave ssFREE with src := some h.src, port := h.src.eth.val }) blkSES 0x80 2 [n]
      | none => authDrop s)

/-- PENDING_TIMEOUT (R304). -/
def execPendingTimeout (n : Fin 4096) (s : State) : Host.Outcome State Fault Refusal :=
  .next (let x := sesOf s n.val
    if x.state = ssPENDING && x.lastJoin + 10000000000 ≤ nowNs s then putSes s n.val (x.leave ssFREE) else s)

/-- SESSION_DROP (R312). -/
def execSessionDrop (n : Fin 4096) (s : State) : Host.Outcome State Fault Refusal :=
  .next (let x := sesOf s n.val
    if holds s && x.state = ssADMITTED && x.lastRx + getF s F.SES_CFG2_DROP_S * 1000000000 ≤ nowNs s then
      evBit (putSes s n.val (x.leave ssFREE)) F.SES_EVENTS_DROPPED 4 [n.val]
    else s)

/-! ### Admission (R310) -/

/-- The pending list in order: by the time of the first JOIN, then by index. -/
def oldestPending (s : State) : Option Nat :=
  ((sesIn s ssPENDING).foldl (fun (b : Option (Nat × Session)) e => match b with
    | none => some e
    | some c => if e.2.joined < c.2.joined then some e else some c) none).map (·.1)

/-- A session is admitted (R310). -/
def sesAdmit (s : State) (n : Nat) : State :=
  let x := sesOf s n
  let s := putSes s n { x with state := ssADMITTED, seqHi := 0, seen := [], pipLast := none, skipped := 0, never := true,
                               age := 0xFFFFFFFF, lastRx := nowNs s }
  let s := { s with ses := { s.ses with epochs := alPut s.ses.epochs x.subId x.epoch } }
  let next := (nowNs s / netNs s + 1) * netNs s
  sesSend (bump s F.SES_CNT_ADMIT_COUNT) n 0x02
    (leBytes 2 n ++ leBytes 2 (netMs s) ++ leBytes 4 (getF s F.SES_CFG2_LEAD_US) ++ leBytes 8 next)

/-- The admission part of a tick (R310): in run state, on the token holder; ACC is 0 at the first tick of run state (R481,
assumption 75). -/
def admitTick (s : State) : State :=
  if !(sesServes s && s.runState) then s
  else
    let acc := if nowNs s = s.boot.runAt then 0 else min (s.ses.acc + getF s F.SES_CFG_ADMIT_RATE) 4000
    match oldestPending s with
    | some n =>
      if 4000 ≤ acc then sesAdmit { s with ses := { s.ses with acc := acc - 4000 } } n
      else { s with ses := { s.ses with acc := acc } }
    | none => { s with ses := { s.ses with acc := acc } }

/-! ### The snapshot (R315) -/

/-- Records that have met the instant `tk`: AGE counts it for every datagram stamped before it (R315). -/
def metInstant (l : List (Nat × Session)) (tk : Nat) : List (Nat × Session) :=
  l.map fun e => if e.2.never || tk ≤ e.2.rxTime then e else (e.1, { e.2 with age := (e.2.age + 1) % 2 ^ 32 })

/-- The records of snapshot k frozen at Tₖ; the live records have met one more instant. -/
def freezeSessions (s : State) (tk : Nat) : State :=
  let fz := s.ses.live.map fun e => (e.1, (alGet? s.ses.early e.1).getD e.2)
  { s with ses := { s.ses with frozen := fz, early := [], live := metInstant s.ses.live tk, sent := [] } }

/-- The snapshot closes: its records become those of the latest closed snapshot. -/
def closeSessions (s : State) : State := { s with ses := { s.ses with prev := s.ses.snap, snap := s.ses.frozen } }

/-! ### Calls and sending (R231, R317, R318) -/

/-- SEND (R231, R318). -/
def sesSendCall (s : State) (task ticket : Nat) (body : List Byte) : State :=
  let n := bodyW body 0 % 4096
  let code := if (sesOf s n).state ≠ ssADMITTED then 1 else if 4096 ≤ bodyW body 0 || bodyW body 1 ≠ 0 then 2 else 0
  let s := reply s task ticket 5 0 code
  if code ≠ 0 || !holds s then s
  else if 256 ≤ s.ses.txq.length then setF (bump s F.SES_CNT_TXQ_FULL_COUNT) F.SES_EVENTS_TXQ_FULL 1
  else
    let x := sesOf s n
    let s := noteTx (putSes s n { x with txSeq := x.txSeq + 1 }) x.subId x.epoch (x.txSeq + 1)
    { s with ses := { s.ses with txq := s.ses.txq ++ [(n, x.subId, x.epoch, x.txSeq + 1, body.drop 8)] } }

/-- READ (R231, R317): the post writes the record of the latest closed snapshot. -/
def sesReadCall (s : State) (task ticket : Nat) (body : List Byte) : State :=
  let n := bodyW body 0
  let dest := bodyW body 1
  if 4096 ≤ n then reply s task ticket 5 1 1
  else if dest < 0x8000 || 0xFFC0 < dest || dest % 64 ≠ 0 then reply s task ticket 5 1 2
  else
    addPost s task { recordOf ticket 5 1 1 0 0 with dest := dest, read := some n }

/-- SES_SEND (R318). -/
def execSesSend (task : Fin 16) (ticket : BitVec 16) (body : List Byte) (s : State) :
    Host.Outcome State Fault Refusal := callCmd s fun s => sesSendCall s task.val ticket.toNat body
/-- SES_READ (R231). -/
def execSesRead (task : Fin 16) (ticket : BitVec 16) (body : List Byte) (s : State) :
    Host.Outcome State Fault Refusal := callCmd s fun s => sesReadCall s task.val ticket.toNat body

/-- Datagrams of a session that have left in this network cycle. -/
def sentOf (s : State) (n : Nat) : Nat := (alGet? s.ses.sent n).getD 0

/-- COMMAND_TRANSMIT (R318): the first queued datagram whose session is within its limit leaves. -/
def execCommandTransmit (s : State) : Host.Outcome State Fault Refusal :=
  .next (match s.ses.txq.find? fun e => sentOf s e.1 < 16 with
    | some (n, sub, epoch, q, p) =>
      if !sesServes s then s
      else
        let x : Ses := { s.ses with txq := s.ses.txq.erase (n, sub, epoch, q, p), sent := alPut s.ses.sent n (sentOf s n + 1) }
        sendQsp { s with ses := x } (sesOf s n).src sub epoch 0x11 q p
    | none => s)

/-! ### Registers (R335) -/

/-- A write to SES_SEL (R335). -/
def writeSesSel (s : State) (v : Word) : State :=
  checkedWrite s R.SES_SEL v fun s =>
    let n := v.toNat % 4096
    let x := if v.getLsbD 12 then snapRecord s n else sesOf s n
    let s := plainWrite s R.SES_SEL v
    forAll s (List.range 16) fun s w => setFi s F.SES_REC_DATA w (bodyW (sesRecord x) w)

/-- SES_SEL_WRITE (R335). -/
def execSesSelWrite (v : BitVec 32) (s : State) : Host.Outcome State Fault Refusal := .next (writeSesSel s v)

/-- A write to SES_CFG or SES_CFG2 (R335). -/
def writeSesCfg (s : State) (a : Nat) (v : Word) : State :=
  let n := v.toNat
  let ok := if a = R.SES_CFG then 1 ≤ bitsOf 8 0 n && bitsOf 8 0 n ≤ 256
    else 100 ≤ bitsOf 31 16 n && bitsOf 31 16 n ≤ min (netMs s * 500) 65535 && 10 ≤ bitsOf 9 0 n && bitsOf 9 0 n ≤ 600
  if ok then showKeyBad (plainWrite s a v) else cfgErr s

end Sys2Proof.Machine
end

