-- ==== Sys2Proof/Machine/Lpe.lean ====
section
/-!
DEFINITION. The evaluation of loops and groups at a tick and the emission of their outputs (05 R118 R119 R122 to R135,
11 R289).
-/
namespace Sys2Proof.Machine

/-! ### Sources (R122, R123) -/

/-- A value delivered by a source, whether the source is lost, and whether it saturated in rescaling. -/
structure SrcOut where
  v : Int
  lost : Bool
  sat : Bool
  deriving DecidableEq, Repr

/-- A value rescaled from one exponent to another (R50), and whether it clamped. -/
def rescaleSat (e e' v : Int) : Int × Bool :=
  if e' ≤ e then sat32 (v * 2 ^ (e - e').toNat) else (roundEven v (e' - e), false)

/-- The 32-bit value of a tag as a loop reads it: an input tag from the tick's sample, any other from what was
emitted last; an undeclared tag reads zero (R123, assumption 26). -/
def loopTag (s : State) (tag : Nat) : Int :=
  match tagOf s tag with
  | none => 0
  | some e =>
    if e.out then sInt 32 (tagConv e.typ (memLe s.outImg e.off (tagSize e.typ))).toNat
    else sInt 32 (inputTagD s e).toNat

/-- The class of a decision index (R103). -/
def decClass (i : Nat) : Nat := if i < 128 then 6 else if i < 144 then 2 else 0

/-- The committed value of a solver source with its class, none where an identifier is absent; 0 while no committed
state exists (assumption 26). -/
def solverValue (s : State) (md : Model) (kind v1 v2 : Nat) : Option (Int × Bool × Nat) :=
  let nodeIx := fun (id : Nat) => md.nodes.findIdx? (·.id = id)
  let node := fun (f : NodeRec → Int) (i : Nat) =>
    match s.nsa.inForce with | some st => ((st.nodes[i]?).map f).getD 0 | none => 0
  match kind with
  | 4 => (nodeIx v1).map fun i => (node (·.p) i, false, 0)
  | 5 =>
    match nodeIx v1, nodeIx v2 with
    | some a, some b =>
      let d := sat32 (node (·.p) a - node (·.p) b)
      some (d.1, d.2, 0)
    | _, _ => none
  | 6 => (nodeIx v1).map fun i => (node (·.t) i, false, 2)
  | _ =>
    (md.branches.findIdx? (·.id = v1)).map fun i =>
      (match s.nsa.inForce with | some st => ((st.branches[i]?).map (·.q)).getD 0 | none => 0, false, 1)

/-- A source read at a tick into a place of exponent `e`; `last` is what it delivered before (R123). While no model is active a
DEC source counts as a solver source that is lost (DESIGN CHOICE, log 70). -/
def srcRead (s : State) (w : List Nat) (a : Nat) (e last : Int) : SrcOut :=
  match srcKind w a with
  | 0 => ⟨0, false, false⟩
  | 1 => ⟨lwi w (a + 1), false, false⟩
  | 2 => ⟨loopTag s (srcArg w a), false, false⟩
  | 3 =>
    match s.nsa.model with
    | none => ⟨last, true, false⟩
    | some md =>
      let v := match s.dpo.table with | some t => t.values.getD (srcArg w a) 0 | none => 0
      let r := rescaleSat (expOf md (decClass (srcArg w a))) e v
      ⟨r.1, false, r.2⟩
  | k =>
    match s.nsa.model with
    | none => ⟨last, true, false⟩
    | some md =>
      match solverValue s md k (lw w (a + 1)) (lw w (a + 2)) with
      | none => ⟨last, true, false⟩
      | some (v, sat, c) =>
        let r := rescaleSat (expOf md c) e v
        ⟨r.1, false, sat || r.2⟩

/-- A source of a place is lost: a solver source without an active model, or with an identifier that it lacks (R123). -/
def srcLost (s : State) (w : List Nat) (a : Nat) : Bool := (srcRead s w a 0 0).lost

/-! ### Scheduling (R131 to R133) -/

/-- The largest region below N_REG with BP ≤ v, or 0 (R131). -/
def pickRegion (w : List Nat) (v : Int) : Nat :=
  (List.range (lpNReg w)).foldl (fun b i => if regBp w i ≤ v then i else b) 0

/-- The target region selected from v with a current target (R131). -/
def selectRegion (w : List Nat) (r : Nat) (v : Int) : Nat :=
  let lo := r = 0 || decide (regBp w r - lpHys w ≤ v)
  let hi := lpNReg w ≤ r + 1 || decide (v < regBp w (r + 1) + lpHys w)
  if lo && hi then r else pickRegion w v

/-- Whether the SCHED source is stale (R133). -/
def schedStale (s : State) (w : List Nat) (lost : Bool) : Bool :=
  let k := srcKind w srcSCHED
  lost || (4 ≤ k && match s.nsa.inForce with
    | none => true
    | some st => lpAgeMax w != 0 && lpAgeMax w < cycleNow s - st.cycle)

/-- The gains of a region. -/
def gainsOf (w : List Nat) (r : Nat) : Int × Int × Int := (regKp w r, regCr w r, regCd2 w r)

/-- One gain of a blend (R132), and whether it clamped. -/
def blend1 (g0 g1 phi : Int) : Int × Bool :=
  let d := sat32 (g1 - g0)
  let m := wb (d.1 * phi) 30
  let r := sat32 (g0 + m.1)
  (r.1, d.2 || m.2 || r.2)

/-- The gains of this evaluation, b after it, and whether the blend clamped (R132). -/
def blendGains (w : List Nat) (target b : Nat) (g0 : Int × Int × Int) : (Int × Int × Int) × Nat × Bool :=
  let g1 := gainsOf w target
  let n := lpBlendN w
  if b < n then
    let b := b + 1
    if b = n then (g1, b, false)
    else
      let phi := div32 b n 30
      let p := blend1 g0.1 g1.1 phi.1
      let c := blend1 g0.2.1 g1.2.1 phi.1
      let d := blend1 g0.2.2 g1.2.2 phi.1
      ((p.1, c.1, d.1), b, phi.2 || p.2 || c.2 || d.2)
  else (g1, b, false)

/-! ### The control law (R126 to R128) -/

/-- The bits of the sticky flags (R136). -/
def stP : Nat := 1
def stI : Nat := 2
def stD : Nat := 4
def stOUT : Nat := 8
def stSCHED : Nat := 16

/-- The last emitted value of a loop's DEST or of its group's, or OUT_MIN when there is none (R128). -/
def wLast (s : State) (w : List Nat) : Int :=
  let dest := if lpGroup w = noGroup then some (lpDest w) else (alGet? s.lpe.groups (lpGroup w)).bind (·.dest)
  match dest with
  | some d => if s.lpe.emitted.contains d then loopTag s d else lpOutMin w
  | none => lpOutMin w

/-- clampF (R126), and whether it clamped. -/
def clampF (w : List Nat) (f : Int) : Int × Bool :=
  let lo := lpOutMin w * 2 ^ 32
  let hi := lpOutMax w * 2 ^ 32
  if f < lo then (lo, true) else if hi < f then (hi, true) else (f, false)

/-- What an evaluation of R126 gives: the loop, its candidate c, the output that it offers to its group or drives, the
flags it sets, and whether it chose a new target, lost a source or fell back. -/
structure EvalOut where
  loop : Loop
  c : Int
  offer : Int
  flags : Nat
  region : Bool
  newLost : Bool
  newOld : Bool
  deriving DecidableEq, Repr

/-- A loop in AUTO or MAN evaluated (R126), up to its applied output. -/
def evalLoop (s : State) (l : Loop) : EvalOut :=
  let w := l.words
  let pv := srcRead s w srcPV (lpEPv w) (l.last.getD 0 0)
  let sp := srcRead s w srcSP (lpEPv w) (l.last.getD 1 0)
  let ff := srcRead s w srcFF (-30) (l.last.getD 2 0)
  let sc := srcRead s w srcSCHED (lpESched w) (l.last.getD 3 0)
  let man := srcRead s w srcMAN (-30) (l.last.getD 4 0)
  let (l, newLost) := l.resolve pv.lost sp.lost sc.lost
  let init := l.init || (l.resolved && !l.holds)
  -- the target region and the gains
  let unsched := srcKind w srcSCHED = 0
  let stale := !unsched && schedStale s w sc.lost
  let cur := if l.fresh then 0 else l.target
  let tgt := if unsched then 0 else if stale then lpFallback w else if l.reselect then pickRegion w sc.v
             else selectRegion w cur sc.v
  let change := !l.fresh && tgt != l.target
  let b := if l.fresh then lpBlendN w else if change then 0 else l.b
  let g0 := if change then l.gains else l.gFrom
  let (g, b, satB) := blendGains w tgt b g0
  let (kp, cr, cd2) := g
  -- the control law
  let sg : Int := if lpReverse w then -1 else 1
  let e := sat32 (sg * (sp.v - pv.v))
  let eps := div32 e.1 (lwi w 3) 30
  let xm := sat32 (-sg * pv.v)
  let xd := div32 xm.1 (lwi w 3) 30
  let xi := if lpDOnE w then (eps.1, false) else (xd.1, xm.2 || xd.2)
  let p := wb (kp * eps.1) 24
  let d0 := if init then 0 else l.d
  let x0 := if init then xi.1 else l.xiLast
  let dx := sat32 (xi.1 - x0)
  let d1 := wb (lwi w 6 * d0) 30
  let d2 := wb (cd2 * dx.1) 24
  let d := sat32 (d1.1 + d2.1)
  let wl := wLast s w
  let rt := sat32 (l.rLast - roundEven l.f 32)
  let f := if init then clampF w ((wl - ff.v - p.1 - d.1) * 2 ^ 32) else clampF w (l.f + 4 * (cr * rt.1))
  let u := sat32 (p.1 + d.1 + roundEven f.1 32 + ff.v)
  let c := clampInt (lpOutMin w) (lpOutMax w) u.1
  let wPrev := if l.init then wl else l.w
  let offer := if l.holds then wPrev
    else if l.mode = 2 then (if srcKind w srcMAN = 0 then wPrev else clampInt (lpOutMin w) (lpOutMax w) man.v)
    else c
  let fl := (if pv.sat || sp.sat || e.2 || eps.2 || p.2 then stP else 0) +
    (if f.2 || (!init && rt.2) then stI else 0) + (if xi.2 || dx.2 || d1.2 || d2.2 || d.2 then stD else 0) +
    (if u.2 || c != u.1 then stOUT else 0) + (if sc.sat || satB then stSCHED else 0)
  { loop := { l with f := f.1, d := d.1, xiLast := xi.1, init := false, fresh := false, reselect := false,
                     target := tgt, gains := g, gFrom := g0, b := b,
                     last := [pv.v, sp.v, ff.v, sc.v, man.v], resolved := false, stale := stale },
    c := c, offer := offer, flags := fl, region := change,
    newLost := newLost, newOld := stale && !l.stale }

/-! ### Taking effect (R119, R134, R135) -/

/-- The words whose change keeps an install from being carried over: PV, E_PV, PV_SPAN, REVERSE and GROUP (R134). -/
def carryKey (w : List Nat) : List Nat :=
  [lw w 12, lw w 13, lw w 14, bitsOf 31 24 (lw w 2), lw w 3, bNat (lpReverse w), lpGroup w]

/-- A loop with a mode in force: a change from OFF or MAN to AUTO initialises (R128). -/
def Loop.withMode (l : Loop) (m : Nat) : Loop := { l with mode := m, init := l.init || (m = 1 && l.mode != 1) }

/-- An install takes effect (R128, R134, R135). -/
def Loop.install (l : Loop) (w : List Nat) : Loop :=
  let l := { l with pendDesc := none }
  if l.mode != 0 && carryKey l.words = carryKey w then
    ({ l with words := w, gFrom := l.gains, b := 0, reselect := l.reselect || lpNReg w ≤ l.target }).withMode (lpMode w)
  else
    { l with words := w, mode := lpMode w, init := true, fresh := true, reselect := false, target := 0, lostPv := false,
             lostSp := false, lostSched := false, resolved := false, stale := false, last := [0, 0, 0, 0, 0] }

/-- A descriptor's loop is evaluated at a tick (R116). -/
def dueAt (w : List Nat) (t : Nat) : Bool := w != [] && t % lpPeriod w = lpPhase w

/-- What a loop's accepted calls make of it at a tick (R119). -/
def Loop.takeEffect (l : Loop) (t : Nat) : Loop :=
  let l := match l.pendDesc with
    | some p => if p.1 < t && dueAt p.2 t then l.install p.2 else l
    | none => l
  match l.pendDesc, l.pendMode with
  | none, some p => if p.1 < t && dueAt l.words t then { l.withMode p.2 with pendMode := none } else l
  | _, _ => l

/-- The loops of a group, by the descriptors in force. -/
def membersOf (s : State) (g : Nat) : List (Nat × Loop) := s.lpe.loops.filter fun e => e.2.words != [] && lpGroup e.2.words = g

/-! ### Registers (R136) -/

/-- The status word of a loop shown, with its sticky flags as they are; a loop that takes its first target has no blend in
progress (R132, R135). -/
def showLoop (s : State) (i : Nat) : State :=
  match alGet? s.lpe.loops i with
  | none => s
  | some l =>
    let s := setFi (setFi s F.LPE_LOOP_STAT_MODE i l.mode) F.LPE_LOOP_STAT_REGION i l.target
    let s := setFi s F.LPE_LOOP_STAT_BLENDING i (bNat (l.words != [] && !l.fresh && l.b < lpBlendN l.words))
    let s := setFi s F.LPE_LOOP_STAT_SCHED_OLD i (bNat l.stale)
    setFi s F.LPE_LOOP_STAT_SRC_LOST i (bNat (l.holds || l.lostSched))

/-- LPE_SAT_SUM of a loop's word from its sticky flags. -/
def showSatSum (s : State) (i : Nat) : State :=
  let any := fieldOf 4 0 (getReg s (F.LPE_LOOP_STAT_MODE.at i)) != 0
  let w := getFi s F.LPE_SAT_SUM_ANY (i / 32)
  setFi s F.LPE_SAT_SUM_ANY (i / 32) (putBits (i % 32) (i % 32) (bNat any) w)

/-- Sticky flags of a loop set (R127). -/
def setSticky (s : State) (i fl : Nat) : State :=
  if fl = 0 then s
  else
    let a := F.LPE_LOOP_STAT_MODE.at i
    setF (showSatSum (setReg s a (getReg s a ||| BitVec.ofNat 32 fl)) i) F.LPE_EVENTS_SAT 1

/-- Every sticky flag cleared: LPE_CTRL.CLR_SAT, and a restart (R127). -/
def clearSticky (s : State) : State :=
  forAll s (s.lpe.loops.map (·.1)) fun s i =>
    let a := F.LPE_LOOP_STAT_MODE.at i
    showSatSum (setReg s a (getReg s a &&& 0xFFFFFFE0#32)) i

/-- The counts and flags of LPE_STATUS. -/
def showLpe (s : State) : State :=
  let ls := s.lpe.loops.map (·.2)
  let s := setF s F.LPE_STATUS_N_RUN (ls.countP fun l => l.words != [] && l.mode != 0)
  let s := setF s F.LPE_STATUS_SCHED_OLD_ANY (bNat (ls.any (·.stale)))
  setF s F.LPE_STATUS_SRC_LOST_ANY (bNat (ls.any fun l => l.holds || l.lostSched))

/-- The sources of a loop resolved anew, at an install or a model activation (R123). -/
def resolveLoop (s : State) (i : Nat) : State :=
  match alGet? s.lpe.loops i with
  | none => s
  | some l =>
    if l.words = [] then s
    else
      let r := l.resolve (srcLost s l.words srcPV) (srcLost s l.words srcSP) (srcLost s l.words srcSCHED)
      let s := showLoop (modLoop s i fun _ => r.1) i
      if r.2 then setF s F.LPE_EVENTS_SRC_LOST 1 else s

/-- Every loop's sources resolved against the model that is active now, and shown (R123). -/
def resolveLoops (s : State) : State := showLpe (forAll s (s.lpe.loops.map (·.1)) resolveLoop)

/-! ### A tick (R118, R130) -/

/-- A loop's applied output settled, with r_last (R126), and its status shown. -/
def settle (s : State) (i : Nat) (w ff : Int) : State :=
  let r := sat32 (w - ff)
  let s := modLoop s i fun l => { l with w := w, rLast := r.1 }
  showLoop (setSticky s i (if r.2 then stI else 0)) i

/-- One loop evaluated; outside a group its output is settled and emitted at the next tick. -/
def runLoop (s : State) (i : Nat) : State :=
  match alGet? s.lpe.loops i with
  | none => s
  | some l =>
    let o := evalLoop s l
    let grouped := lpGroup l.words != noGroup
    let s := modLoop s i fun _ => { o.loop with w := if grouped then o.offer else o.loop.w }
    let s := bump s F.LPE_CNT_EVAL_COUNT
    let s := if o.region then bump s F.LPE_CNT_REGION_COUNT else s
    let s := if o.newLost then setF s F.LPE_EVENTS_SRC_LOST 1 else s
    let s := if o.newOld then setF s F.LPE_EVENTS_SCHED_OLD 1 else s
    let s := setFi (setSticky s i o.flags) F.LPE_LOOP_OUT_C i (uNat 32 o.c)
    if grouped then s
    else
      let s := setFi (settle s i o.offer (o.loop.last.getD 2 0)) F.LPE_LOOP_STAT_WINNER i 0
      if lpDest l.words = noTag then s
      else { s with lpe := { s.lpe with due := alPut s.lpe.due (lpDest l.words) o.offer } }

/-- The least offer, the lower index on a tie (R130). -/
def leastOffer : List (Nat × Int) → Option (Nat × Int)
  | [] => none
  | e :: es => match leastOffer es with
    | none => some e
    | some m => if e.2 ≤ m.2 then some e else some m

/-- A group resolved after its members (R130); a member that is OFF no longer shows as the winner (R135). -/
def runGroup (s : State) (g : Nat) : State :=
  let ms := membersOf s g
  let runs := ms.filter fun e => e.2.mode != 0
  let s := setFi s F.LPE_GROUP_STAT_N_MEMBERS g ms.length
  let s := forAll s (ms.filter fun e => e.2.mode = 0) fun s e => setFi s F.LPE_LOOP_STAT_WINNER e.1 0
  match leastOffer (runs.map fun e => (e.1, e.2.w)) with
  | none => setFi s F.LPE_GROUP_STAT_DRIVEN g 0
  | some (win, wg) =>
    let old := (alGet? s.lpe.groups g).bind (·.winner)
    let s := forAll s runs fun s e =>
      setFi (settle s e.1 wg (e.2.last.getD 2 0)) F.LPE_LOOP_STAT_WINNER e.1 (bNat (e.1 = win))
    let s := if old.isSome && old != some win then bump s F.LPE_CNT_SWITCH_COUNT else s
    let s := modGroup s g fun x => { x with winner := some win }
    let s := setFi (setFi (setFi s F.LPE_GROUP_STAT_DRIVEN g 1) F.LPE_GROUP_STAT_WINNER g win) F.LPE_GROUP_OUT_W g (uNat 32 wg)
    match (alGet? s.lpe.groups g).bind (·.dest) with
    | some d => if d = noTag then s else { s with lpe := { s.lpe with due := alPut s.lpe.due d wg } }
    | none => s

/-- The groups named by loops or descriptors, ascending. -/
def groupsOf (s : State) : List Nat :=
  sortDedup ((s.lpe.loops.filter fun e => e.2.words != [] && lpGroup e.2.words != noGroup).map (fun e => lpGroup e.2.words) ++
    s.lpe.groups.map (·.1))

/-- A group is resolved at the evaluation ticks of its members. -/
def groupDue (s : State) (g t : Nat) : Bool := (membersOf s g).any fun e => dueAt e.2.words t

/-- A group descriptor takes effect (R119); without members it does so at once. -/
def groupEffect (s : State) (t g : Nat) : State :=
  match alGet? s.lpe.groups g with
  | none => s
  | some x => match x.pend with
    | some p => if p.1 < t && (groupDue s g t || (membersOf s g).isEmpty) then
        modGroup s g fun x => { x with dest := some p.2, pend := none } else s
    | none => s

/-- The accepted calls of a loop take effect; a descriptor that comes into force has its sources resolved (R119, R123). -/
def loopEffect (s : State) (t i : Nat) : State :=
  let words := fun (s : State) => ((alGet? s.lpe.loops i).map (·.words)).getD []
  let s' := showLoop (modLoop s i fun l => l.takeEffect t) i
  if words s' = words s then s' else resolveLoop s' i

/-- Item 5 of R27 at tick `t`: calls take effect, due loops are evaluated in ascending index, then groups resolve; a group that
its last member has left shows none. -/
def lpeEvaluate (s : State) (t : Nat) : State :=
  let ix := s.lpe.loops.map (·.1)
  let was := groupsOf s
  let s := forAll s ix fun s i => loopEffect s t i
  let s := forAll s (s.lpe.groups.map (·.1)) fun s g => groupEffect s t g
  let s := forAll s ix fun s i =>
    match alGet? s.lpe.loops i with
    | some l => if dueAt l.words t && l.mode != 0 then runLoop s i else s
    | none => s
  showLpe (forAll s (sortDedup (was ++ groupsOf s)) fun s g => if groupDue s g t then runGroup s g
    else setFi s F.LPE_GROUP_STAT_N_MEMBERS g (membersOf s g).length)

/-- A loop destination's value put into the output image. -/
def emitTag (s : State) (tag : Nat) (v : Int) : State :=
  let s := { s with lpe := { s.lpe with emitted := sortDedup (tag :: s.lpe.emitted) } }
  match tagOf s tag with
  | none => s
  | some e => { s with outImg := memPut s.outImg e.off (leBytes (tagSize e.typ) (uNat 64 v)) }

/-- The outputs of the evaluations of the previous tick are emitted (R118, R25), with their digest (R289). -/
def lpeEmit (s : State) (t : Nat) : State :=
  if s.lpe.due.isEmpty then s
  else
    let due := s.lpe.due
    let s := forAll { s with lpe := { s.lpe with due := [] } } due fun s e => emitTag s e.1 e.2
    digestUnit s 2 0 t (leBytes 8 t ++ due.flatMap fun e => leBytes 2 e.1 ++ leBytes 2 0 ++ leBytes 4 (uNat 32 e.2))

/-- LPE_CTRL.CLR_SAT (R127). -/
def execClrSat (s : State) : Host.Outcome State Fault Refusal := .next (clearSticky s)

end Sys2Proof.Machine
end

