-- ==== Sys2Proof/Machine/QhcOps.lean ====
section
/-!
DEFINITION. Messages of the host channel: datagrams, the outbound mailbox, and unsolicited delivery (12 R329 R333 R334,
18 R452 R453).
-/
namespace Sys2Proof.Machine

/-! ### Datagrams (R329) -/

/-- FLAGS of a datagram. -/
def qfREPLY : Nat := 1
def qfLAST : Nat := 2
def qfUNSOL : Nat := 4

/-- One datagram with its CRC. -/
def qhcDatagram (typ flags status reqId frag total : Nat) (p : List Byte) : List Byte :=
  let head := fun (crc : Nat) => leBytes 1 1 ++ leBytes 1 typ ++ leBytes 1 flags ++ leBytes 1 status ++ leBytes 4 reqId ++
    leBytes 4 frag ++ leBytes 4 total ++ leBytes 2 p.length ++ leBytes 2 0 ++ leBytes 4 crc
  head (crc32c (head 0 ++ p)) ++ p

/-- Payload bytes of a fragment through the mailbox. -/
def mboxFrag : Nat := 32736

/-- Payload bytes of a fragment on Ethernet. -/
def etherFrag : Nat := 1408

/-- The datagrams of a message: `n` fragments of at most `size` bytes from index `i`. -/
def msgFrags (size typ flags status reqId total : Nat) : Nat → Nat → List Byte → List (List Byte)
  | 0, _, _ => []
  | n + 1, i, p =>
    qhcDatagram typ (flags + (if n = 0 then qfLAST else 0)) status reqId i total (p.take size) ::
      msgFrags size typ flags status reqId total n (i + 1) (p.drop size)

/-- A message in datagrams of at most `size` payload bytes; an empty one is one datagram (R329). -/
def msgDatagrams (size typ flags status reqId : Nat) (p : List Byte) : List (List Byte) :=
  msgFrags size typ flags status reqId p.length (max 1 ((p.length + size - 1) / size)) 0 p

/-- The next datagram placed in the outbound mailbox while it is empty (R333). -/
def fillOutBox (s : State) : State :=
  match s.qhc.outQ with
  | d :: rest =>
    if s.qhc.outBox.isEmpty then send { s with qhc := { s.qhc with outBox := d, outQ := rest } } (.msi 0) else s
  | [] => s

/-- A message queued for the PCIe side. -/
def toPcie (s : State) (typ flags status reqId : Nat) (p : List Byte) : State :=
  fillOutBox { s with qhc := { s.qhc with outQ := s.qhc.outQ ++ msgDatagrams mboxFrag typ flags status reqId p } }

/-! ### Unsolicited messages (R334) -/

def qtEVENT : Nat := 0x20
def qtSTATE : Nat := 0x21
def qtDONE : Nat := 0x22

/-- The module address and the host address of unsolicited messages: those of IPv4 where both are given, else those of IPv6
(DESIGN CHOICE, log 73). -/
def hostRoute (s : State) : Option (NetAddr × NetAddr) :=
  let n := s.net
  if n.modV4 ≠ 0 && n.hostV4 ≠ 0 then some (.v4 n.modV4, .v4 n.hostV4)
  else if n.modV6 ≠ 0 && n.hostV6 ≠ 0 then some (.v6 n.modV6, .v6 n.hostV6)
  else none

/-- An unsolicited message sent: to the host address where the settings give one, and through the mailbox where that is
open. -/
def emitUnsol (s : State) (reqId typ : Nat) (p : List Byte) : State :=
  let s := match hostRoute s with
    | some (a, b) => send s (.qhcUnsol a b reqId typ p (msgDatagrams etherFrag typ qfUNSOL 0 reqId p))
    | none => s
  if s.qhc.pcieUp && s.qhc.outSeen then toPcie s typ qfUNSOL 0 reqId p else s

/-- A new unsolicited message, which waits for its reply; none while the channel is lost. -/
def unsol (s : State) (typ key : Nat) (p : List Byte) : State :=
  if s.qhc.lost then s
  else
    let id := s.qhc.nextId
    let u : Unsol := { reqId := id, typ := typ, payload := p, sends := nowNs s, key := key }
    emitUnsol { s with qhc := { s.qhc with out := s.qhc.out ++ [u], nextId := (id + 1) % 2 ^ 32 } } id typ p

/-- The bytes of the record in a slot (R440). -/
def slotRecord (s : State) (slot : Nat) : List Byte :=
  let a := logBase + 256 * slot
  memBytes s.mem a (min 256 (memLe s.mem (a + 16) 2))

/-- The stored record of lowest SEQ at or above a value: slot and SEQ. -/
def seekSeq (s : State) (v : Nat) : Option (Nat × Nat) :=
  s.evr.index.foldl (fun (b : Option (Nat × Nat)) e =>
    if e.2.1 < v then b
    else match b with
      | none => some (e.1, e.2.1)
      | some c => if e.2.1 < c.2 then some (e.1, e.2.1) else some c) none

/-- EVR_HOST_ACK (R452). -/
def hostAck (s : State) : Nat := get64 s R.EVR_HOST_ACK_LO R.EVR_HOST_ACK_HI

/-- A STATE message (R330): header, records, dispatch index in force and decision table. -/
def stateMessage (s : State) (r : NetState) : List Byte :=
  let t := s.dpo.table.getD { index := 0, values := [] }
  resultBytes r ++ leBytes 8 t.index ++ (List.range 160).flatMap fun i => leBytes 4 (uNat 32 (t.values.getD i 0))

/-- A message of a type is on its way. -/
def awaiting (s : State) (typ : Nat) : Bool := s.qhc.out.any fun u => u.typ = typ

/-- The next EVENT message, when none is on its way (R452). -/
def pumpEvents (s : State) : State :=
  if s.qhc.lost || awaiting s qtEVENT then s
  else match seekSeq s (max s.qhc.evSent (hostAck s) + 1) with
    | some (slot, q) =>
      unsol { s with qhc := { s.qhc with evSent := q } } qtEVENT q (slotRecord s slot)
    | none => s

/-- The next STATE message, oldest first, when none is on its way (R453). -/
def pumpStates (s : State) : State :=
  if s.qhc.lost || awaiting s qtSTATE then s
  else match s.evr.states with
    | r :: _ => unsol s qtSTATE r.cycle (stateMessage s r)
    | [] => s

/-- What the host channel sends of its own accord. -/
def qhcPump (s : State) : State := pumpStates (pumpEvents s)

/-- A committed state queued for the host; the oldest of more than 16 is displaced (R453). -/
def queueState (s : State) (r : NetState) : State :=
  let q := s.evr.states ++ [r]
  let sent := (q.head?.map fun r => s.qhc.out.any fun u => decide (u.typ = qtSTATE) && decide (u.key = r.cycle)).getD false
  let s := if 16 < q.length && !sent then setF (bump s F.EVR_CNT_STATE_LOST_COUNT) F.EVR_EVENTS_STATE_LOST 1 else s
  qhcPump { s with evr := { s.evr with states := q.drop (q.length - 16) } }

/-- The outcome of a validation (0), an activation (1) or an exchange (2) told to the host (R330) by the module that
took the request; a standby follows forwarded ones. -/
def qhcDone (s : State) (kind code value : Nat) : State :=
  if roleOf s = roSTANDBY then s
  else unsol s qtDONE kind (leBytes 1 kind ++ leBytes 1 0 ++ leBytes 2 code ++ leBytes 8 value)

/-! ### Replies (R331) -/

/-- A reply sent to the sender of a request. -/
def emitReply (s : State) (sender reqId typ status : Nat) (p : List Byte) : State :=
  let s := send s (.qhcReply sender reqId typ status p (if sender = 0 then [] else msgDatagrams etherFrag typ qfREPLY status reqId p))
  if sender = 0 then toPcie s typ qfREPLY status reqId p else s

/-- The latest `n` entries of a list that a test picks out stay, with every other entry. -/
def keepLatest {α : Type} (n : Nat) (pick : α → Bool) (l : List α) : List α :=
  (l.foldr (fun x (r : Nat × List α) =>
    if pick x then (if r.1 < n then (r.1 + 1, x :: r.2) else r) else (r.1, x :: r.2)) (0, [])).2

/-- A reply sent and kept, with the latest 64 of each sender. -/
def qhcReply (s : State) (sender reqId typ status : Nat) (p : List Byte) : State :=
  let kept := keepLatest 64 (fun e => decide (e.1 = sender)) (s.qhc.kept ++ [(sender, reqId, typ, status, p)])
  emitReply { s with qhc := { s.qhc with kept := kept } } sender reqId typ status p

/-- What a handler answers: a status with its payload, or nothing yet. -/
abbrev Answer := State × Option (Nat × List Byte)

/-- Status 0 with one zero word, and refusals (R331). -/
def ansOk (s : State) : Answer := (s, some (0, leBytes 4 0))
def ansWith (s : State) (p : List Byte) : Answer := (s, some (0, p))
def ansBad (s : State) : Answer := (s, some (1, leBytes 4 0))
def ansState (s : State) : Answer := (s, some (4, leBytes 4 0))
def ansRefuse (s : State) (code : Nat) : Answer := (s, some (3, leBytes 4 code))

/-- A refusal whose code no rule gives (assumption 8). -/
def ansRefuseFree (s : State) : Answer :=
  let (v, s) := takeFree s
  ansRefuse s (v % 2 ^ 32)

end Sys2Proof.Machine
end

