-- ==== Sys2Proof/Machine/Tick.lean ====
section
/-!
DEFINITION. The arrival of a 250 µs tick: the state switch, the forces, the emission of loop outputs and the drive of
the digital outputs (01 R20 R25 R27, 05 R118, 10 R259, 16 R404). Commands of one tick share its arrival.
-/
namespace Sys2Proof.Machine

/-- A standby switches at the tick that the active module named (R291). -/
def switchLater (s : State) : Bool := roleOf s = roSTANDBY && s.red.switchAt.any fun t => tickNow s < t

/-- Step 5 of R20: the committed state that completed before this tick comes into force, and is queued for the host
(R453). -/
def switchState (s : State) : State :=
  match s.nsa.committed with
  | none => s
  | some r =>
    if switchLater s || (s.nsa.inForce.isSome && (s.nsa.inForce.map (·.cycle)) = some r.cycle) then s
    else queueState { s with nsa := { s.nsa with inForce := some r } } r

/-- FORCED_N and SCN_STATUS.FORCED (R260). -/
def showForced (s : State) : State := setF s F.SCN_STATUS_FORCED (bNat (s.forcesEff.any fun e => e.2.enable))

/-- SCN_FORCE_CNT shown. -/
def showForceCnt (s : State) : State :=
  let n := fun k => s.forces.countP fun e => e.2.enable && e.2.kind = k
  setF (setF s F.SCN_FORCE_CNT_INPUT (n 0)) F.SCN_FORCE_CNT_OUTPUT (n 1)

/-- One entry of the force table changed, or cleared. -/
def changeForce (l : List (Nat × Force)) (i : Nat) (f : Option Force) : List (Nat × Force) :=
  match f with
  | some f => alPut l i f
  | none => alDel l i

/-- An entry of the table set or cleared, with its event (R258). -/
def applyForce (s : State) (i : Nat) (f : Option Force) : State :=
  let x := (f <|> alGet? s.forces i).getD { enable := false, kind := 0, target := 0, value := 0 }
  ev (showForceCnt { s with forces := changeForce s.forces i f }) blkSCN 0x80 2 [x.kind, x.target, x.value]

/-- The entries of the force table that differ from those in effect. -/
def forceDiff (was now : List (Nat × Force)) : List (Nat × Option Force) :=
  (now.filter fun e => alGet? was e.1 != some e.2).map (fun e => (e.1, some e.2)) ++
  (was.filter fun e => (alGet? now e.1).isNone).map fun e => (e.1, none)

/-- The forces accepted before this tick take effect, on a standby those of the active module whose tick has come; the
changes go into the TICK frame (R259, R284). -/
def switchForces (s : State) : State :=
  let due := s.red.forcesAt.filter fun e => e.1 ≤ nowNs s
  let s := { s with red := { s.red with forcesAt := s.red.forcesAt.filter fun e => nowNs s < e.1 } }
  let s := due.foldl (fun s e => applyForce s e.2.1 e.2.2) s
  showForced { s with forcesEff := s.forces, red := { s.red with forceChg := s.red.forceChg ++ forceDiff s.forcesEff s.forces } }

/-- What happens at a tick before its loop evaluations. -/
def arrive (s : State) : State :=
  let s := switchForces (settleTable (switchState s))
  let s := if executes s && s.runState then lpeEmit s (tickNow s) else s
  driveOutputs s

/-- The tick whose commands are under way: the present one until its loop evaluations have run, then the next. -/
def reachTick (s : State) : State := if s.boot.stage ≠ 0 && tickDone s then arrive (toTick s) else s

end Sys2Proof.Machine
end

