-- ==== Sys2Proof/Machine/Cycle.lean ====
section
/-!
DEFINITION. The network cycle: its instant, the snapshot, activation, validation, and the ends of the cycle's jobs
(01 R20 to R24, 02 R46 to R56, 20 R476).
-/
namespace Sys2Proof.Machine

/-! ### Activation (R49 to R52, R56) -/

/-- Values of a committed state seen through another model, by NODE_ID and BRANCH_ID (R50). -/
def mapState (old new : Model) (r : NetState) : Job.M NetState := do
  let go := fun (cls : Nat) (v : Int) => rescale plWARM (expOf old cls) (expOf new cls) v
  let nodes ← new.nodes.mapM fun e =>
    match (old.nodes.findIdx? (·.id = e.id)).bind fun i => r.nodes[i]? with
    | some x => do
      let p ← go 0 x.p
      let t ← go 2 x.t
      let m ← go 1 x.imbal
      pure { x with p := p, t := t, imbal := m }
    | none => pure { p := e.pInit, t := e.tInit, flags := 0, imbal := 0 }
  let branches ← new.branches.mapM fun e =>
    match (old.branches.findIdx? (·.id = e.id)).bind fun i => r.branches[i]? with
    | some x => do
      let q ← go 1 x.q
      let t ← go 2 x.tOut
      let d ← go 0 x.dp
      pure { x with q := q, tOut := t, dp := d }
    | none => pure { q := e.qInit, tOut := tOutInit new e, dp := 0, flags := 0 }
  return { r with nodes := nodes, branches := branches }

/-- Mask bits carried over by BRANCH_ID (R56). -/
def mapMask (new : Model) (ids : List Nat) : List Nat :=
  (new.branches.zipIdx.filter fun e => ids.contains e.1.id).map (·.2)

/-- The solver's state carried from the old model, if one was active, to the new one (R50, R56, R78). -/
def carryOver (s : State) (new : Model) : State :=
  let s := setMask s new (mapMask new s.nsa.maskIds)
  match s.nsa.model with
  | none => { s with nsa := { s.nsa with base := none, plugs := coldPlugs new } }
  | some old =>
    let prog : Job.M (Option BaseState × List (List Plug)) := do
      let b ← match s.nsa.base with
        | some b => some <$> mapBase old new b
        | none => pure none
      let p ← mapPlugs old new (if s.nsa.plugs = [] then coldPlugs old else s.nsa.plugs)
      pure (b, p)
    let ((b, p), n) := prog.run Notes.none
    let view := fun (r : NetState) => ((mapState old new r).run Notes.none).1
    showNotes { s with nsa := { s.nsa with base := b, plugs := p,
                                           committed := s.nsa.committed.map view, inForce := s.nsa.inForce.map view } } n

/-- The model of a slot becomes active (R46, R50); `was` is the slot that was active. -/
def showActive (s : State) (slot : Nat) : State :=
  let other := 1 - slot
  let s := if slotState s other = slACTIVE then setF s (slotField other) slVALID else s
  let s := setF (setF s (slotField slot) slACTIVE) F.NSA_MODEL_STATUS_ACTIVE_SLOT slot
  showModel { s with cfg := { s.cfg with modelSlot := some slot } }

/-- A table that came into force at the instant of an activation was computed for the old model: it is mapped (R52). -/
def tableFollows (s : State) (old : Option Model) (new : Model) : State :=
  match old, s.dpo.table with
  | some old, some t =>
    if nowNs s % dispNs s = 0 && t.index + 1 = nowNs s / dispNs s then
      let r := mapDecisions old new t.values
      ev { s with dpo := { s.dpo with table := some { t with values := r.1 } } } blkNSA 0x8A 3 [r.2.1, r.2.2]
    else s
  | _, _ => s

/-- An activation takes effect at T_K (R50). -/
def activate (s : State) (a : Activation) (k : Nat) : State :=
  let was := match s.nsa.model with | some m => m.serial | none => 0
  let s := tableFollows (carryOver s a.model) s.nsa.model a.model
  let s := { s with nsa := { s.nsa with model := some a.model, activation := none, isolated := [], isoDue := true } }
  let s := ev (showActive s a.slot) blkNSA 0x82 2 [was, a.model.serial]
  let s := resolveLoops (undeclaredEvents s a.model)
  let bad := match s.dpo.forecast with | some f => f.hs != a.model.hs | none => false
  let s := if bad then setF { s with dpo := { s.dpo with invalid := true } } F.DPO_STATUS_NO_FCST 1 else s
  qhcDone (rebindSessions s) 1 0 k

/-- A pair member with a synced peer activates only what both hold as valid (R51). -/
def needsPeer (s : State) : Bool := roleOf s = roACTIVE || roleOf s = roSTANDBY

/-- The DONE code of an activation that was withdrawn, which the manual does not give (assumption 8). -/
def withdrawn (s : State) : State :=
  let (v, s) := takeFree s
  let k := match s.nsa.activation with | some a => a.at_ | none => 0
  let s := setF { s with nsa := { s.nsa with activation := none } } F.NSA_MODEL_STATUS_PREPARING 0
  qhcDone s 1 v k

/-- The activation that waits for cycle k or an earlier one: it takes effect, or is deferred (R50 to R52). -/
def activationAt (s : State) (k : Nat) : State :=
  match s.nsa.activation with
  | none => s
  | some a =>
    if k < a.at_ then s
    else if a.prepared && (!needsPeer s || a.confirmed) then activate s a k
    else if a.deferrals < 50 then
      ev { s with nsa := { s.nsa with activation := some { a with deferrals := a.deferrals + 1 } } } blkNSA 0x83 3 []
    else ev (withdrawn s) blkNSA 0x84 5 []

/-- The standby's report on an image that it holds as valid: its slot and its digest (R51, R266). -/
def reportImage (s : State) (typ kind slot : Nat) : State :=
  furovSend s (.forward typ (nowNs s) (leBytes 1 slot ++ imageDigest s kind slot))

/-- A slot of the standby that an activation already waits for has become VALID: the standby reports it, and prepares the
model that it holds now (R50, R51). -/
def reportValid (s : State) (slot : Nat) : State :=
  match s.nsa.activation with
  | some a =>
    if roleOf s = roSTANDBY && a.slot = slot && !a.confirmed then
      let a := { a with model := modelOf s.mem (imageSlot ikMODEL slot), prepared := false }
      reportImage (setF { s with nsa := { s.nsa with activation := some a } } F.NSA_MODEL_STATUS_PREPARING 1) 0x04 ikMODEL slot
    else s
  | none => s

/-- MODEL_PREPARATION_DONE (R50). -/
def execModelPreparationDone (s : State) : Host.Outcome State Fault Refusal :=
  .next (match s.nsa.activation with
    | some a =>
      setF { s with nsa := { s.nsa with activation := some { a with prepared := true } } } F.NSA_MODEL_STATUS_PREPARING 0
    | none => s)

/-! ### Validation (R46, R47, R52) -/

/-- NSA_MODEL_ERR holds the failure of a validation (R47). -/
def showModelErr (s : State) (f : Nat × Nat × Nat) : State :=
  setF (setF (setF s F.NSA_MODEL_ERR_CODE f.1) F.NSA_MODEL_ERR_TABLE f.2.1) F.NSA_MODEL_ERR_INDEX f.2.2

/-- A validation that failed, shown and recorded (R47). -/
def showInvalid (s : State) (slot : Nat) (f : Nat × Nat × Nat) : State :=
  let s := showModelErr (setF s (slotField slot) slINVALID) f
  let s := setF (setF s F.SEC_IMG_RES_KIND 2) F.SEC_IMG_RES_CODE (if f.1 = 2 then 2 else 1)
  ev s blkNSA 0x80 3 [f.1, f.2.1, f.2.2]

/-- The slot recorded as active passes at a restart: its model is active before the first network cycle (R52); its tags are
looked up once the program is restored (R43). -/
def restartModel (s : State) (slot : Nat) (md : Model) : State :=
  let s := { s with nsa := { s.nsa with model := some md, isolated := [], isoDue := true,
                                        plugs := if s.nsa.plugs = [] then coldPlugs md else s.nsa.plugs } }
  rebindSessions (showActive s slot)

/-- The outcome of a validation of a slot, at a restart or on request (R47, R52). -/
def validated (s : State) (slot written : Nat) (restart sigOk : Bool) : State :=
  let base := modelSlotBase slot
  let s := { s with nsa := { s.nsa with validating := s.nsa.validating.filter fun e => e.1 != slot } }
  let main := restart && s.cfg.modelSlot = some slot
  match validateModel s.mem base written (sigOk && (ownerValid s 0 || ownerValid s 1)) with
  | none =>
    if main then restartModel (setReg s R.NSA_MODEL_ERR 0) slot (modelOf s.mem base)
    else
      let s := setReg (setF s (slotField slot) slVALID) R.NSA_MODEL_ERR 0
      if restart then s else qhcDone (reportValid s slot) 0 0 0
  | some f =>
    if restart && !main && f.1 = 1 then setF (showModelErr s f) (slotField slot) slEMPTY
    else
      let s := showInvalid s slot f
      let s := if restart && f.1 = 1 then setF s (slotField slot) slEMPTY else s
      if main then ev s blkNSA 0x85 6 [] else if restart then s else qhcDone s 0 f.1 0

/-- At a restart the slot recorded as active is validated first (R52). -/
def validatesLater (s : State) (slot : Nat) : Bool :=
  s.nsa.validating.any fun e => e.2.2 && s.cfg.modelSlot = some e.1 && e.1 != slot

/-- MODEL_VALIDATION_DONE: a validation in progress ends (R46, R47, R52). -/
def execModelValidationDone (slot : Fin 2) (sigOk : Bool) (s : State) : Host.Outcome State Fault Refusal :=
  .next (match s.nsa.validating.find? fun e => e.1 = slot.val with
    | some (_, written, restart) => if restart && validatesLater s slot.val then s else validated s slot.val written restart sigOk
    | none => s)

/-! ### The instant (R20, R23, R27) -/

/-- The present instant is a network-cycle instant that has not been met (R17). -/
def atCycle (s : State) : Bool := nowNs s % netNs s = 0 && s.nsa.instant != some (cycleNow s)

/-- The SNAPSHOT frame of a snapshot that has closed, with the metering samples since the last one (R284, R287). -/
def sendSnapshot (s : State) (k : Nat) : State :=
  if roleOf s = roACTIVE then
    let m := s.mtr
    furovSend { s with mtr := { m with fwd := [] } } (.snapshot k s.ses.snap m.viewT m.viewE m.viewMiss m.fwd)
  else s

/-- The snapshot of the present instant closes: its thermal samples are taken, and the job of its cycle works on it (R20
step 2, R144). -/
def closeSnapshot (s : State) : State :=
  match s.nsa.open_ with
  | some o =>
    (sendSnapshot · o.cycle) <| closeSessions (closeDemands { thermSamples s o.time with nsa := { s.nsa with
      prevSnap := s.nsa.snap, snap := some o, open_ := none,
      hyd := s.nsa.hyd.map fun j => if j.cycle = o.cycle then { j with snap := o } else j } })
  | none => s

/-- The previous cycle has no committed state: it is missed (R23), and a dispatch job that waits for it has none. -/
def missPrevious (s : State) : State :=
  match s.nsa.cycleOpen with
  | none => s
  | some _ =>
    let s := setF { s with nsa := { s.nsa with cycleOpen := none, hyd := none } } F.NSA_STATUS_HYD_BUSY 0
    let s := evBit (bump s F.NSA_CNT_MISSED_COUNT) F.NSA_EVENTS_MISSED 4 []
    match s.dpo.due with
    | some d => if d.2 < nowNs s then dpoOutcome s d.1 7 else s
    | none => s

/-- PLY_OFF and DPO_OFF apply from the first network-cycle instant after their write (R115). -/
def takeCtrl (s : State) : State :=
  if nowNs s < s.dpo.ctrlAt then s
  else { s with dpo := { s.dpo with plyOff := flag s F.DPO_CTRL_PLY_OFF, dpoOff := flag s F.DPO_CTRL_DPO_OFF } }

/-- The ply of cycle k that still runs at Tₖ is discarded under PLY_OFF, else abandoned (R27, R92, R96, R115); a standby
leaves that to the active module (R100, R291). -/
def settlePly (s : State) (k : Nat) (sp : StopPoint) : State :=
  let s := takeCtrl { s with nsa := { s.nsa with plyDone := s.nsa.plyDone.filter fun p => p.result.cycle = k, plyReason := none } }
  if s.dpo.plyOff then stopPly { s with nsa := { s.nsa with plyDone := none } } sp none
  else if roleOf s = roSTANDBY then s
  else stopPly (sendLate s) sp (some 2)

/-- One descriptor comes into force, at which NO_DESC falls (R59, R89; DESIGN CHOICE, log 68). -/
def takeDesc (s : State) (d : List Nat) : State :=
  match dKind d with
  | 0 => setF { s with nsa := { s.nsa with cycleDesc := some d } } F.NSA_STATUS_NO_DESC 0
  | 2 => setF { s with nsa := { s.nsa with plyDesc := some d } } F.DPO_STATUS_NO_PLY_DESC 0
  | _ => setF { s with nsa := { s.nsa with dispDesc := some d } } F.DPO_STATUS_NO_DPO_DESC 0

/-- Descriptors accepted before the instant come into force, in order (R59, R89). -/
def takeDescs (s : State) : State :=
  let t := nowNs s
  let s := forAll s (s.nsa.pendDesc.filter fun e => e.1 < t) fun s e => takeDesc s e.2
  { s with nsa := { s.nsa with pendDesc := s.nsa.pendDesc.filter fun e => t ≤ e.1 } }

/-- The ply and dispatch descriptors in force checked against the active model (R61, R115). -/
def checkDescs (s : State) : State :=
  let bad := fun (d : Option (List Nat)) k => d.any fun d => descRefuse s d [k] != 0
  if s.nsa.model.isSome && (bad s.nsa.plyDesc 2 || bad s.nsa.dispDesc 5) then dpoRefused s else s

/-- Mask writes that landed before the instant apply (R53); isolation is analysed anew where the mask changed (R55). -/
def takeMask (s : State) : State :=
  let t := nowNs s
  let due := s.nsa.pendMask.filter fun e => e.1 < t
  let rest := s.nsa.pendMask.filter fun e => t ≤ e.1
  let s := { s with nsa := { s.nsa with pendMask := rest } }
  match s.nsa.model with
  | none => s
  | some md =>
    let mask := due.foldl (fun m e => applyMaskWrite md.branches.length m e.2.1 e.2.2) s.nsa.mask
    let changed := mask != s.nsa.mask
    setMask { s with nsa := { s.nsa with isoDue := s.nsa.isoDue || changed } } md mask

/-- The isolation analysis, where it is due and a model is active (R55). -/
def isolate (s : State) : State :=
  match s.nsa.model with
  | some md => if s.nsa.isoDue then isolationAnalysis s md s.nsa.isolated else s
  | none => s

/-- The job of cycle k: its check starts, or the cycle has none (R58, R61, R96). -/
def startCycle (s : State) (md : Model) (sn : Snapshot) (k : Nat) : State :=
  let s := { s with nsa := { s.nsa with cycleOpen := some k } }
  match s.nsa.cycleDesc with
  | none => dropPly s
  | some d =>
    if descRefuse s d [0] ≠ 0 then dropPly (setF s F.NSA_STATUS_LAST_OUTCOME 2)
    else setF { s with nsa := { s.nsa with hyd := some (newJob s md 3 k (nowNs s) d sn) } } F.NSA_STATUS_HYD_BUSY 1

/-- What a network-cycle instant does, with a ply that still runs standing at `sp`. -/
def cycleInstant (s : State) (sp : StopPoint) : State :=
  let k := cycleNow s
  let s := missPrevious (closeSnapshot s)
  let s := settlePly { s with nsa := { s.nsa with instant := some k } } k sp
  let s := freezeSessions (activationAt s k) (nowNs s)
  let s := isolate (forecastInForce (takeMask (checkDescs (takeDescs s))))
  let s := if latchValid s then s else takeConfig s (nowNs s)
  match s.nsa.model with
  | some md =>
    let sn := snapshotOf s md s.ses.frozen k
    startCycle { s with nsa := { s.nsa with open_ := some sn } } md sn k
  | none => dropPly { s with nsa := { s.nsa with open_ := some (bareSnap s k) } }

/-- SNAPSHOT_CLOSE (R20 step 2); the snapshot of a standby closes with its SNAPSHOT frame (R287). -/
def execSnapshotClose (s : State) : Host.Outcome State Fault Refusal :=
  .next (if roleOf s = roSTANDBY then s else closeSnapshot s)

/-! ### Completion (R20 steps 4 to 7, R476) -/

/-- Network control is reached with a committed state (R476, R479). -/
def networkControl (s : State) : State :=
  match s.nsa.committed, s.nsa.snap with
  | some r, some sn =>
    if !s.boot.network && holds s && s.runState && r.outcome ≤ 1 && r.cycle = sn.cycle &&
        s.ses.snap.all (fun e => e.2.state != ssPENDING) then
      ev { s with boot := { s.boot with network := true } } blkSYS 0x82 2
        [(s.boot.before + tb0Ns s) / 1000000, (sesIn s ssADMITTED).length, sn.subDef.countP id]
    else s
  | _, _ => s

/-- The loop evaluations of a standby that waited for its committed state (R291). -/
def releaseTick (s : State) : State :=
  match s.red.tickHeld with
  | some c =>
    if stateAwaited s then s
    else
      let s := { s with inImg := memPutCells s.inImg c, red := { s.red with tickHeld := none, tickDue := false } }
      lpeEvaluate (switchState s) (tickNow s)
  | none => s

/-- A job has made committed state k: the peer is told, loop evaluations that waited run, and the ply of the next cycle
starts (R20, R92, R291). -/
def cycleDone (j : Job) (s : State) : State :=
  let s := match s.nsa.committed with
    | some r => sendJob s j j.stop { endOf ⟨j.kind, j.cycle⟩ r with tick := some (tickNow s + 1) }
    | none => s
  networkControl (plyStart (releaseTick s))

/-- CYCLE_JOB_COMPLETE: the CYCLE job's result becomes committed state k, and the ply of the next cycle starts (R81,
R92). -/
def execCycleJobComplete (elapsed : Nat) (s : State) : Host.Outcome State Fault Refusal :=
  .next (match s.nsa.hyd, s.nsa.model with
    | some j, some md =>
      if j.kind = 0 && s.nsa.open_.isNone && !waits s .hyd j then
        withEnd s .hyd j elapsed fun s j elapsed => cycleDone j (cycleEnd s md j elapsed)
      else s
    | _, _ => s)

/-- REFINE_COMPLETE: the refined ply becomes committed state k, and the ply of the next cycle starts (R98, R92). -/
def execRefineComplete (elapsed : Nat) (s : State) : Host.Outcome State Fault Refusal :=
  .next (match s.nsa.hyd, s.nsa.model, s.nsa.plyDone with
    | some j, some md, some p =>
      if j.kind = 4 && !waits s .hyd j then
        withEnd s .hyd j elapsed fun s j elapsed => cycleDone j (refineEnd s md j p elapsed)
      else s
    | _, _, _ => s)

/-- A committed state or a force change waits for the next tick. -/
def switchWaits (s : State) : Bool :=
  s.forces != s.forcesEff || (s.nsa.committed.map (·.cycle)) != (s.nsa.inForce.map (·.cycle))

/-- STATE_SWITCH: the next tick arrives, and committed state k comes into force (R20 steps 5 and 6). -/
def execStateSwitch (s : State) : Host.Outcome State Fault Refusal := .next (if switchWaits s then reachTick s else s)

end Sys2Proof.Machine
end

