-- ==== Sys2Proof/Machine/Evr.lean ====
section
/-!
DEFINITION. The event recorder (18).
-/
namespace Sys2Proof.Machine

/-! ### Records (R439 to R441, R449) -/

/-- The bytes of a record with CRC as zero and without its tag. -/
def recBody (r : EvrRec) (seq : Nat) (sealed deferred : Bool) : List Byte :=
  let items := r.items.take (if sealed then 26 else 28)
  let len := 32 + 8 * items.length + (if sealed then 16 else 0)
  leBytes 8 seq ++ leBytes 8 r.time ++ leBytes 2 len ++
    leBytes 1 (32 * bNat deferred + 16 * bNat r.unsealed + 8 * bNat sealed + r.sev % 8) ++ leBytes 1 r.task ++
    leBytes 1 r.block ++ leBytes 1 r.event ++ leBytes 2 0 ++ leBytes 4 0 ++ leBytes 4 r.cycle ++ items.flatMap (leBytes 8)

/-- TAG of a sealed record (R449). -/
def sealTag (s : State) (key body : List Byte) : List Byte :=
  (kmac256 key (leBytes 8 (serialNo s) ++ body) 32 (asciiBytes "QN-884 event seal")).take 16

/-- The 256 bytes of a slot that holds a record (R439, R440, R449). -/
def slotBytes (s : State) (r : EvrRec) (seq : Nat) : List Byte :=
  let key := if flag s F.EVR_CFG_SEAL_EN then s.evr.sealKey else none
  let body := recBody r seq key.isSome r.deferred
  let b := body ++ (match key with | some k => sealTag s k body | none => [])
  let b := b.take 0x18 ++ leBytes 4 (crc32c b) ++ b.drop 0x1C
  b ++ leBytes (256 - b.length) 0

/-- The SEAL key fetched by the recorder (R449). -/
def fetchSeal (s : State) : State :=
  let k := (slotWith s atSEAL).bind fun n => keyOf s n atSEAL
  setF { s with evr := { s.evr with sealKey := k } } F.EVR_STATUS_SEAL_NOKEY (bNat k.isNone)

/-! ### Writing (R443 to R447) -/

/-- The number of slots. -/
def nSlots : Nat := 1048576

/-- The lowest number at or above `i` that a rising list does not hold. -/
def firstGap : List Nat → Nat → Nat
  | [], i => i
  | k :: ks, i => if k < i then firstGap ks i else if k = i then firstGap ks (i + 1) else i

/-- The lowest free slot, if any (R445). -/
def freeSlot (s : State) : Option Nat :=
  let i := firstGap (sortDedup (s.evr.index.map (·.1) ++ s.evr.retired)) 0
  if i < nSlots then some i else none

/-- The slot whose record a severity may displace: the lowest SEQ among those of that severity or less (R445). -/
def victim (s : State) (sev : Nat) : Option (Nat × Nat) :=
  s.evr.index.foldl (fun (b : Option (Nat × Nat)) e =>
    if sev < e.2.2 then b
    else match b with
      | none => some (e.1, e.2.1)
      | some c => if e.2.1 < c.2 then some (e.1, e.2.1) else some c) none

/-- A slot retired (R446). -/
def retireSlot (s : State) (slot : Nat) : State :=
  let s := { s with evr := { s.evr with index := alDel s.evr.index slot, retired := sortDedup (s.evr.retired ++ [slot]) } }
  evBit (bump s F.EVR_CNT_BAD_SLOT_COUNT) F.EVR_EVENTS_BAD_SLOT 4 [slot]

/-- EVR_USED and EVR_SEQ_NEXT. -/
def showUsed (s : State) : State := setF s F.EVR_USED_SLOTS s.evr.index.length
def seqNext (s : State) : Nat := get64 s R.EVR_SEQ_NEXT_LO R.EVR_SEQ_NEXT_HI

/-- The overwrite of a held slot counted (R445, R452). -/
def countOverwrite (s : State) (seq : Nat) : State :=
  let s := bump s F.EVR_CNT_OVERWRITE_COUNT
  if hostAck s < seq then setF (bump s F.EVR_CNT_UNREAD_COUNT) F.EVR_EVENTS_UNREAD_LOST 1 else s

/-- A record that finds no slot (R445). -/
def dropRecord (s : State) (sev : Nat) : State := setF (bumpBy s F.EVR_DROP_COUNT sev 1) F.EVR_EVENTS_DROP 1

/-- The record that waits first, and the state without it: carried records before the buffer (R448). -/
def takeRecord (s : State) : Option (EvrRec × State) :=
  match s.evr.carried, s.evr.buf with
  | r :: rest, _ => some ({ r with deferred := true }, { s with evr := { s.evr with carried := rest } })
  | [], r :: rest => some (r, setF { s with evr := { s.evr with buf := rest } } F.EVR_STATUS_BUF_LEVEL rest.length)
  | [], [] => none

/-- Step 1 of a slot write: SEQ as all ones (R444). -/
def openSlot (s : State) (slot : Nat) : State := { s with mem := memPut s.mem (logBase + 256 * slot) (leBytes 8 (2 ^ 64 - 1)) }

/-- Steps 2 and 3: the rest of the slot, then the record's SEQ (R444). -/
def fillSlot (s : State) (slot : Nat) (b : List Byte) : State :=
  let a := logBase + 256 * slot
  { s with mem := memPut (memBlock s.mem (a + 8) (b.drop 8)) a (b.take 8) }

/-- A record written into a slot under the next SEQ (R443, R444). -/
def putRecord (s : State) (r : EvrRec) (slot : Nat) : State :=
  let q := seqNext s
  let s := fillSlot (openSlot s slot) slot (slotBytes s r q)
  let s := { s with evr := { s.evr with index := alPut s.evr.index slot (q, r.sev) } }
  qhcPump (showUsed (set64 s R.EVR_SEQ_NEXT_LO R.EVR_SEQ_NEXT_HI (q + 1)))

/-- The slot chosen for a record, with the SEQ it displaces (R445). -/
def chooseSlot (s : State) (sev : Nat) : Option (Nat × Option Nat) :=
  match freeSlot s with
  | some i => some (i, none)
  | none => (victim s sev).map fun v => (v.1, some v.2)

/-- The write of the record that waits first (R444): `bad` is an uncorrectable MRAM error on it, after which the slot is
retired and the record waits for another (R446). -/
def writeRecord (s : State) (bad : Bool) : State :=
  match takeRecord s with
  | none => s
  | some (r, s1) =>
    match chooseSlot s1 r.sev with
    | none => dropRecord s1 r.sev
    | some (slot, old) =>
      let count := fun (s : State) => match old with | some q => countOverwrite s q | none => s
      if bad then showUsed (retireSlot (openSlot (count s) slot) slot) else putRecord (count s1) r slot

/-- The save of a supply warning starts once the unit in flight has completed (R465). -/
def startSave (s : State) : State :=
  if s.boot.saveDue && s.boot.unit = 0 then
    setF { s with boot := { s.boot with saveDue := false } } F.PWR_STATUS_SAVING 1
  else s

/-- Records that wait when writes freeze are written after the freeze; the one whose write runs is not (R440). -/
def deferWaiting (s : State) : State :=
  let late := fun (l : List EvrRec) => l.map fun r => { r with deferred := true }
  let buf := match s.evr.buf with
    | r :: rest => if s.boot.unit = 1 && s.evr.carried.isEmpty then r :: late rest else late s.evr.buf
    | [] => []
  { s with evr := { s.evr with buf := buf } }

/-- EVR_RECORD_WRITE (R444): while writes are frozen only the slot write that the warning found in flight completes
(R447), and a save then starts (R465). -/
def execEvrRecordWrite (bad : Bool) (s : State) : Host.Outcome State Fault Refusal :=
  .next (if flag s F.EVR_STATUS_RESTORING then s
    else if !flag s F.EVR_STATUS_FROZEN then writeRecord s bad
    else if s.boot.unit = 1 then startSave (writeRecord { s with boot := { s.boot with unit := 0 } } bad)
    else s)

/-! ### The rebuild (R448) -/

/-- The slots that hold a byte other than zero. -/
def touchedSlots (m : Mem) : List Nat :=
  sortDedup ((m.filter fun c => logBase ≤ c.1 && c.1 < logBase + 256 * nSlots).map fun c => (c.1 - logBase) / 256)

/-- Whether a slot's bytes hold a record: a SEQ that is neither zero nor all ones, a length, and a CRC that checks. -/
def slotGood (b : List Byte) : Bool :=
  let q := leNat (b.take 8)
  let len := leNat ((b.drop 16).take 2)
  let r := b.take len
  q ≠ 0 && q ≠ 2 ^ 64 - 1 && 32 ≤ len && len ≤ 256 && len % 8 = 0 &&
    crc32c (r.take 0x18 ++ leBytes 4 0 ++ r.drop 0x1C) = leNat ((b.drop 0x18).take 4)

/-- The index of the held slots by their headers. -/
def rebuildIndex (m : Mem) (retired : List Nat) : List (Nat × Nat × Nat) :=
  (touchedSlots m).filterMap fun i =>
    let b := memBytes m (logBase + 256 * i) 256
    if !retired.contains i && slotGood b then some (i, leNat (b.take 8), leNat ((b.drop 18).take 1) % 8) else none

/-- EVR_REBUILD_DONE (R448): `bad` lists the slots in which MRAM reported an uncorrectable error (R446). -/
def execEvrRebuildDone (bad : List (Fin 1048576)) (s : State) : Host.Outcome State Fault Refusal :=
  .next (if !(flag s F.EVR_STATUS_RESTORING && s.runtimeUp) then s
    else
      let bad := sortDedup ((bad.map (·.val)).filter fun i => !s.evr.retired.contains i)
      let ix := rebuildIndex s.mem (s.evr.retired ++ bad)
      let top := (ix.map fun e => e.2.1).foldl max 0
      let s := forAll { s with evr := { s.evr with index := ix } } bad retireSlot
      let s := set64 s R.EVR_SEQ_NEXT_LO R.EVR_SEQ_NEXT_HI (top + 1)
      showUsed (setF s F.EVR_STATUS_RESTORING 0))

/-! ### Reading (R451) -/

/-- A slot captured into EVR_RD_BUF. A slot number beyond the log holds nothing that the spec states (assumption 8). -/
def captureSlot (s : State) (slot : Nat) : State :=
  let a := logBase + 256 * slot
  forAll s (List.range 64) fun s w =>
    if slot < nSlots then setFi s F.EVR_RD_BUF_DATA w (memLe s.mem (a + 4 * w) 4)
    else
      let (v, s) := takeFree s
      setFi s F.EVR_RD_BUF_DATA w v

/-- A write to EVR_SEEK_HI (R451). -/
def writeSeek (s : State) (v : Word) : State :=
  checkedWrite s R.EVR_SEEK_HI v fun s =>
    setF { plainWrite s R.EVR_SEEK_HI v with evr := { s.evr with seeking := true } } F.EVR_SEEK_RES_DONE 0

/-- EVR_SEEK (R451). -/
def execEvrSeek (v : BitVec 32) (s : State) : Host.Outcome State Fault Refusal := .next (writeSeek s v)

/-- EVR_SEARCH_DONE (R451). -/
def execEvrSearchDone (s : State) : Host.Outcome State Fault Refusal :=
  .next (if !s.evr.seeking then s
    else
      let s := setF { s with evr := { s.evr with seeking := false } } F.EVR_SEEK_RES_DONE 1
      match seekSeq s (get64 s R.EVR_SEEK_LO R.EVR_SEEK_HI) with
      | some (slot, _) => captureSlot (setF (setF s F.EVR_SEEK_RES_FOUND 1) F.EVR_SEEK_RES_SLOT slot) slot
      | none => setF s F.EVR_SEEK_RES_FOUND 0)

/-- A write to EVR_RD_SEL (R451). -/
def writeEvrRdSel (s : State) (v : Word) : State :=
  checkedWrite s R.EVR_RD_SEL v fun s => captureSlot (plainWrite s R.EVR_RD_SEL v) v.toNat

/-- EVR_RD_SEL (R451). -/
def execEvrRdSel (v : BitVec 32) (s : State) : Host.Outcome State Fault Refusal := .next (writeEvrRdSel s v)

end Sys2Proof.Machine
end

