-- ==== Sys2Proof/Machine/Fio.lean ====
section
/-!
DEFINITION. The commands of the field stages (16).
-/
namespace Sys2Proof.Machine

/-! ### The capture (R398 to R401, R407 to R409) -/

/-- The readback checks of a channel: captures in a row that disagree with an unchanged reference level. -/
def rbCheck (s : State) (rb ref : Nat) (ch : Nat) : Nat :=
  let r := ref.testBit ch
  let open_ := !r && (getF s F.FIO_OLD_EN_VALUE).testBit ch && rb.testBit ch
  let dead := r && driveOf s = drLIVE && !rb.testBit ch
  if r = s.fio.prevRef.testBit ch && (open_ || dead) then min 10 (((alGet? s.fio.disagree ch).getD 0) + 1) else 0

/-- A supply reading shown, with the hold of a reversed group (R398, R399). -/
def supplyShow (s : State) (g : Nat) (mv : Int) : State :=
  let ok : Bool := decide (19200 ≤ mv) && decide (mv ≤ 30000)
  let rev : Bool := decide (mv < -1000)
  let okF := if g = 0 then F.FIO_STATUS_FSUP0_OK else F.FIO_STATUS_FSUP1_OK
  let revF := if g = 0 then F.FIO_STATUS_REV0 else F.FIO_STATUS_REV1
  let s := if flag s okF && !ok then setF s F.FIO_EVENTS_FSUP 1 else s
  let s := setF (setF (setFi s F.FIO_VFSUP_MV g (uNat 32 mv)) okF (bNat ok)) revF (bNat rev)
  let held := s.fio.held.filter (· != g)
  { s with fio := { s.fio with held := if rev || (s.fio.held.contains g && !ok) then held ++ [g] else held } }

/-- The capture of a tick; a scan that starts at the tick, and the snapshot of its instant, take it (R20, R27 item 2, R247,
R401). -/
def fieldCapture (s : State) (rb : Nat) (v0 v1 : Int) : State :=
  let s := supplyShow (supplyShow s 0 v0) 1 v1
  let rb := ((List.range 16).map fun c => if s.fio.held.contains (c / 8) then 0 else bNat (rb.testBit c) * 2 ^ c).sum
  let s := setF (setF s F.FIO_DI_VALUE s.fio.filt) F.FIO_RB_VALUE rb
  let s := forAll s (List.range 32) fun s i => setFi s F.FIO_CNT_VALUE i ((alGet? s.fio.cnt i).getD 0)
  let ref := getF s F.FIO_DO_VALUE
  let dis := (List.range 16).map fun c => (c, rbCheck s rb ref c)
  let s := { s with fio := { s.fio with disagree := dis.filter fun e => e.2 != 0, prevRef := ref, capTick := tickNow s + 1, seen := true } }
  let s := showFault s
  if roleOf s = roSTANDBY then s
  else
    let s := openTags (sampleField s)
    { s with tasks := s.tasks.map fun k =>
        { k with scan := k.scan.map fun c => if c.pstart = nowNs s && c.late = 0 then { c with frozenIn := s.inImg } else c } }

/-- FIELD_CAPTURE (R401): the readbacks and both supply readings in mV; once for each tick. -/
def execFieldCapture (rb : BitVec 16) (v0 v1 : Int) (s : State) : Host.Outcome State Fault Refusal :=
  .next (let t := reachTick s
    if t.boot.stage = 0 || t.fio.capTick = tickNow t + 1 then s else fieldCapture t rb.toNat v0 v1)

/-- DI_FILTER_ACCEPT (R400, R402). -/
def execDiFilterAccept (i : Fin 32) (level : Bool) (s : State) : Host.Outcome State Fault Refusal :=
  .next (if s.fio.filt.testBit i.val = level then s
    else
      let n := ((alGet? s.fio.cnt i.val).getD 0 + 1) % 2 ^ 32
      { s with fio := { s.fio with filt := putBits i.val i.val (bNat level) s.fio.filt,
                                   cnt := if level then alPut s.fio.cnt i.val n else s.fio.cnt } })

/-! ### Protection (R405) -/

/-- The time of a protective turn-off. -/
def retryNs : Nat := 100000000

/-- DO_CURRENT_LIMIT_OFF (R405). -/
def execDoCurrentLimitOff (ch : Fin 16) (s : State) : Host.Outcome State Fault Refusal :=
  .next (if switchOn s ch.val then
    showFault { s with fio := { s.fio with chOff := alPut s.fio.chOff ch.val (tb0Ns s + retryNs) } } else s)

/-- DO_RETRY (R405). -/
def execDoRetry (ch : Fin 16) (s : State) : Host.Outcome State Fault Refusal :=
  .next (match alGet? s.fio.chOff ch.val with
    | some t => if t ≤ tb0Ns s then showFault { s with fio := { s.fio with chOff := alDel s.fio.chOff ch.val } } else s
    | none => s)

/-- GROUP_OVERCURRENT_OFF (R405): some channel of the group carries current. -/
def execGroupOvercurrentOff (g : Fin 2) (s : State) : Host.Outcome State Fault Refusal :=
  .next (if (List.range 8).any fun c => switchOn s (8 * g.val + c) then
    showFault { s with fio := { s.fio with grpOff := alPut s.fio.grpOff g.val (tb0Ns s + retryNs) } } else s)

/-- GROUP_RESTORE (R405). -/
def execGroupRestore (g : Fin 2) (s : State) : Host.Outcome State Fault Refusal :=
  .next (match alGet? s.fio.grpOff g.val with
    | some t => if t ≤ tb0Ns s then showFault { s with fio := { s.fio with grpOff := alDel s.fio.grpOff g.val } } else s
    | none => s)

/-! ### Registers (R410, R415) -/

/-- A write to FIO_SAFE, copied to the token keeper (R410). -/
def safeWrite (s : State) (v : Word) : State :=
  checkedWrite s R.FIO_SAFE v fun s =>
    driveOutputs { plainWrite s R.FIO_SAFE v with fio := { s.fio with safe := v.toNat % 65536 } }

/-- SAFE_WRITE (R410). -/
def execSafeWrite (v : BitVec 32) (s : State) : Host.Outcome State Fault Refusal := .next (safeWrite s v)

/-- A write to a FIO register: FIO_FILT takes codes 0 to 5 only. -/
def fioWrite (s : State) (a : Nat) (v : Word) : State :=
  let o := offOf a
  if a = R.FIO_SAFE then safeWrite s v
  else if 0x40 ≤ o && o < 0x50 && !((List.range 8).all fun j => bitsOf (4 * j + 3) (4 * j) v.toNat ≤ 5) then cfgErr s
  else plainWrite s a v

end Sys2Proof.Machine
end

