-- ==== Sys2Proof/Machine/RedOps.lean ====
section
/-!
DEFINITION. Pair operation: roles, the health score, the drive of the outputs, giving up and taking the token, and the
loss of the link (11 R270 to R300).
-/
namespace Sys2Proof.Machine

/-! ### Pins and frames -/

/-- The Furov link is up. -/
def linkUp (s : State) : Bool := flag s F.RED_STATUS_LINK_UP
/-- The level of TOKEN_HOLD_IN. -/
def tokenIn (s : State) : Bool := flag s F.RED_STATUS_TOKEN_IN
/-- The role that the peer last reported. -/
def peerRole (s : State) : Nat := getF s F.RED_STATUS_PEER_ROLE
/-- Position A, B or single (R270). -/
def position (s : State) : Nat := getF s F.RED_STATUS_POSITION

/-- The TB1 time in ns of a TB0 stamp. -/
def onTb1 (s : State) (t : Int) : Nat := (nowNs s - (tb0Ns s - t)).toNat

/-- A TOKEN frame: whether the token is held, when it was released last, and the tick of the latest emission (R284). -/
def sendToken (s : State) : State :=
  furovSend s (.token (holds s) ((s.red.lastSwitch.map (onTb1 s)).getD 0) (tickNow s))

/-- The peer's line has been low for more than 2 µs, or is not known to have been high (R277, R281). -/
def lowLong (s : State) : Bool := s.red.fall.all fun (t : Int) => decide (t + 2000 < (tb0Ns s : Int))

/-! ### Health (R292, R293) -/

/-- The module is FATAL (R293). -/
def isFatal (s : State) : Bool :=
  getF s F.SCN_STATUS_CORE_FAULTY = 15 || getF s F.NSA_CLUSTER_FAULTY = 255 || !s.red.keeperTest || s.red.diagFailed || roleOf s = roDEGRADED

/-- TOKEN_HOLD_IN is low while the peer reports that it holds the token (R281). -/
def tokenWire (s : State) : Bool :=
  isPair s && linkUp s && s.red.peerHolds && !tokenIn s && lowLong s

/-- The penalty of each condition of R292, 0 while it is not in force. -/
def penalties (s : State) : List (Nat × Nat) :=
  let up := fun (p : Nat) => s.boot.ports.contains p
  let gate := fun (c : Bool) (n : Nat) => if c then n else 0
  [(0, 48 * popCount 4 (getF s F.SCN_STATUS_CORE_FAULTY)), (1, 16 * popCount 8 (getF s F.NSA_CLUSTER_FAULTY)),
   (2, gate s.memFault 96), (3, gate (decide (8 < s.red.rerolls.length)) 24), (4, gate (decide (1000 < s.red.corrected.length)) 8),
   (5, gate (linkUp s && getF s F.RED_STATUS_LANES = 1) 8), (6, gate (!up 0 && !up 1) 16),
   (7, 8 * [2, 3, 4, 5].countP fun p => !up p), (8, gate (!tb1Locked s) 16),
   (9, gate (!(flag s F.FIO_STATUS_FSUP0_OK && flag s F.FIO_STATUS_FSUP1_OK)) 64),
   (10, gate (flag s F.CLK_GATE_PERI_T1L && (List.range 8).any fun i => !up (6 + i)) 4),
   (11, gate (decide (850 < sInt 16 (getF s F.PWR_TEMP_DECI_C))) 32), (12, gate (flag s F.PWR_STATUS_WARN) 255),
   (13, gate (tokenWire s) 32)]

/-- The sum of a list of penalties taken from 255. -/
def scoreBy (s : State) (l : List (Nat × Nat)) : Nat := if isFatal s then 0 else 255 - (l.map (·.2)).sum

/-- SCORE, and SCORE reckoned without penalty 12 (R292, R295). -/
def ownScore (s : State) : Nat := scoreBy s (penalties s)
def scoreNoWarn (s : State) : Nat := scoreBy s ((penalties s).filter fun e => e.1 != 12)

/-- The outcome of a diagnosis calls for a take by this module: it passed while the active module failed, or, with the
link down, it passed (R294, R296). -/
def diagTake (s : State) : Bool := s.red.takeCalled

/-- The module is eligible (R271); during a diagnosis only for a take that its outcome calls for (R294). -/
def isEligible (s : State) : Bool :=
  roleOf s = roSTANDBY && !isFatal s && decide (getF s F.RED_CFG_ELIG_MIN ≤ ownScore s) && (!s.red.diagnosing || diagTake s)

/-- The peer is eligible, by its latest HEALTH frame; during a diagnosis only for a take that its outcome calls for
(R294). -/
def peerEligible (s : State) : Bool :=
  linkUp s && flag s F.RED_HEALTH_PEER_ELIGIBLE &&
    (!s.red.diagnosing || (getF s F.RED_MISMATCH_OWN_DIAG = 3 && getF s F.RED_MISMATCH_PEER_DIAG = 2))

/-- RED_HEALTH and RED_PENALTY shown. -/
def showHealth (s : State) : State :=
  let m := ((penalties s).map fun e => if e.2 = 0 then 0 else 2 ^ e.1).sum
  let v := (ownScore s, isEligible s, isFatal s)
  let s := setF (setF s F.RED_PENALTY_COND m) F.RED_HEALTH_SCORE v.1
  setF (setF s F.RED_HEALTH_ELIGIBLE (bNat v.2.1)) F.RED_HEALTH_FATAL (bNat v.2.2)

/-! ### Roles (R271) -/

/-- A new role; digest entries are compared between an active module and its standby only (R290). -/
def setRole (s : State) (r : Nat) : State :=
  let keep := decide (r = roSTANDBY) || decide (r = roACTIVE)
  let s := if keep then s else { s with red := { s.red with own := [], peer := [] } }
  let s := if r = roSTANDBY then s
    else { s with red := { s.red with jobFacts := [], jobEnds := [], switchAt := none, tickHeld := none, takeCalled := false } }
  let s := if r = roSYNCING then { s with red := { s.red with gotParts := [] } } else s
  showHealth (setF s F.RED_STATUS_ROLE r)

/-- The role of the holder of the token (R271). -/
def holderRole (s : State) : Nat :=
  if !isPair s then roSINGLE else if linkUp s && peerRole s = roSTANDBY then roACTIVE else roSOLO

/-- The holder's role after a change of the peer's; a standby that fails leaves it SOLO (R297). -/
def holderAgain (s : State) : State :=
  let r := holderRole s
  if !holds s || r = roleOf s || !isPair s then s
  else
    let was := roleOf s
    let s := setRole s r
    if was = roACTIVE && r = roSOLO then ev s blkRED 0x86 5 [] else s

/-- The module leaves sync (R287, R290). -/
def leaveSync (s : State) : State :=
  let s := setF (setF (setRole s roUNSYNCED) F.RED_STATUS_IN_SYNC 0) F.RED_STATUS_MTR_JOINED 0
  evBit (reSource { s with red := { s.red with inputDue := [], tickDue := false } }) F.RED_EVENTS_SYNC_LOST 5 []

/-! ### Drive and token (R273 to R275) -/

/-- The way the outputs are driven. -/
def setDrive (s : State) (d : Nat) : State :=
  let s := setF (setF s F.FIO_STATUS_DRIVE d) F.RED_STATUS_LATCHED (bNat (d = drLATCHED || d = drSAFE))
  driveOutputs (setF s F.RED_STATUS_SAFE (bNat (d = drSAFE)))

/-- The token is given up: TOKEN_HOLD_OUT falls, the latches take the levels last emitted, and the TOKEN frame carries this
release (R274, R284). -/
def dropToken (s : State) : State :=
  if !holds s then s
  else
    let s := setF s F.RED_STATUS_TOKEN_OUT 0
    let s := { s with fio := { s.fio with latch := s.fio.emitted },
                      red := { s.red with latched := true, holdOver := false, lastSwitch := some (tb0Ns s) } }
    sendToken (setDrive s drLATCHED)

/-- The runtime or the keeper gives up the token; a warm restart with a cause follows (R276, R295). -/
def giveUp (s : State) (cause : Nat) : State :=
  let s := dropToken s
  setRole { s with red := { s.red with restartDue := some cause, switchAsked := false } } roDEGRADED

/-- The latches release to off (R275). -/
def releaseLatches (s : State) : State :=
  if s.red.latched then
    let s := { s with red := { s.red with latched := false, holdOver := false } }
    if driveOf s = drLATCHED || driveOf s = drSAFE then setDrive s drOFF else s
  else s

/-- The keeper lets the module raise TOKEN_HOLD_OUT, TOKEN_HOLD_IN has been low for 2 µs, and the peer does not report
that it holds the token (R276, R277). -/
def lineFree (s : State) : Bool :=
  s.red.keeperOk && (!isPair s || (!tokenIn s && lowLong s &&
    !(linkUp s && s.red.peerHolds)))

/-- The service addresses announced on the ports that carry them: a gratuitous ARP for IPv4, and an unsolicited neighbour
advertisement with the override flag for IPv6 (R319, R332). -/
def announce (s : State) : State :=
  forAll s (List.range 6) fun s p =>
    let v := vlanOf s p
    let s := if (NetAddr.v4 s.net.svcV4).given then send s (.arp p v.1 v.2 s.net.svcV4) else s
    if (NetAddr.v6 s.net.svcV6).given then send s (.neighbour p v.1 v.2 s.net.svcV6 true) else s

/-- The token is taken: the line rises, the outputs are live, and the service addresses are announced (R277, R296,
R319). -/
def raiseToken (s : State) : State :=
  let s := setF s F.RED_STATUS_TOKEN_OUT 1
  let s := setRole s (holderRole s)
  let again := [nowNs s + 100000000, nowNs s + 1000000000]
  announce (sendToken { s with red := { s.red with announceAt := again } })

/-! ### Stalemate (R298) -/

/-- No module holds the token and none is eligible; a module in INIT is still to arbitrate. -/
def inStalemate (s : State) : Bool :=
  if isPair s then
    roleOf s != roINIT && !holds s && !tokenIn s && !isEligible s && !(linkUp s && (s.red.peerHolds || peerEligible s))
  else roleOf s != roINIT && isFatal s

/-- RED_STATUS.STALEMATE with the event of its entry. -/
def showStalemate (s : State) : State :=
  let now := inStalemate s
  let was := flag s F.RED_STATUS_STALEMATE
  let s := setF s F.RED_STATUS_STALEMATE (bNat now)
  if now && !was then evBit s F.RED_EVENTS_STALEMATE 7 [] else s

/-! ### The link (R285, R286) -/

/-- The link falls (R285, R297): TB6 is invalid, and TB1 that ran on it is in holdover (R350, R358); a standby under
diagnosis, or called to take by its outcome, keeps its role for that take (R294). -/
def linkFall (s : State) : State :=
  if !linkUp s then s
  else
    let s := setF (setF (setF s F.RED_STATUS_LINK_UP 0) F.RED_STATUS_LANES 0) F.RED_LINK_TRAIN 0
    let s := setF (setF s F.RED_LINK_LOCK 0) F.RED_HEALTH_PEER_ELIGIBLE 0
    let s := if flag s F.TIM_STATUS_PEER_VALID then setF (setF s F.TIM_STATUS_PEER_VALID 0) F.TIM_EVENTS_PEER_LOST 1 else s
    let s := { s with red := { s.red with unacked := [], linkDownAt := some (nowNs s),
                                          peerHolds := false, peerLocked := false, peerSame := false } }
    let s := reSource (evBit (bump s F.RED_CNT_LINK_DOWN_COUNT) F.RED_EVENTS_LINK_DOWN 5 [])
    if roleOf s = roSTANDBY && (s.red.diagnosing || s.red.takeCalled) then
      evBit (setF s F.RED_STATUS_IN_SYNC 0) F.RED_EVENTS_SYNC_LOST 5 []
    else if roleOf s = roSTANDBY || roleOf s = roSYNCING then leaveSync s
    else if roleOf s = roACTIVE then setRole s roSOLO
    else showHealth s

end Sys2Proof.Machine
end

