-- ==== Sys2Proof/Machine/Chk.lean ====
section
/-!
DEFINITION. Check-value units and inter-domain queues (12 R321 to R326 R336 R337).
-/
namespace Sys2Proof.Machine

/-! ### Units (R321, R322) -/

/-- The configuration of a unit as check-code parameters (R322). -/
def chkParams (s : State) (u : Nat) : CrcParams :=
  let w := getFi s F.CHK_CFG_WIDTH u
  let two := fun (lo hi : Fld) => (getFi s lo u + getFi s hi u * 2 ^ 32) % 2 ^ w
  { width := w, poly := two F.CHK_POLY_LO_VALUE F.CHK_POLY_HI_VALUE, init := two F.CHK_INIT_LO_VALUE F.CHK_INIT_HI_VALUE,
    xorOut := two F.CHK_XOR_LO_VALUE F.CHK_XOR_HI_VALUE, refIn := getFi s F.CHK_CFG_REFIN u = 1,
    refOut := getFi s F.CHK_CFG_REFOUT u = 1 }

/-- The width of a unit is one it can run with. -/
def chkWidthOk (s : State) (u : Nat) : Bool :=
  let w := getFi s F.CHK_CFG_WIDTH u
  3 ≤ w && w ≤ 64

/-- EXP of a unit. -/
def chkExp (s : State) (u : Nat) : Nat := getFi s F.CHK_EXP_LO_VALUE u + getFi s F.CHK_EXP_HI_VALUE u * 2 ^ 32

/-- The alive-counter check of a job (R323): the state, and PIP_REPEAT and PIP_SKIP. -/
def pipCheck (s : State) (u : Nat) (data : List Byte) : State × Bool × Bool :=
  let off := getFi s F.CHK_CFG_PIP_OFF u
  let pw := getFi s F.CHK_CFG_PW u + 1
  if getFi s F.CHK_CFG_PIP_EN u = 0 then (s, false, false)
  else if data.length < off + 2 then (setFi s F.CHK_STAT_PIP_OOR u 1, false, false)
  else
    let p := leNat ((data.drop off).take 2) % 2 ^ pw
    let d := (p + 2 ^ pw - getFi s F.CHK_STAT_PIP_LAST u % 2 ^ pw) % 2 ^ pw
    let valid := getFi s F.CHK_STAT_PIP_VALID u = 1
    let s := setFi (setFi s F.CHK_STAT_PIP_LAST u p) F.CHK_STAT_PIP_VALID u 1
    if !valid || d = 1 then (if valid then setFi s F.CHK_STAT_SKIP u 0 else s, false, false)
    else if d = 0 then (setFi (setFi s F.CHK_STAT_SKIP u 0) F.CHK_STAT_PIP_REPEAT u 1, true, false)
    else (setFi (setFi s F.CHK_STAT_SKIP u (min (d - 1) 255)) F.CHK_STAT_PIP_SKIP u 1, false, true)

/-- The mirrors of CHK_STAT in CHK_STATUS (R336). -/
def showChk (s : State) : State :=
  let bits := fun (f : Fld) => ((List.range 8).map fun u => getFi s f u * 2 ^ u).sum
  setF (setF s F.CHK_STATUS_MISMATCH (bits F.CHK_STAT_MISMATCH)) F.CHK_STATUS_BUSY (bits F.CHK_STAT_BUSY)

/-- A job on data with an expected value: the state, the check value, and MISMATCH, PIP_REPEAT and PIP_SKIP as bits 0,
1 and 2 (R322 to R324). -/
def chkJob (s : State) (u : Nat) (data : List Byte) (expect : Nat) : State × Nat × Nat :=
  let p := chkParams s u
  let res := crcOf p data
  let mis := getFi s F.CHK_CFG_CMP_EN u = 1 && res != expect % 2 ^ p.width
  let (s, rep, skip) := pipCheck s u data
  let s := if mis then setFi s F.CHK_STAT_MISMATCH u 1 else s
  let s := setFi (setFi (setFi s F.CHK_RES_LO_RES u res) F.CHK_RES_HI_RES u (res / 2 ^ 32)) F.CHK_STAT_DONE u 1
  (showChk s, res, bNat mis + 2 * bNat rep + 4 * bNat skip)

/-- RUN: a program's job, at acceptance (R321, R324). -/
def chkRun (s : State) (task ticket : Nat) (body : List Byte) : State :=
  let u := bodyW body 0 % 8
  if !chkWidthOk s u || getFi s F.CHK_CFG_PROG u = 0 || (isPair s && 6 ≤ u) then reply s task ticket 4 0 1
  else if 8 ≤ bodyW body 0 || bodyW body 1 ≠ 0 then reply s task ticket 4 0 2
  else
    let (s, res, code) := chkJob s u (body.drop 16) (bodyW body 2 + bodyW body 3 * 2 ^ 32)
    addPost s task (recordOf ticket 4 0 1 code res)

/-- CHK_RUN (R321). -/
def execChkRun (task : Fin 16) (ticket : BitVec 16) (body : List Byte) (s : State) :
    Host.Outcome State Fault Refusal := callCmd s fun s => chkRun s task.val ticket.toNat body

/-! ### Runtime jobs (R324, R336) -/

/-- A unit runs a job. -/
def chkBusy (s : State) (u : Nat) : Bool := getFi s F.CHK_STAT_BUSY u = 1

/-- A write to CHK_CMD of a unit (R323, R324, R336). -/
def chkCommand (s : State) (u : Nat) (start resetPip : Bool) : State :=
  if chkBusy s u then cfgErr s
  else if start && (getFi s F.CHK_CFG_PROG u = 1 || !chkWidthOk s u || getFi s F.CHK_LEN_LEN u = 0) then cfgErr s
  else
    let s := if resetPip then setFi s F.CHK_STAT_PIP_VALID u 0 else s
    if start then showChk (setFi s F.CHK_STAT_BUSY u 1) else s

/-- A write to a register of a unit (R323, R336). -/
def chkWrite (s : State) (a : Nat) (v : Word) : State :=
  let u := (offOf a - 0x100) / 0x40
  if chkBusy s u then cfgErr s
  else checkedWrite s a v fun s =>
    let s' := plainWrite s a v
    if (offOf a - 0x100) % 0x40 = 0 then setFi s' F.CHK_STAT_PIP_VALID u 0
    else if (offOf a - 0x100) % 0x40 = 0x30 then chkCommand s u (v.getLsbD 0) (v.getLsbD 1)
    else showChk s'

/-- CHK_START (R324). -/
def execChkStart (u : Fin 8) (s : State) : Host.Outcome State Fault Refusal := .next (chkCommand s u.val true false)

/-- RESET_PIP (R323). -/
def execResetPip (u : Fin 8) (s : State) : Host.Outcome State Fault Refusal := .next (chkCommand s u.val false true)

/-- The memory that DMA masters in the check units reach (R485, R488): MRAM, the solver window or DRAM, not control space,
and not the boot ROM, which only system cores read. -/
def dmaArea : Region → Nat
  | .mram | .mramReserved => 1
  | .solverNsa | .solverUser => 2
  | .dram => 3
  | .rom | .ctl | .none => 0

/-- A DMA read of `n` bytes stays within one memory (R485, R486). -/
def dmaOk (a n : Nat) : Bool := dmaArea (regionOf a) != 0 && dmaArea (regionOf a) = dmaArea (regionOf (a + n - 1))

/-- The end of a DMA job; `err` is an uncorrectable read (R324). -/
def chkJobDone (s : State) (u : Nat) (err : Bool) : State :=
  let a := getFi s F.CHK_SRC_LO_ADDR u + (getFi s F.CHK_SRC_HI_ADDR u % 256) * 2 ^ 32
  let n := getFi s F.CHK_LEN_LEN u
  let s := setFi s F.CHK_STAT_BUSY u 0
  if err || !dmaOk a n then
    let s := if dmaOk a n then s else busErr s a
    showChk (setFi (setFi s F.CHK_STAT_DMA_ERR u 1) F.CHK_STAT_DONE u 1)
  else
    let f := s.free
    let s := if freeBytes a then (takeFree s).2 else s
    let (s, _, code) := chkJob s u (physBytes s f a n) (chkExp s u)
    if getFi s F.CHK_CFG_IRQ_EN u = 1 && code ≠ 0 then raiseIrq s (48 + u) else s

/-- CHK_JOB_DONE (R322, R324): a job makes no progress while the gate of its engine is off (R462,
assumption 76). -/
def execChkJobDone (u : Fin 8) (err : Bool) (s : State) : Host.Outcome State Fault Refusal :=
  .next (if chkBusy s u.val && flag s F.CLK_GATE_ENG_CHK then chkJobDone s u.val err else s)

end Sys2Proof.Machine
end

