-- ==== Sys2Proof/WellFormed.lean ====
section
/-!
DEFINITION. Which commands are well formed: the operands that a row's type alone does not bound.
-/
namespace Sys2Proof

/-- The widths of an access in bytes (07 R171). -/
def accessSizeOk (n : Fin 9) : Bool := n = 1 || n = 2 || n = 4 || n = 8

/-- The data lengths that a DLC of an FD frame encodes (15 R384). -/
def fdLens : List Nat := [0, 1, 2, 3, 4, 5, 6, 7, 8, 12, 16, 20, 24, 32, 48, 64]

/-- The data length that a DLC of a classical or an FD frame stands for (15 R384). -/
def CanFrame.len (f : CanFrame) : Nat :=
  if f.fdf then fdLens.getD f.dlc.toNat 0 else if f.rtr then 0 else min 8 f.dlc.toNat

/-- A CAN frame is of one kind, carries the data that its kind and its DLC allow, and has an identifier of 11 bits unless it is
an extended one (15 R384). -/
def CanFrame.wf (f : CanFrame) : Bool :=
  !(f.xl && (f.fdf || f.ide)) && !(f.rtr && (f.xl || f.fdf)) && (f.ide || f.id.toNat < 2048) &&
    (if f.xl then 1 ≤ f.data.length && f.data.length ≤ 2048 else f.data.length = f.len)

/-- The fields of a PTP message fit their octets (13 R346). -/
def PtpHdr.wf (m : PtpHdr) : Bool := m.domain < 256 && m.transport < 3 && m.seq < 2 ^ 16 && m.src < 2 ^ 80

/-- The fields of an Announce message fit their octets (13 R346). -/
def AnnounceBody.wf (a : AnnounceBody) : Bool :=
  a.prio1 < 256 && a.cls < 256 && a.acc < 256 && a.var < 65536 && a.prio2 < 256 && a.gm < 2 ^ 64 && a.steps < 65536

/-- The body of a call lies inside the submit area of a mailbox (09 R229, R230). -/
def callBodyOk (b : List (BitVec 8)) : Bool := b.length ≤ 28672

/-- A message of the host channel is at most 36 MiB long (12 R329). -/
def messageOk (b : List (BitVec 8)) : Bool := b.length ≤ 36 * 2 ^ 20

/-- A datagram carries at most 1 408 payload bytes on Ethernet (12 R329). -/
def ethDatagramOk (b : List (BitVec 8)) : Bool := b.length ≤ 24 + 1408

/-- A command whose operands lie in the ranges the manual gives them. -/
def Instr.wf : Instr → Bool
  | .registerWrite _ _ n _ => accessSizeOk n
  | .loRegisterRead _ n _ => accessSizeOk n
  | .afeConversion v => v.length = 12
  | .afeSample _ _ v c => v.length = 3 && c.length = 3
  | .svFrameReceive _ _ n _ v q _ => n < 65536 && v.length = 8 && q.length = 8
  | .nsaInstall _ _ b => callBodyOk b
  | .nsaStudy _ _ b => callBodyOk b
  | .nsaWriteUser _ _ b => callBodyOk b
  | .nsaReadUser _ _ b => callBodyOk b
  | .nsaMask _ _ b => callBodyOk b
  | .lpeLoop _ _ b => callBodyOk b
  | .lpeGroup _ _ b => callBodyOk b
  | .lpeMode _ _ b => callBodyOk b
  | .mtrConfig _ _ b => callBodyOk b
  | .chkRun _ _ b => callBodyOk b
  | .sesSend _ _ b => callBodyOk b
  | .sesRead _ _ b => callBodyOk b
  | .progExchange _ b _ => messageOk b
  | .statusRead _ b => messageOk b
  | .imageWrite _ b => messageOk b
  | .imageCheck _ b _ => messageOk b
  | .imageSelect _ b _ => messageOk b
  | .forecast _ b => messageOk b
  | .mask _ b => messageOk b
  | .meterConfig _ b => messageOk b
  | .meterClear _ b => messageOk b
  | .meterRead _ b => messageOk b
  | .meterAck _ b => messageOk b
  | .safeValues _ b => messageOk b
  | .setting _ b => messageOk b
  | .attest _ b => messageOk b
  | .evrAck _ b => messageOk b
  | .stateAck _ b => messageOk b
  | .keyUpdate _ b _ => messageOk b
  | .protect _ b _ => messageOk b
  | .ownerAdd _ b _ => messageOk b
  | .ownerRevoke _ b _ => messageOk b
  | .newIdentity _ b _ => messageOk b
  | .decommission _ b _ => messageOk b
  | .svnCommit _ b _ => messageOk b
  | .provision _ b _ => messageOk b
  | .qhcFragmentReceive _ d _ => ethDatagramOk d
  | .ptpSyncReceive m _ _ _ => m.wf
  | .ptpFollowUpReceive m _ => m.wf
  | .ptpAnnounceReceive m a => m.wf && a.wf
  | .ptpDelayRespReceive m _ => m.wf
  | .ptpPdelayReqReceive m _ => m.wf
  | .ptpPdelayRespReceive m _ _ _ => m.wf
  | .canFrameReceive _ f _ => f.wf
  | .wakeFrame _ (some f) _ => f.wf
  | _ => true

end Sys2Proof
end

