-- ==== Sys2Proof/Machine/Can.lean ====
section
/-!
DEFINITION. The CAN channels (15 R378 to R391 R396).
-/
namespace Sys2Proof.Machine

/-! ### States (R389, R390, R396) -/

def csOFF : Nat := 0
def csINTEGRATING : Nat := 1
def csACTIVE : Nat := 2
def csPASSIVE : Nat := 3
def csBUSOFF : Nat := 4
def csRECOVERING : Nat := 5
def csSLEEPING : Nat := 6
def csWOKEN : Nat := 7
def csMONITOR : Nat := 8

/-- CAN_STATUS.STATE and CAN_MODE.MODE of a channel. -/
def canState (s : State) (n : Nat) : Nat := getFi s F.CAN_STATUS_STATE n
def canMode (s : State) (n : Nat) : Nat := getFi s F.CAN_MODE_MODE n
def setCan (s : State) (n st : Nat) : State := setFi s F.CAN_STATUS_STATE n st

/-- A channel beside its registers. -/
def canOf (s : State) (n : Fin 4) : CanCh := s.ser.can[n.val]'n.isLt
def modCan (s : State) (n : Fin 4) (f : CanCh → CanCh) : State :=
  { s with ser := { s.ser with can := s.ser.can.set n.val (f (canOf s n)) n.isLt } }

/-- The channel takes part in the traffic as a receiver. -/
def canListens (s : State) (n : Nat) : Bool :=
  let st := canState s n
  !serialGated s n && (st = csACTIVE || st = csPASSIVE || st = csWOKEN || st = csMONITOR)

/-- A frame can be in progress at the channel (R390). -/
def canOnBus (s : State) (n : Nat) : Bool := canListens s n || (!serialGated s n && canState s n = csINTEGRATING)

/-- The channel transmits (R388, R390). -/
def canSends (s : State) (n : Nat) : Bool :=
  !serialGated s n && serialDrives s && (canState s n = csACTIVE || canState s n = csPASSIVE)

/-- Error-active or error-passive by the counters (R389). -/
def canByCounters (s : State) (n : Nat) : State :=
  let passive : Bool := 128 ≤ getFi s F.CAN_STATUS_TEC n || 128 ≤ getFi s F.CAN_STATUS_REC n
  if canState s n = csACTIVE && passive then setFi (setCan s n csPASSIVE) F.CAN_EVENTS_PASSIVE n 1
  else if canState s n = csPASSIVE && !passive then setCan s n csACTIVE
  else s

/-- The counters of a channel at 0. -/
def canZero (s : State) (n : Nat) : State := setFi (setFi s F.CAN_STATUS_TEC n 0) F.CAN_STATUS_REC n 0

/-! ### Transmit slots (R383, R384) -/

/-- A remote frame, which only a classical frame can be. -/
def canRemote (w0 w1 : Nat) : Bool := w1.testBit 31 && !w0.testBit 31 && !w0.testBit 30

/-- A slot of the channel lies in DRAM, so that it can be read (R381, R486). -/
def slotReadable (a n : Nat) : Bool := regionOf a = .dram && regionOf (a + n - 1) = .dram

/-- The bytes of a queued frame with its header. -/
def canSlotLen (s : State) (a : Nat) : Nat := 32 + bitsOf 27 16 (memLe s.mem (a + 4) 4)

/-- A queued frame that the channel can send. -/
def canSendable (s : State) (n a : Nat) : Bool :=
  let w0 := memLe s.mem a 4
  let len := bitsOf 27 16 (memLe s.mem (a + 4) 4)
  if w0.testBit 31 then getFi s F.CAN_CFG_XL_EN n = 1 && 1 ≤ len && len ≤ 2048
  else if w0.testBit 30 then getFi s F.CAN_CFG_FD_EN n = 1 && fdLens.contains len
  else len ≤ 8

/-- The smallest DLC that encodes a length; an XL frame's is its length less 1 (R384). -/
def dlcFor (xl : Bool) (len : Nat) : Nat := if xl then len - 1 else (fdLens.findIdx? (len ≤ ·)).getD 15

/-- The frame of a transmit slot as it goes out: a remote frame carries no data (R384). -/
def canFrameOut (s : State) (n a : Nat) : OutMsg :=
  let w0 := memLe s.mem a 4
  let w1 := memLe s.mem (a + 4) 4
  let len := bitsOf 27 16 w1
  .can n w0 w1 (memLe s.mem (a + 8) 4) (dlcFor (w0.testBit 31) len) (if canRemote w0 w1 then [] else memBytes s.mem (a + 32) len)

/-- Transmit STATUS values. -/
def txSENT : Nat := 0
def txABORTED : Nat := 1
def txFLUSHED : Nat := 2

/-- The frame at TX_DONE completes with a status. -/
def canComplete (s : State) (n : Fin 4) (status : Nat) (ts : Option (BitVec 64)) : State :=
  let i := getFi s F.CAN_TX_DONE_INDEX n.val
  let a := txSlot s n.val i
  let s := dramPut s (a + 12) (leBytes 4 (status * 2 ^ 28 + (canOf s n).seq % 65536))
  let s := match ts with
    | some t => bumpBy (modCan (dramPut s (a + 16) (leBytes 8 t.toNat)) n fun c => { c with seq := c.seq + 1 })
        F.CAN_CNT_TX_OK_COUNT n.val 1
    | none => s
  setFi s F.CAN_TX_DONE_INDEX n.val (i + 1)

/-- Every frame from TX_DONE on, at most `k`, completes with a status. -/
def canCompleteAll (s : State) (n : Fin 4) (status : Nat) : Nat → State
  | 0 => s
  | k + 1 => canCompleteAll (canComplete s n status none) n status k

/-- The slot of the frame at the head. -/
def canHead (s : State) (n : Nat) : Nat := txSlot s n (getFi s F.CAN_TX_DONE_INDEX n)

/-- Frames at the head that no DLC can carry complete FLUSHED. -/
def canSkipBad (s : State) (n : Fin 4) : Nat → State
  | 0 => s
  | k + 1 =>
    if canSends s n.val && 0 < txQueued s n.val && slotReadable (canHead s n.val) 32 && !canSendable s n.val (canHead s n.val) then
      canSkipBad (canComplete s n txFLUSHED none) n k
    else s

/-- Every frame at the head that no DLC can carry completes FLUSHED, on a channel that can send (R384). -/
def canFlush (s : State) (n : Fin 4) : State := canSkipBad s n (txQueued s n.val)

/-! ### Modes (R390) -/

/-- A mode in effect. -/
def canEnter (s : State) (n : Fin 4) (m : Nat) : State :=
  let st := canState s n.val
  match m with
  | 0 => resetIndices (canZero (setCan (modCan s n fun _ => CanCh.reset) n.val csOFF) n.val) n.val
  | 1 =>
    if st = csOFF || st = csSLEEPING then setCan s n.val csINTEGRATING
    else if st = csWOKEN || st = csMONITOR then canFlush (canByCounters (setCan s n.val csACTIVE) n.val) n
    else s
  | 4 => setCan s n.val csMONITOR
  | _ => setFi (setCan (modCan s n fun c => { c with wakeErr := 0 }) n.val csSLEEPING) F.CAN_STATUS_WAKE_SRC n.val 0

/-- A frame has ended: a mode written while it was in progress takes effect. A channel that the frame's error took to
bus-off takes only OFF. -/
def canFrameEnd (s : State) (n : Fin 4) : State :=
  match (canOf s n).modeTo with
  | none => s
  | some m =>
    let s := modCan s n fun c => { c with modeTo := none }
    if m ≠ 0 && canState s n.val = csBUSOFF then s else canEnter s n m

/-! ### Slots (R384, R385) -/

/-- The words of a received frame's header. -/
def canHeader (f : CanFrame) (lost wake : Bool) (seq : Nat) (ts : BitVec 64) : List Byte :=
  leBytes 4 (bNat f.xl * 2 ^ 31 + bNat f.fdf * 2 ^ 30 + bNat f.ide * 2 ^ 29 + (if f.ide then f.id.toNat else f.id.toNat % 2048)) ++
  leBytes 4 (bNat f.rtr * 2 ^ 31 + bNat f.brs * 2 ^ 30 + bNat f.esi * 2 ^ 29 + bNat f.sec * 2 ^ 28 +
    f.data.length % 4096 * 65536 + f.vcid.toNat * 256 + f.sdt.toNat) ++
  leBytes 4 (if f.xl then f.af.toNat else 0) ++
  leBytes 4 (bNat lost * 2 ^ 27 + bNat wake * 2 ^ 26 + f.dlc.toNat * 2 ^ 20 + seq % 65536) ++
  leBytes 8 ts.toNat ++ leBytes 8 0

/-- A frame that a channel can receive: one of the formats of R384, FD and XL only where enabled (R378). -/
def canAccepts (s : State) (n : Nat) (f : CanFrame) : Bool :=
  f.wf && (!f.xl || getFi s F.CAN_CFG_XL_EN n = 1) && (!f.fdf || getFi s F.CAN_CFG_FD_EN n = 1)

/-- The channel drives the acknowledge bit: not in bus monitoring, as which a standby's channel behaves (R378, R388). A
channel that has woken receives as in AWAKE (R390). -/
def canAcks (s : State) (n : Nat) : Bool := serialDrives s && canState s n != csMONITOR

/-- A received frame as the channel's pins show it (R378, R382). -/
def canSeen (s : State) (n : Nat) (f : CanFrame) : State :=
  if canAcks s n || f.xl then send s (.canSeen n (canAcks s n) f.xl) else s

/-- The frame matches a CAN_RX record (R242, R386). -/
def canRxMatch (n : Nat) (f : CanFrame) (r : CanRxRec) : Bool :=
  r.ch = n && r.ide = f.ide && r.xl = f.xl && f.id.toNat &&& r.mask = r.id &&& r.mask && (!r.matchVcid || r.vcid = f.vcid.toNat)

/-- The frame becomes the latest of the records that it matches (R386). -/
def canDeliver (s : State) (n : Nat) (f : CanFrame) : State :=
  match s.prog with
  | none => s
  | some p => forAll s p.iomap.zipIdx fun s e =>
    match e.1 with
    | .canRx r =>
      if canRxMatch n f r then { s with ser := { s.ser with canRx := alPut s.ser.canRx e.2 (f.data, nowNs s) } } else s
    | _ => s

/-- A frame stored, or lost where no slot is free (R382). -/
def canStore (s : State) (n : Fin 4) (f : CanFrame) (wake : Bool) (ts : BitVec 64) : State :=
  if rxFree s n.val then
    let c := canOf s n
    let i := getFi s F.CAN_RX_PUT_INDEX n.val
    let s := dramPut s (rxSlot s n.val i) (canHeader f c.lost wake c.seq ts ++ f.data)
    let s := modCan s n fun c => { c with lost := false, seq := c.seq + 1 }
    let s := bumpBy (setFi s F.CAN_RX_PUT_INDEX n.val (i + 1)) F.CAN_CNT_RX_OK_COUNT n.val 1
    canDeliver s n.val f
  else
    let s := setFi (bumpBy s F.CAN_CNT_RX_OVF_COUNT n.val 1) F.CAN_EVENTS_RX_OVF n.val 1
    modCan s n fun c => { c with lost := true }

/-- CAN_FRAME_RECEIVE (R382, R385): a frame is acknowledged whether a slot is free or not; the receive error counter falls as
ISO 11898-1 sets out; above 127 it takes a value from 119 to 127 that no rule fixes. -/
def execCanFrameReceive (n : Fin 4) (f : CanFrame) (ts : BitVec 64) (s : State) : Host.Outcome State Fault Refusal :=
  .next (if !canListens s n.val || !canAccepts s n.val f then canFrameEnd s n
    else
      let s := canSeen s n.val f
      let rec_ := getFi s F.CAN_STATUS_REC n.val
      let (v, s) := if 127 < rec_ then (let r := takeFree s; (119 + r.1 % 9, r.2)) else (rec_ - 1, s)
      canFrameEnd (canStore (canByCounters (setFi s F.CAN_STATUS_REC n.val v) n.val) n f false ts) n)

/-! ### Transmission (R383, R384) -/

/-- A pending abort once the frame in transmission has ended. -/
def canAbortRest (s : State) (n : Fin 4) : State :=
  match (canOf s n).abortTo with
  | none => s
  | some e =>
    canCompleteAll (modCan s n fun c => { c with abortTo := none }) n txABORTED (ixDist (getFi s F.CAN_TX_DONE_INDEX n.val) e)

/-- CAN_FRAME_SENT (R383): the frame at the head is sent, or, where `ok` is false, loses arbitration, which ends a pending abort;
the frame that wins goes on. A slot outside DRAM cannot be read, and its access ends in a bus error (R486). -/
def execCanFrameSent (n : Fin 4) (ok : Bool) (ts : BitVec 64) (s : State) : Host.Outcome State Fault Refusal :=
  .next (if !canSends s n.val || txQueued s n.val = 0 then s
    else
      let s := canFlush s n
      let a := canHead s n.val
      if txQueued s n.val = 0 then s
      else if !slotReadable a (canSlotLen s a) then busErr s a
      else if ok then
        let s := send s (canFrameOut s n.val a)
        let s := canComplete s n txSENT (some ts)
        let s := setFi s F.CAN_STATUS_TEC n.val (getFi s F.CAN_STATUS_TEC n.val - 1)
        let s := canAbortRest (canByCounters s n.val) n
        canFrameEnd (canFlush s n) n
      else canAbortRest s n)

/-- The address of CAN_CMD of a channel, and of UART_CMD of a UART (R396, R397). -/
def canCmdAddr (n : Nat) : Nat := F.CAN_CTRL_LOCK.at n + 0x74
def uartCmdAddr (n : Nat) : Nat := F.UART_CFG_ENABLE.at n + 0x74

/-- CAN_ABORT (R380, R383): `started` tells whether the frame at the head is in transmission. -/
def execCanAbort (n : Fin 4) (started : Bool) (s : State) : Host.Outcome State Fault Refusal :=
  .next (if serialGated s n.val then busErr s (canCmdAddr n.val)
    else
      let s := modCan s n fun c => { c with abortTo := some (getFi s F.CAN_TX_PUT_INDEX n.val) }
      if started && canSends s n.val && 0 < txQueued s n.val then s else canAbortRest s n)

/-! ### Errors (R389) -/

/-- Entry to bus-off. -/
def canBusOff (s : State) (n : Fin 4) : State :=
  let s := setFi (setCan s n.val csBUSOFF) F.CAN_EVENTS_BUS_OFF n.val 1
  let s := ev s blkCAN F.CAN_EVENTS_BUS_OFF.lo 4 [n.val]
  let s := bumpBy (raiseIrq s (60 + n.val)) F.CAN_CNT_BOFF_COUNT n.val 1
  let s := canAbortRest (modCan s n fun c => { c with boffAt := nowNs s }) n
  if getFi s F.CAN_CFG_BOFF_FLUSH n.val = 1 then canCompleteAll s n txFLUSHED (txQueued s n.val) else s

/-- CAN_ERROR (R383, R389, R390): an error frame raises the counters as ISO 11898-1 sets out for it, ends a frame in
transmission that an abort waits for, and ends the frame in progress. A channel in bus monitoring, as which a standby's channel
behaves, counts no error (R388). -/
def execCanError (n : Fin 4) (tec rec : Fin 9) (s : State) : Host.Outcome State Fault Refusal :=
  .next (let st := canState s n.val
    if serialGated s n.val then s
    else if !(st = csACTIVE || st = csPASSIVE || st = csWOKEN) || !serialDrives s then canFrameEnd s n
    else
      let t := getFi s F.CAN_STATUS_TEC n.val + tec.val
      let s := setFi (bumpBy s F.CAN_CNT_ERR_COUNT n.val 1) F.CAN_STATUS_TEC n.val (min t 1023)
      let s := setFi s F.CAN_STATUS_REC n.val (min 255 (getFi s F.CAN_STATUS_REC n.val + rec.val))
      canFrameEnd (canAbortRest (if 256 ≤ t then canBusOff s n else canByCounters s n.val) n) n)

/-- CAN_CMD.RECOVER. -/
def canRecover (s : State) (n : Nat) : State :=
  if canState s n = csBUSOFF then setCan s n csRECOVERING else setFi s F.CAN_EVENTS_CMD_IGN n 1

/-- RECOVER (R389). -/
def execRecover (n : Fin 4) (s : State) : Host.Outcome State Fault Refusal :=
  .next (if serialGated s n.val then busErr s (canCmdAddr n.val) else canRecover s n.val)

/-- CAN_AUTO_RECOVER (R389): the wait that the program declares has passed. -/
def execCanAutoRecover (n : Fin 4) (s : State) : Host.Outcome State Fault Refusal :=
  .next (let ms := match s.prog with | some p => p.canRecover.getD n.val 0 | none => 0
    if s.runtimeUp && !serialGated s n.val && ms ≠ 0 && canState s n.val = csBUSOFF &&
        (canOf s n).boffAt + ms * 1000000 ≤ nowNs s then canRecover s n.val
    else s)

/-- BUS_OFF_RECOVERY_DONE (R389). -/
def execBusOffRecoveryDone (n : Fin 4) (s : State) : Host.Outcome State Fault Refusal :=
  .next (if canState s n.val = csRECOVERING then canFlush (canZero (setCan s n.val csACTIVE) n.val) n else s)

/-- CAN_INTEGRATION_DONE (R389). -/
def execCanIntegrationDone (n : Fin 4) (s : State) : Host.Outcome State Fault Refusal :=
  .next (if canState s n.val = csINTEGRATING then canFlush (canByCounters (setCan s n.val csACTIVE) n.val) n else s)

/-! ### Mode writes and wake (R390, R391) -/

/-- A write to CAN_MODE (R390), which takes effect after a frame in progress (`busy`) has ended: values 5 to 7 and WAKE_US 0
are discarded, as is a mode other than OFF in bus-off or recovery. -/
def canModeWrite (s : State) (n : Fin 4) (v : Word) (busy : Bool) : State :=
  let m := v.toNat % 8
  let st := canState s n.val
  if 5 ≤ m || fieldOf 15 8 v = 0 || (m ≠ 0 && (st = csBUSOFF || st = csRECOVERING)) then cfgErr s
  else
    let a := F.CAN_MODE_MODE.at n.val
    checkedWrite s a v fun s =>
      let s := modCan (plainWrite s a v) n fun c => { c with modeTo := if busy then some m else none }
      if busy then s else canEnter s n m

/-- CAN_MODE_WRITE (R390): `busy` tells whether a frame is in progress; none is while the channel is OFF or asleep. -/
def execCanModeWrite (n : Fin 4) (v : BitVec 32) (busy : Bool) (s : State) : Host.Outcome State Fault Refusal :=
  .next (if serialGated s n.val then busErr s (F.CAN_MODE_MODE.at n.val) else canModeWrite s n v (busy && canOnBus s n.val))

/-- `CANn_STB` is high (R390): it is low in AWAKE and MONITOR and once the channel has woken. -/
def canStb (s : State) (n : Nat) : Bool := canState s n = csOFF || canState s n = csSLEEPING

/-- The channel wakes. -/
def canWake (s : State) (n src : Nat) : State :=
  let s := setFi (setCan s n csWOKEN) F.CAN_STATUS_WAKE_SRC n src
  raiseIrq (setFi s F.CAN_EVENTS_WAKE n 1) (60 + n)

/-- CAN_WAKE_EDGE (R390). -/
def execCanWakeEdge (n : Fin 4) (s : State) : Host.Outcome State Fault Refusal :=
  .next (if !serialGated s n.val && canState s n.val = csSLEEPING && canMode s n.val = 2 then canWake s n.val 1 else s)

/-- The wake filter matches a frame (R391). -/
def wakeMatch (s : State) (n : Nat) (f : CanFrame) : Bool :=
  let dm := leBytes 4 (getFi s F.CAN_WAKE_DM_LO_DM n) ++ leBytes 4 (getFi s F.CAN_WAKE_DM_HI_DM n)
  let idm := getFi s F.CAN_WAKE_IDM_ID n
  getFi s F.CAN_WAKE_CFG_WAKE_EXT n = bNat f.ide && f.id.toNat &&& idm = getFi s F.CAN_WAKE_ID_ID n &&& idm &&
  (dm.all (· = 0) || (f.dlc.toNat = getFi s F.CAN_WAKE_CFG_WAKE_DLC n && ((f.data.zip dm).any fun p => p.1 &&& p.2 != 0)))

/-- WAKE_FRAME (R391): a frame that the wake filter sees, or none for an error that it counts. -/
def execWakeFrame (n : Fin 4) (f : Option CanFrame) (ts : BitVec 64) (s : State) : Host.Outcome State Fault Refusal :=
  .next (if serialGated s n.val || canState s n.val ≠ csSLEEPING || canMode s n.val ≠ 3 then s
    else match f with
      | none =>
        let s := modCan s n fun c => { c with wakeErr := c.wakeErr + 1 }
        if 31 < (canOf s n).wakeErr then canWake s n.val 3 else s
      | some x =>
        if x.fdf || x.xl then s
        else
          let s := modCan s n fun c => { c with wakeErr := c.wakeErr - 1 }
          if wakeMatch s n.val x then canStore (canWake s n.val 2) n x true ts else s)

/-! ### Registers (R379, R380, R396) -/

/-- A timing value keeps to R379 at a limit in bit/s. -/
def canTiming (limit v : Nat) : Bool :=
  let tq := 1 + (bitsOf 22 14 v + 1) + (bitsOf 13 7 v + 1)
  bitsOf 6 0 v ≤ bitsOf 13 7 v && 80000000 ≤ limit * ((bitsOf 31 23 v + 1) * tq)

/-- LOG2 is allowed. -/
def ringLog (hi v : Nat) : Bool := 4 ≤ v % 16 && v % 16 ≤ hi

/-- The offsets of configuration registers of a channel (R380). -/
def canCfgOff (o : Nat) : Bool :=
  o = 4 || (0x10 ≤ o && o < 0x2C) || (0x40 ≤ o && o < 0x4C) || (0x60 ≤ o && o < 0x74)

/-- A write to a register of a CAN channel; `started` tells an ABORT whether a frame is in transmission, and a mode
write whether one is in progress. -/
def canWrite (s : State) (a : Nat) (v : Word) (started : Bool) : State :=
  let n : Fin 4 := Fin.ofNat 4 (offOf a / 0x4000)
  let o := offOf a % 0x4000
  if canCfgOff o && canMode s n.val ≠ 0 then cfgErr s
  else if (o = 0x10 && !canTiming 1000000 v.toNat) || (o = 0x14 && !canTiming 8000000 v.toNat) ||
      (o = 0x18 && !canTiming 20000000 v.toNat) || ((o = 0x28 || o = 0x48) && !ringLog 12 v.toNat) then cfgErr s
  else if o = 0x08 then canModeWrite s n v (started && canOnBus s n.val)
  else if o = 0x30 then moveRxAck s n.val v
  else if o = 0x4C then canSkipBad (moveTxPut s n.val v) n (txCount s (ringOf n.val))
  else if o = 0x54 then moveTxAck s n.val v
  else if o = 0x74 then checkedWrite s a v fun s =>
    let s := if v.getLsbD 0 then canRecover s n.val else s
    if v.getLsbD 1 then
      let s := modCan s n fun c => { c with abortTo := some (getFi s F.CAN_TX_PUT_INDEX n.val) }
      if started && canSends s n.val && 0 < txQueued s n.val then s else canAbortRest s n
    else s
  else if o = 0 then checkedWrite s a v fun s =>
    let s := plainWrite s a v
    if v.getLsbD 2 then
      forAll s [F.CAN_CNT_RX_OK_COUNT, F.CAN_CNT_TX_OK_COUNT, F.CAN_CNT_RX_OVF_COUNT, F.CAN_CNT_ERR_COUNT, F.CAN_CNT_BOFF_COUNT]
        fun s f => setFi s f n.val 0
    else s
  else plainWrite s a v

end Sys2Proof.Machine
end

