-- ==== Sys2Proof/Machine/Uart.lean ====
section
/-!
DEFINITION. The RS-485 UARTs and the index moves of both kinds of channel (15 R381 R392 to R395 R397).
-/
namespace Sys2Proof.Machine

/-- A UART beside its registers. -/
def uartOf (s : State) (n : Fin 4) : UartCh := s.ser.uart[n.val]'n.isLt
def modUart (s : State) (n : Fin 4) (f : UartCh → UartCh) : State :=
  { s with ser := { s.ser with uart := s.ser.uart.set n.val (f (uartOf s n)) n.isLt } }

/-- The UART runs. -/
def uartOn (s : State) (n : Nat) : Bool := !serialGated s (4 + n) && getFi s F.UART_CFG_ENABLE n = 1

/-- CRC-16 of Modbus RTU (R394). -/
def modbusCrc (d : List Byte) : Nat :=
  crcOf { width := 16, poly := 0x8005, init := 0xFFFF, xorOut := 0, refIn := true, refOut := true } d

/-- A frame of at least 4 bytes whose CRC-16 checks. -/
def modbusOk (d : List Byte) : Bool :=
  4 ≤ d.length && modbusCrc (d.take (d.length - 2)) = leNat (d.drop (d.length - 2))

/-- The data of a reply: after the byte count of a read, or after the function code of a write (R242). -/
def replyData (d : List Byte) : List Byte :=
  let body := (d.take (d.length - 2)).drop 2
  if leNat ((d.drop 1).take 1) ≤ 4 then body.drop 1 else body

/-- A reply goes to the first poll that awaits one of its address and function code (R395). -/
def pollReply (s : State) (n : Nat) (d : List Byte) : State :=
  match s.prog with
  | none => s
  | some p =>
    let hit := p.iomap.zipIdx.find? fun e => match e.1 with
      | .mbPoll r => r.uart = n && r.slave = leNat (d.take 1) && r.fc = leNat ((d.drop 1).take 1) &&
          (match alGet? s.ser.polls e.2 with | some q => q.awaited | none => false)
      | _ => false
    match hit with
    | some e =>
      let old := (alGet? s.ser.polls e.2).getD { data := none, awaited := false, fresh := false, age := 65535 }
      let q : Poll := { old with data := some (replyData d), awaited := false, fresh := true }
      { s with ser := { s.ser with polls := alPut s.ser.polls e.2 q } }
    | none => s

/-- The length C of a character in bits (R392). -/
def charBits (s : State) (n : Nat) : Nat :=
  1 + (7 + getFi s F.UART_CFG_DATA8 n) + bNat (getFi s F.UART_CFG_PARITY n != 0) + (1 + getFi s F.UART_CFG_STOP2 n)

/-- 64 times a bit time in cycles of 5 ns (R392). -/
def bitTime64 (s : State) (n : Nat) : Nat :=
  (if getFi s F.UART_CFG_OVS n = 1 then 16 else 8) * (64 * getFi s F.UART_BAUD_DIV_I n + getFi s F.UART_BAUD_DIV_F n)

/-- A silent interval of `half` half character times up to 19 200 bit/s and of `us` µs above it has passed at `t` ns
(R394): T15 with 3 and 750, T35 with 7 and 1 750. -/
def silent (s : State) (n half us t : Nat) : Bool :=
  if 200000000 * 64 ≤ 19200 * bitTime64 s n then half * charBits s n * bitTime64 s n * 5 < 128 * t else us * 1000 < t

/-- The ns that `k` characters take on the line (R392). -/
def charsNs (s : State) (n k : Nat) : Nat := k * charBits s n * bitTime64 s n * 5 / 64

/-- A character has 7 or 8 data bits (R392). -/
def uartChar (s : State) (n : Nat) (b : Byte) : Byte := if getFi s F.UART_CFG_DATA8 n = 1 then b else b &&& 0x7F#8

/-- One slot of received bytes stored, or lost where none is free (R382, R393, R394). -/
def uartStore (s : State) (n : Fin 4) (data : List Byte) (gap : Nat) (framing parity brk : Bool) (ts : BitVec 64) : State :=
  if !rxFree s (4 + n.val) then
    let s := setFi (bumpBy s F.UART_CNT_RX_OVF_COUNT n.val 1) F.UART_EVENTS_RX_OVF n.val 1
    modUart s n fun c => { c with lost := true }
  else
    let mb := getFi s F.UART_CFG_MODBUS n.val = 1
    let d := data.take 256
    let bad := mb && !modbusOk d
    let c := uartOf s n
    let fl := bNat bad * 128 + bNat (mb && silent s n.val 3 750 gap) * 64 + bNat framing * 32 + bNat parity * 16 + bNat brk * 8 +
      bNat c.lost * 4 + bNat (mb && 256 < data.length) * 2 + bNat c.echo
    let i := getFi s F.UART_RX_PUT_INDEX n.val
    let s := dramPut s (rxSlot s (4 + n.val) i)
      (leBytes 4 (d.length * 65536 + fl) ++ leBytes 4 (c.seq % 65536) ++ leBytes 8 ts.toNat ++ d)
    let s := modUart s n fun c => { c with lost := false, echo := false, seq := c.seq + 1 }
    let s := setFi s F.UART_RX_PUT_INDEX n.val (i + 1)
    let s := if bad && 4 ≤ d.length then setFi (bumpBy s F.UART_CNT_CRC_COUNT n.val 1) F.UART_EVENTS_CRC n.val 1 else s
    let s := if framing || parity || brk then setFi s F.UART_EVENTS_LINE n.val 1 else s
    let s := raiseIrq (bumpBy s F.UART_CNT_RX_OK_COUNT n.val 1) (64 + n.val)
    if mb && !bad then pollReply s n.val d else s

/-- The slots that received bytes take: in raw mode a slot closes when it holds 256 bytes (R394). -/
def uartPieces (mb : Bool) (d : List Byte) : List (Nat × List Byte) :=
  if mb || d.length ≤ 256 then [(0, d)] else (List.range ((d.length + 255) / 256)).map fun i => (i, (d.drop (256 * i)).take 256)

/-- UART_SLOT_CLOSE (R393, R394): the bytes of a frame, its longest gap between characters in ns, and the conditions met. In
Modbus mode it comes at T35 of idle line, and more than 256 bytes are truncated; in raw mode it comes after GAP character times,
and more than 256 bytes have filled several slots, each of which shows the conditions, its characters being back to back (DESIGN
CHOICE, log 72). Characters while `UARTn_DE` is high are not among them (R392). -/
def execUartSlotClose (n : Fin 4) (data : List (BitVec 8)) (gap : Nat) (framing parity brk : Bool) (ts : BitVec 64) (s : State) :
    Host.Outcome State Fault Refusal :=
  .next (if !uartOn s n.val then s
    else
      let mb := getFi s F.UART_CFG_MODBUS n.val = 1
      let s := forAll s (uartPieces mb (data.map (uartChar s n.val))) fun s p =>
        uartStore s n p.2 gap framing parity brk (ts + BitVec.ofNat 64 (charsNs s n.val (256 * p.1)))
      if mb then modUart s n fun c => { c with idle := 0 } else s)

/-- The frame at TX_DONE completes. -/
def uartComplete (s : State) (n : Fin 4) (status : Nat) (ts : Option (BitVec 64)) : State :=
  let i := getFi s F.UART_TX_DONE_INDEX n.val
  let a := txSlot s (4 + n.val) i
  let w0 := memLe s.mem a 4
  let s := dramPut s a (leBytes 4 (putBits 31 28 status w0) ++ leBytes 4 ((uartOf s n).seq % 65536))
  let s := match ts with
    | some t => bumpBy (modUart (dramPut s (a + 8) (leBytes 8 t.toNat)) n fun c => { c with seq := c.seq + 1 })
        F.UART_CNT_TX_OK_COUNT n.val 1
    | none => s
  raiseIrq (setFi s F.UART_TX_DONE_INDEX n.val (i + 1)) (64 + n.val)

/-- At most `k` frames complete ABORTED. -/
def uartAbortAll (s : State) (n : Fin 4) : Nat → State
  | 0 => s
  | k + 1 => uartAbortAll (uartComplete s n txABORTED none) n k

/-- A pending abort once the frame in transmission has ended. -/
def uartAbortRest (s : State) (n : Fin 4) : State :=
  match (uartOf s n).abortTo with
  | none => s
  | some e => uartAbortAll (modUart s n fun c => { c with abortTo := none }) n (ixDist (getFi s F.UART_TX_DONE_INDEX n.val) e)

/-- The bytes of a queued frame as they go out (R392, R394). -/
def uartBytes (s : State) (n a : Nat) : List Byte :=
  let w0 := memLe s.mem a 4
  let d := (memBytes s.mem (a + 16) (min 256 (bitsOf 24 16 w0))).map (uartChar s n)
  if getFi s F.UART_CFG_MODBUS n = 1 && w0.testBit 8 then d ++ leBytes 2 (modbusCrc d) else d

/-- A frame whose first start bit falls at `ts` keeps to T35 after the module's own latest frame in Modbus mode (R394). -/
def uartSilent (s : State) (n : Fin 4) (ts : BitVec 64) : Bool :=
  let t := (uartOf s n).idle
  getFi s F.UART_CFG_MODBUS n.val = 0 || ts.toNat < t || silent s n.val 7 1750 (ts.toNat - t)

/-- A queued frame with its DE lead and trail goes out (R392, R394). -/
def uartOut (s : State) (n a : Nat) : OutMsg :=
  .uart n (getFi s F.UART_CFG_DE_LEAD n) (getFi s F.UART_CFG_DE_TRAIL n) (uartBytes s n a)

/-- UART_FRAME_SENT (R392): with ECHO, `echoErr` tells that the echo differed. A Modbus frame starts only after T35 of idle line
(R394); a slot outside DRAM cannot be read, and its access ends in a bus error (R486). -/
def execUartFrameSent (n : Fin 4) (echoErr : Bool) (ts : BitVec 64) (s : State) : Host.Outcome State Fault Refusal :=
  .next (let a := txSlot s (4 + n.val) (getFi s F.UART_TX_DONE_INDEX n.val)
    if !uartOn s n.val || !serialDrives s || txQueued s (4 + n.val) = 0 || !uartSilent s n ts then s
    else if !slotReadable a (16 + min 256 (bitsOf 24 16 (memLe s.mem a 4))) then busErr s a
    else
      let k := (uartBytes s n.val a).length
      let s := send s (uartOut s n.val a)
      let s := modUart s n fun c => { c with idle := (ts.toNat + charsNs s n.val k) % 2 ^ 64 }
      let s := if echoErr && getFi s F.UART_CFG_ECHO n.val = 1 then
          setFi (modUart s n fun c => { c with echo := true }) F.UART_EVENTS_ECHO_ERR n.val 1
        else s
      uartAbortRest (uartComplete s n txSENT (some ts)) n)

/-- UART_CMD.ABORT. -/
def uartAbort (s : State) (n : Fin 4) (started : Bool) : State :=
  let s := modUart s n fun c => { c with abortTo := some (getFi s F.UART_TX_PUT_INDEX n.val) }
  if started && uartOn s n.val && serialDrives s && 0 < txQueued s (4 + n.val) then s else uartAbortRest s n

/-- UART_ABORT (R397). -/
def execUartAbort (n : Fin 4) (started : Bool) (s : State) : Host.Outcome State Fault Refusal :=
  .next (if serialGated s (4 + n.val) then busErr s (uartCmdAddr n.val) else uartAbort s n started)

/-- The bit rate of a divisor keeps to R392. -/
def uartRateOk (ovs16 : Bool) (baud : Nat) : Bool :=
  let d := 64 * bitsOf 21 6 baud + bitsOf 5 0 baud
  1 ≤ bitsOf 21 6 baud && 200000000 * 64 ≤ 12000000 * ((if ovs16 then 16 else 8) * d)

/-- A write to UART_CFG (R392, R397): ENABLE 0 holds the UART with its indices at 0. -/
def uartCfgWrite (s : State) (n : Fin 4) (v : Word) : State :=
  let a := F.UART_CFG_ENABLE.at n.val
  if fieldOf 26 25 v = 3 || fieldOf 23 16 v = 0 || !uartRateOk (v.getLsbD 28) (getReg s (F.UART_BAUD_DIV_I.at n.val)).toNat then
    cfgErr s
  else checkedWrite s a v fun s =>
    let s := plainWrite s a v
    if v.getLsbD 31 then s else resetIndices (modUart s n fun _ => UartCh.reset) (4 + n.val)

/-- UART_ENABLE_WRITE (R397). -/
def execUartEnableWrite (n : Fin 4) (v : BitVec 32) (s : State) : Host.Outcome State Fault Refusal :=
  .next (if serialGated s (4 + n.val) then busErr s (F.UART_CFG_ENABLE.at n.val) else uartCfgWrite s n v)

/-- A write to a register of the UART block. -/
def uartWrite (s : State) (a : Nat) (v : Word) (started : Bool) : State :=
  let n : Fin 4 := Fin.ofNat 4 (offOf a / 0x400)
  let o := offOf a % 0x400
  if offOf a = 0x1000 then checkedWrite s a v fun s =>
    let s := plainWrite s a v
    if v.getLsbD 2 then
      forAll s (List.range 4) fun s k =>
        forAll s [F.UART_CNT_RX_OK_COUNT, F.UART_CNT_TX_OK_COUNT, F.UART_CNT_RX_OVF_COUNT, F.UART_CNT_CRC_COUNT]
          fun s f => setFi s f k 0
    else s
  else if 0x1000 ≤ offOf a then plainWrite s a v
  else if o = 0 then uartCfgWrite s n v
  else if ((0x20 ≤ o && o < 0x2C) || (0x40 ≤ o && o < 0x4C)) && getFi s F.UART_CFG_ENABLE n.val = 1 then cfgErr s
  else if (o = 4 && !uartRateOk (getFi s F.UART_CFG_OVS n.val = 1) v.toNat) ||
      ((o = 0x28 || o = 0x48) && !ringLog 10 v.toNat) then cfgErr s
  else if o = 0x30 then moveRxAck s (4 + n.val) v
  else if o = 0x4C then moveTxPut s (4 + n.val) v
  else if o = 0x54 then moveTxAck s (4 + n.val) v
  else if o = 0x74 then checkedWrite s a v fun s => if v.getLsbD 0 then uartAbort s n started else s
  else plainWrite s a v

/-! ### Index moves (R381) -/

/-- An index move of a channel whose clock gate may be off. -/
def ringWrite (s : State) (ch : Nat) (f : Fld) (v : Word) : State :=
  let a := f.at (ringOf ch).n
  if serialGated s ch then busErr s a else if ch < 4 then canWrite s a v false else uartWrite s a v false

/-- RX_ACK_WRITE (R381): CAN channels 0 to 3, then UARTs 0 to 3. -/
def execRxAckWrite (ch : Fin 8) (v : BitVec 32) (s : State) : Host.Outcome State Fault Refusal :=
  .next (ringWrite s ch.val (ringOf ch.val).rxAck v)
/-- TX_PUT_WRITE (R381). -/
def execTxPutWrite (ch : Fin 8) (v : BitVec 32) (s : State) : Host.Outcome State Fault Refusal :=
  .next (ringWrite s ch.val (ringOf ch.val).txPut v)
/-- TX_ACK_WRITE (R381). -/
def execTxAckWrite (ch : Fin 8) (v : BitVec 32) (s : State) : Host.Outcome State Fault Refusal :=
  .next (ringWrite s ch.val (ringOf ch.val).txAck v)

end Sys2Proof.Machine
end

