-- ==== Sys2Proof/Machine/Frames.lean ====
section
/-!
DEFINITION. Frames and requests that a task's emission queues, and the input tags that messages and time bases feed (15
R386 R387 R395, 12 R317, 13 R353, 10 R242 R247).
-/
namespace Sys2Proof.Machine

/-! ### Output fields (R242, R257, R404) -/

/-- The channel number of the first output field of record `ix`. -/
def frameBase (p : Program) (ix : Nat) : Nat :=
  0x100 + ((p.iomap.take ix).map fun r => match r with
    | .canTx c => c.fields.length
    | .mbPoll c => c.fields.countP (·.isReq)
    | _ => 0).sum

/-- The value of an output field: that of a force on its channel, else the tag's. -/
def fieldValue (s : State) (ch : Nat) (f : FieldBind) : Nat :=
  match forceOn s.forcesEff 1 ch with
  | some x => x.value
  | none => match tagOf s f.tag with
    | some e => memLe s.outImg e.off (tagSize e.typ)
    | none => 0

/-- Data bytes with the fields of a record written. -/
def frameData (s : State) (base len : Nat) (fs : List FieldBind) : List Byte :=
  fs.zipIdx.foldl (fun d f => fieldPut d f.1 (fieldValue s (base + f.2) f.1)) (List.replicate len 0)

/-- The runtime acknowledges the slots of its frames that are complete; the registers of a channel whose gate is off answer
with a bus error (R380, R461). -/
def ackDone (s : State) (ch : Nat) : State :=
  let r := ringOf ch
  if serialGated s ch then busErr s (r.txAck.at r.n) else setFi s r.txAck r.n (getFi s r.txDone r.n)

/-- A slot queued on a channel: a CAN frame that no DLC can carry completes at once where the channel can send (R384). -/
def queueSlot (s : State) (ch : Nat) (bytes : List Byte) : State :=
  let r := ringOf ch
  let i := getFi s r.txPut r.n
  let s := setFi (dramPut s (txSlot s ch i) bytes) r.txPut r.n (i + 1)
  if h : ch < 4 then canFlush s ⟨ch, h⟩ else s

/-! ### CAN frames (R387) -/

/-- The slot of a transmit frame. -/
def canTxSlot (c : CanTxRec) (d : List Byte) : List Byte :=
  leBytes 4 (bNat c.xl * 2 ^ 31 + bNat c.fdf * 2 ^ 30 + bNat c.ide * 2 ^ 29 + c.id) ++
  leBytes 4 (bNat c.brs * 2 ^ 30 + bNat c.sec * 2 ^ 28 + c.len * 65536 + c.vcid * 256 + c.sdt) ++
  leBytes 4 (if c.xl then c.af else 0) ++ leBytes 20 0 ++ d

/-- The copy queued last is still with the channel, or no slot is free. -/
def canCopyHeld (s : State) (ch : Nat) (old : Option CanCopy) : Bool :=
  !txFree s ch || match old with
    | some c => c.data != [] && ixDist (getFi s F.CAN_TX_DONE_INDEX ch) c.index < txQueued s ch
    | none => false

/-- A transmit frame queued at the emission of its task, or skipped (R387). -/
def queueCan (s : State) (p : Program) (ix : Nat) (c : CanTxRec) : State :=
  let d := frameData s (frameBase p ix) c.len c.fields
  let old := alGet? s.ser.canTx ix
  if c.onChange && (old.map (·.data)) = some d then s
  else
    let s := ackDone s c.ch
    if serialGated s c.ch then s else
    let put := fun (s : State) (x : CanCopy) => { s with ser := { s.ser with canTx := alPut s.ser.canTx ix x } }
    if canCopyHeld s c.ch old then
      match old with
      | some x => if x.skipping then s else ev (put s { x with skipping := true }) blkCAN 0x80 3 [c.ch, c.id]
      | none => ev (put s { data := [], index := 0, skipping := true }) blkCAN 0x80 3 [c.ch, c.id]
    else put (queueSlot s c.ch (canTxSlot c d)) { data := d, index := getFi s F.CAN_TX_PUT_INDEX c.ch, skipping := false }

/-! ### Modbus requests (R395) -/

/-- Two bytes, the more significant first. -/
def be16 (v : Nat) : List Byte := (leBytes 2 v).reverse

/-- The bytes of a request before its CRC. -/
def pollRequest (m : MbPollRec) (d : List Byte) : List Byte :=
  leBytes 1 m.slave ++ leBytes 1 m.fc ++ be16 m.start ++
  (if m.fc ≤ 4 then be16 m.qty else if m.fc = 6 then d else be16 m.qty ++ leBytes 1 d.length ++ d)

/-- The data bytes of a write request. -/
def pollDataLen (m : MbPollRec) : Nat := if m.fc ≤ 4 then 0 else if m.fc = 6 then 2 else 2 * m.qty

/-- A poll queued at the emission of its task, where a slot is free. -/
def queuePoll (s : State) (p : Program) (ix : Nat) (m : MbPollRec) : State :=
  let s := ackDone s (4 + m.uart)
  if serialGated s (4 + m.uart) || !txFree s (4 + m.uart) then s
  else
    let d := frameData s (frameBase p ix) (pollDataLen m) (m.fields.filter (·.isReq))
    let b := pollRequest m d
    let s := queueSlot s (4 + m.uart) (leBytes 4 (b.length * 65536 + 256) ++ leBytes 12 0 ++ b)
    let q := (alGet? s.ser.polls ix).getD { data := none, awaited := false, fresh := false, age := 65535 }
    { s with ser := { s.ser with polls := alPut s.ser.polls ix { q with awaited := true } } }

/-- The frames and requests of a task at its emission, on a module that drives its channels (R288). -/
def queueFrames (s : State) (t : Nat) : State :=
  match s.prog with
  | none => s
  | some p =>
    if !serialDrives s then s
    else forAll s (ioRecs s) fun s e => match e.1 with
      | .canTx c => if c.task = t then queueCan s p e.2 c else s
      | .mbPoll m => if m.task = t then queuePoll s p e.2 m else s
      | _ => s

/-! ### Input tags (R247, R317, R353, R386, R395) -/

/-- A field of the data of a message into its tag; a frame that ends before the field gives no value, and it is free
(assumption 8). -/
def takeField (s : State) (d : List Byte) (f : FieldBind) : State :=
  match fieldGet d f with
  | some v => setInTag s f.tag v
  | none => let (v, s) := takeFree s; setInTag s f.tag v

/-- The 8 bytes from a word of a session record on. -/
def sesWords (s : State) (n word : Nat) : Nat :=
  leNat (((sesRecord ((alGet? s.ses.snap n).getD Session.fresh)).drop (4 * word)).take 8)

/-- The age in periods of a frame of time `t` (R386). -/
def frameAge (s : State) (period t : Nat) : Nat := min 65535 ((nowNs s - t - 1) / period)

/-- The tags that time bases, sessions and CAN frames feed (R247). -/
def sampleMessages (s : State) : State :=
  forAll s (ioRecs s) fun s e => match e.1 with
    | .time tag tb => setInTag s tag (tbValue s tb)
    | .ses tag n w => setInTag s tag (sesWords s n w)
    | .canRx r => match alGet? s.ser.canRx e.2 with | some x => takeField s x.1 r.bind | none => s
    | _ => s

/-- The ages of CAN frames in the periods of a task (R386). -/
def sampleAges (s : State) (period : Nat) : State :=
  forAll s (ioRecs s) fun s e => match e.1 with
    | .canRx r =>
      setInTag s r.ageTag (match alGet? s.ser.canRx e.2 with | some x => frameAge s period x.2 | none => 65535)
    | _ => s

/-- The polls of a task whose period starts: a reply that has closed gives the tags, else its age grows. -/
def samplePolls (s : State) (t : Nat) : State :=
  forAll s (ioRecs s) fun s e => match e.1 with
    | .mbPoll m =>
      if m.task ≠ t then s
      else
        let q := (alGet? s.ser.polls e.2).getD { data := none, awaited := false, fresh := false, age := 65535 }
        let age := if q.fresh then 0 else min 65535 (q.age + 1)
        let s := if q.fresh then forAll s (m.fields.filter fun f => !f.isReq) fun s f => takeField s (q.data.getD []) f else s
        setInTag { s with ser := { s.ser with polls := alPut s.ser.polls e.2 { q with fresh := false, age := age } } } m.ageTag age
    | _ => s

end Sys2Proof.Machine
end

