-- ==== Sys2Proof/Machine/Task.lean ====
section
/-!
DEFINITION. The start of task periods, forces, and the loading and exchange of programs (10 R244 to R268, 09 R226 to R234).
-/
namespace Sys2Proof.Machine

/-! ### Periods (R17, R246) -/

/-- The period of a task in ns. -/
def taskNs (r : TaskRec) : Nat := r.period * tickNs

/-- The declared tasks in ascending index. -/
def tasksUp (p : Program) : List TaskRec := (List.range 16).filterMap fun t => p.tasks.find? fun r => r.task = t

/-- The tasks whose period starts now and has not been met. -/
def dueTasks (s : State) : List TaskRec :=
  match s.prog with
  | none => []
  | some p => (tasksUp p).filter fun r =>
      nowNs s % taskNs r = 0 && decide ((taskOf s (taskIx r.task)).pidx < nowNs s / taskNs r)

/-- A task is halted (R252). -/
def halted (s : State) (t : Nat) : Bool := getFi s F.SCN_TASK_STAT_STATE t = tsHalted

/-- A scan that still runs at the end of a period (R248 to R250). -/
def overrun (s : State) (r : TaskRec) (sc : Scan) : State :=
  let s := if sc.late = 0 then
      evBitTask (bump (bumpBy s F.SCN_TASK_OVR_VALUE r.task 1) F.SCN_CNT_OVERRUN_COUNT) F.SCN_EVENTS_OVERRUN 4 r.task []
    else s
  if r.ovrMax ≤ sc.late then abortScan s r.task
  else
    let s := setScan s r.task (some { sc with late := sc.late + 1 })
    setFi (setFi s F.SCN_TASK_STAT_STATE r.task tsLate) F.SCN_TASK_STAT_SKIPPED r.task (min 15 (sc.late + 1))

/-- The end of a task's period: its digest where it committed nothing (R251, R289), its overrun, and the new index. -/
def endPeriod (s : State) (r : TaskRec) : State :=
  let k := taskOf s (taskIx r.task)
  let s := if k.pidx ≠ 0 && !k.pendEmit then
      digestUnit s 0 r.task k.pidx (leBytes 4 r.task ++ leBytes 4 0 ++ leBytes 8 k.pidx) else s
  let s := match k.scan with | some sc => overrun s r sc | none => s
  modTask s (taskIx r.task) fun k => { k with pidx := nowNs s / taskNs r }

/-! ### Item 1: emission and acceptance (R26, R174, R226) -/

/-- The image committed by a task becomes the output image's (R25). -/
def emitTask (s : State) (t : Nat) : State :=
  let k := taskOf s (taskIx t)
  if !k.pendEmit then s
  else
    let others := memKeep (fun off => match tagAt s true off with | some e => e.owner != t | none => true) s.outImg
    let s := { s with outImg := memPutCells others (ownedOut s t k.image) }
    modTask s (taskIx t) fun k => { k with pendEmit := false, emitted := true }

/-- The shared stores that a task committed are applied (R174), those to retained pages being kept over a restart
since its SCANEND (keepShared). -/
def applyShared (s : State) (t : Nat) : State :=
  let cs := (taskOf s (taskIx t)).pendShared
  let s := { s with inst := memPutCells s.inst cs }
  modTask s (taskIx t) fun k => { k with pendShared := [] }

/-- The effect of an accepted call (R231). -/
def callEffect (s : State) (t : Nat) (c : Call) : State :=
  match c.engine, c.fn with
  | 0, 0 => nsaInstall s t c.ticket c.body
  | 0, 1 => nsaStudy s t c.ticket c.body
  | 0, 2 => nsaWriteUser s t c.ticket c.body
  | 0, 3 => nsaReadUser s t c.ticket c.body
  | 0, 4 => nsaMask s t c.ticket c.body
  | 2, 0 => lpeLoop s t c.ticket c.body
  | 2, 1 => lpeGroup s t c.ticket c.body
  | 2, 2 => lpeMode s t c.ticket c.body
  | 3, 0 => mtrConfig s t c.ticket c.body
  | 4, 0 => chkRun s t c.ticket c.body
  | 5, 0 => sesSendCall s t c.ticket c.body
  | 5, 1 => sesReadCall s t c.ticket c.body
  | _, _ => s

/-- The calls of a task accepted in ticket order; a halted task accepts none (R226, R252). -/
def acceptCalls (s : State) (t : Nat) : State :=
  let cs := (taskOf s (taskIx t)).pendCalls
  let s := modTask s (taskIx t) fun k => { k with pendCalls := [] }
  if halted s t then s else forAll s cs fun s c => callEffect s t c

/-- Item 1 of R27 for the tasks whose periods start; the first one ends the wait of the channels without a task (R411). -/
def item1 (s : State) (due : List TaskRec) : State :=
  let ts := due.map (·.task)
  let s := driveOutputs (forAll { s with fio := { s.fio with unbound := true } } ts emitTask)
  let s := forAll s ts queueFrames
  forAll (forAll s ts applyShared) ts acceptCalls

/-! ### Item 2: the frozen views and the posts (R227 to R234) -/

/-- The view that a task's EREAD reads (R234). -/
def engineView (s : State) : EngineView :=
  let pair := fun (f : Fld) (st : Fld) (i : Nat) => (i, getFi s f i, (getReg s (st.at i)).toNat)
  let md := s.nsa.model
  { state := s.nsa.inForce, dec := s.dpo.table, demThermal := s.mtr.viewT, demMissing := s.mtr.viewMiss,
    demElectric := s.mtr.viewE,
    loops := s.lpe.loops.map fun e => pair F.LPE_LOOP_OUT_C F.LPE_LOOP_STAT_MODE e.1,
    groups := (groupsOf s).map (pair F.LPE_GROUP_OUT_W F.LPE_GROUP_STAT_N_MEMBERS),
    exps := (md.map (·.exps)).getD [], modelSerial := (md.map (·.serial)).getD 0,
    nodeIds := (md.map fun m => m.nodes.map (·.id)).getD [], branchIds := (md.map fun m => m.branches.map (·.id)).getD [],
    hasModel := md.isSome }

/-- The bytes of a completion record (R230). -/
def postBytes (p : PostItem) : List Byte :=
  leBytes 4 (p.ticket * 65536 + p.engine * 256 + p.fn) ++ leBytes 4 (p.status * 2 ^ 28 + p.code % 65536) ++ leBytes 8 p.data

/-- A post's header and records as they stand from offset 0 to 0x0FFF of the mailbox (R229). -/
def postHead (pidx lost : Nat) (ps : List PostItem) : List Byte :=
  let b := leBytes 8 pidx ++ leBytes 4 (lost % 65536 * 65536 + ps.length) ++ List.replicate 52 0 ++ ps.flatMap postBytes
  b ++ List.replicate (0x1000 - b.length) 0

/-- The records of a task that are due: those of calls, then the DONE records of studies (R227, R230). -/
def duePosts (s : State) (k : Task) : List PostItem :=
  let due := k.posts.filter fun p => p.duePeriod ≤ k.pidx && p.dueTime ≤ nowNs s
  (due.filter fun p => !p.isStudy) ++ due.filter (·.isStudy)

/-- One record's data: in the result area, or in the user region for a study (R229, R232); a session record is that of the
latest closed snapshot at the post (R317). -/
def postData (s : State) (base : Nat) (p : PostItem) : State :=
  if p.isStudy then { s with mem := memPut s.mem (userBase + p.userOff) p.userBytes }
  else
    let bytes := match p.read with | some n => sesRecord (snapRecord s n) | none => p.bytes
    if bytes.isEmpty then s else { s with mbox := memPut s.mbox (base + p.dest) bytes }

/-- The post of a task at a period start at which no scan of it runs (R227). -/
def postTask (s : State) (t : Nat) : State :=
  let k := taskOf s (taskIx t)
  let due := duePosts s k
  if due.isEmpty || k.scan.isSome || halted s t then s
  else
    let lost := due.length - 64
    let ps := due.drop lost
    let base := winMbox + 0x10000 * t
    let s := { s with mbox := memPut s.mbox base (postHead k.pidx lost ps) }
    let s := modTask s (taskIx t) fun k =>
      { k with posts := k.posts.filter fun p => !(p.duePeriod ≤ k.pidx && p.dueTime ≤ nowNs s) }
    forAll s ps fun s p => postData s base p

/-- The shared pages as they stand (R174). -/
def sharedPages (s : State) : Mem := memKeep (fun a => pageOwner s a = some 0xFE) s.inst

/-- The scan of a period with its frozen views; a task without a healthy core has none, and a scan that waits on a faulty
core goes on on the healthy one (R246, R255). -/
def createScan (s : State) (r : TaskRec) : State :=
  let k := taskOf s (taskIx r.task)
  match healthyCore s r.core with
  | none => s
  | some c =>
    if halted s r.task then s
    else if k.scan.isSome then setFi s F.SCN_TASK_CFG_CORE r.task c
    else
      let ctx := { RegCtx.zero with pc := BitVec.ofNat 64 r.entry }
      let sc : Scan :=
        { period := k.pidx, pstart := k.pidx * taskNs r, late := 0, begun := false, saved := ctx, undo := [], buf := [],
          calls := [], ticket := k.tickets,
          ckpt := { ctx := ctx, ticket := k.tickets, undoMark := 0, bufMark := 0, callMark := 0 }, info := k.nextInfo,
          faulted := none, frozenIn := s.inImg, frozenOut := s.outImg, frozenShared := sharedPages s,
          frozenForces := s.forcesEff, view := engineView s }
      let s := setFi (setFi s F.SCN_TASK_CFG_CORE r.task c) F.SCN_TASK_STAT_STATE r.task tsReady
      modTask s (taskIx r.task) fun k => { k with scan := some sc, nextInfo := 0 }

/-- The input sample of an instant, one for every task whose period starts there; a standby takes that of the active module
(R247, R287). -/
def sampleInputs (s : State) (due : List TaskRec) : State :=
  if roleOf s = roSTANDBY then s else forAll (sampleMessages s) due fun s r => samplePolls s r.task

/-- Item 2 of R27 for one task, on the sample of the instant; ages are in the task's own periods (R386). -/
def freezeTask (s : State) (r : TaskRec) : State :=
  createScan (postTask (if roleOf s = roSTANDBY then s else sampleAges s (taskNs r)) r.task) r

/-- The INPUT frame of an active module for a task: what its scan has frozen (R284, R287). -/
def sendInput (s : State) (r : TaskRec) : State :=
  let k := taskOf s (taskIx r.task)
  if roleOf s = roACTIVE then furovSend s (.input r.task k.pidx s.inImg s.forcesEff (sharedPages s)) else s

/-- Item 2 of R27 for tasks whose periods start. -/
def beginPeriods (s : State) (due : List TaskRec) : State :=
  forAll (sampleInputs s due) due fun s r => sendInput (freezeTask s r) r

/-- Items 1 and 2 of a period start, of which the first in run state seals TB1 (R344); a standby freezes with the INPUT frame
(R287). -/
def startPeriods (s : State) (due : List TaskRec) : State :=
  let s := if flag s F.TIM_STATUS_SEALED then s else setF s F.TIM_STATUS_SEALED 1
  let s := item1 (forAll s due endPeriod) due
  if roleOf s = roSTANDBY then { s with red := { s.red with inputDue := due.map (·.task) } } else beginPeriods s due

/-- Item 4 of R27: each scan core takes up its task of highest priority (R244); a network-cycle instant that is still to be
met comes first, as item 3. -/
def item4 (s : State) : State := if atCycle s then s else forAll s [0, 1, 2, 3] schedule

/-- The present instant is that of a pending exchange (R266). -/
def atExchange (s : State) : Bool := match s.exch with | some x => x.at_ = some (nowNs s) | none => false

/-- The module runs periods and cycles: in run state, where it executes (R271, R478). -/
def running (s : State) : Bool := s.runState && executes s

/-- TASK_PERIOD_START (R246): the tasks whose periods start at the tick, once. An exchange has its own instant. -/
def execTaskPeriodStart (s : State) : Host.Outcome State Fault Refusal :=
  .next (let t := reachTick s
    let due := dueTasks t
    if running t && !due.isEmpty && !atExchange t then item4 (startPeriods t due) else s)

/-! ### Forces (R257 to R261, R269) -/

/-- The width in bits of a force's target, none where R258 does not allow it. -/
def forceWidth (s : State) (f : Force) : Option Nat :=
  if f.kind = 0 then (tagOf s f.target).bind fun e => if e.out then none else some (8 * tagSize e.typ)
  else if f.target < 16 then some 1
  else s.prog.bind fun p => ((frameChannels p).find? fun c => c.1 = f.target).map (·.2.2)

/-- An entry of the force table. -/
def forceEntry (s : State) (i : Nat) : Force :=
  (alGet? s.forces i).getD { enable := false, kind := 0, target := 0, value := 0 }

/-- Whether the table is full for a SET that enables a force: all 1024 entries are in force, and the named one holds
another KIND or TARGET (R257, R258; DEDUCED, log 62). -/
def forcesFull (s : State) (i : Nat) (f : Force) : Bool :=
  let on := s.forces.filter (·.2.enable)
  f.enable && 1024 ≤ on.length && !(on.any fun e => e.1 = i && e.2.kind = f.kind && e.2.target = f.target)

/-- The refuse code of a SET, 0 where it is accepted (R258). -/
def forceCode (s : State) (i : Nat) (f : Force) (reserved : Bool) : Nat :=
  let isTs80 := f.kind = 0 && (match tagOf s f.target with | some e => e.typ = 12 | none => false)
  let others := s.forces.filter fun e => e.1 != i && e.2.enable
  if forcesFull s i f then 1
  else match forceWidth s f with
    | none => 2
    | some w =>
      if isTs80 || 2 ^ w ≤ f.value then 3
      else if reserved then 4
      else if f.enable && others.any (fun e => e.2.kind = f.kind && e.2.target = f.target) then 6
      else 0

/-- A SET: the state and the refuse code. -/
def forceSet (s : State) (i : Nat) (f : Force) (reserved : Bool) : State × Nat :=
  let c := forceCode s i f reserved
  if c = 0 then (applyForce s i (some f), 0) else (s, c)

/-- A CLEAR: the state and the refuse code. -/
def forceClear (s : State) (i : Nat) : State × Nat :=
  let f := forceEntry s i
  if f.enable then (applyForce s i none, 0) else (s, 5)

/-- The entry that SCN_FORCE_ENT and SCN_FORCE_VAL spell. -/
def regForce (s : State) : Force :=
  { enable := flag s F.SCN_FORCE_ENT_ENABLE, kind := getF s F.SCN_FORCE_ENT_KIND, target := getF s F.SCN_FORCE_ENT_TARGET,
    value := get64 s R.SCN_FORCE_VAL_LO R.SCN_FORCE_VAL_HI }

/-- The outcome of a command in SCN_FORCE_RES. -/
def showForceRes (r : State × Nat) : State := setF r.1 F.SCN_FORCE_RES_CODE r.2

/-- CMD 1: entry INDEX into the registers. -/
def forceRead (s : State) : State :=
  let f := forceEntry s (getF s F.SCN_FORCE_SEL_INDEX)
  let s := setF (setF (setF s F.SCN_FORCE_ENT_ENABLE (bNat f.enable)) F.SCN_FORCE_ENT_KIND f.kind) F.SCN_FORCE_ENT_TARGET f.target
  set64 s R.SCN_FORCE_VAL_LO R.SCN_FORCE_VAL_HI f.value

/-- A change of the active module goes to the standby with its tick, as a FORCE message (R259). -/
def forwardForce (s : State) (op i : Nat) (body : List Byte) (code : Nat) : State :=
  if code = 0 then
    forwardBody s 0x08 ((tickNow s + 1) * tickNs) (leBytes 1 op ++ leBytes 1 0 ++ leBytes 2 i ++ body)
  else s

/-- CMD 2. -/
def forceSetReg (s : State) : State :=
  let f := regForce s
  let i := getF s F.SCN_FORCE_SEL_INDEX
  let r := forceSet s i f false
  forwardForce (showForceRes r) 2 i (leBytes 4 (getReg s R.SCN_FORCE_ENT).toNat ++ leBytes 8 f.value) r.2

/-- CMD 3. -/
def forceClearReg (s : State) : State :=
  let i := getF s F.SCN_FORCE_SEL_INDEX
  let r := forceClear s i
  forwardForce (showForceRes r) 3 i [] r.2

/-- A write to SCN_FORCE_CMD. -/
def forceCmdWrite (s : State) (v : Word) : State :=
  checkedWrite s R.SCN_FORCE_CMD v fun s =>
    if flag s F.SCN_FORCE_RES_BUSY then cfgErr s
    else match bitsOf 1 0 v.toNat with
      | 1 => forceRead s
      | 2 => forceSetReg s
      | 3 => forceClearReg s
      | _ => s

/-- FORCE_READ: 1 written to SCN_FORCE_CMD (R269). -/
def execForceRead (s : State) : Host.Outcome State Fault Refusal := .next (forceCmdWrite s 1)
/-- FORCE_SET: 2 written to SCN_FORCE_CMD (R258). -/
def execForceSet (s : State) : Host.Outcome State Fault Refusal := .next (forceCmdWrite s 2)
/-- FORCE_CLEAR: 3 written to SCN_FORCE_CMD (R258). -/
def execForceClear (s : State) : Host.Outcome State Fault Refusal := .next (forceCmdWrite s 3)
/-- FORCE_APPLY: the first tick after an acceptance arrives (R259). -/
def execForceApply (s : State) : Host.Outcome State Fault Refusal := .next (if switchWaits s then reachTick s else s)

/-! ### A program takes over (R237 to R242, R263, R267) -/

/-- The initial bytes of an instance, as cells at its address (R239). -/
def initCells (p : Program) (i : InstRec) : List Host.Cell :=
  if i.init = 0xFFFFFFFF then []
  else (memSlice p.consts i.init (i.init + i.size)).map fun c => (c.1 - i.init + i.addr, c.2)

/-- The bytes of an instance of `n` bytes at `src` moved to `dst`. -/
def movedCells (m : Mem) (src dst n : Nat) : List Host.Cell := (memSlice m src (src + n)).map fun c => (c.1 - src + dst, c.2)

/-- The saved instance that a declared one takes its value from (R263, R267). -/
def sameInst (old : List InstRec) (i : InstRec) : Option InstRec :=
  old.find? fun o => o.id = i.id && o.hash = i.hash && o.kind = i.kind

/-- An instance lies in the retained window (R238). -/
def isRetained (i : InstRec) : Bool := i.addr < winNon

/-- Values by index of an I/O map, carried to another map that holds the same record. -/
def carryIx {α : Type} (old new : List IoRec) (l : List (Nat × α)) : List (Nat × α) :=
  l.filterMap fun e => ((old[e.1]?).bind fun r => new.findIdx? (· = r)).map fun j => (j, e.2)

/-- A program takes the place of the records that came by message, where the same record stays (R386, R387, R395). -/
def carrySer (old new : List IoRec) (x : Ser) : Ser :=
  { x with canRx := carryIx old new x.canRx, canTx := carryIx old new x.canTx, polls := carryIx old new x.polls }

/-- A task's registers for the program (R269). -/
def showTask (s : State) (p : Program) (t : Nat) : State :=
  match p.tasks.find? fun r => r.task = t with
  | none =>
    setFi (setReg s (F.SCN_TASK_CFG_CORE.at t) 0) F.SCN_TASK_STAT_STATE t 0
  | some r =>
    let v := 2 ^ 31 + r.core * 2 ^ 26 + r.prio * 2 ^ 20 + bNat r.halt * 2 ^ 19 + r.ovrMax * 2 ^ 12 + r.period
    setFi (setReg s (F.SCN_TASK_CFG_CORE.at t) (BitVec.ofNat 32 v)) F.SCN_TASK_STAT_STATE t tsIdle

/-- The runtime sets a check unit, which has no pip from then on (R239, R289, R321, R323). -/
def showChkUnit (s : State) (c : ChkUnitRec) : State :=
  let put := fun (s : State) (lo hi : Fld) (v : Nat) => setFi (setFi s lo c.unit v) hi c.unit (v / 2 ^ 32)
  let s := setFi (setReg s (F.CHK_CFG_WIDTH.at c.unit) (BitVec.ofNat 32 c.cfg)) F.CHK_STAT_PIP_VALID c.unit 0
  let s := put s F.CHK_POLY_LO_VALUE F.CHK_POLY_HI_VALUE c.poly
  let s := put s F.CHK_INIT_LO_VALUE F.CHK_INIT_HI_VALUE c.init
  let s := put s F.CHK_XOR_LO_VALUE F.CHK_XOR_HI_VALUE c.xor
  put s F.CHK_EXP_LO_VALUE F.CHK_EXP_HI_VALUE c.exp

/-- The check units that a pair reserves for digests (R289, R321). -/
def digestUnits : List ChkUnitRec := [6, 7].map fun u =>
  { unit := u, cfg := 0x0C000040, poly := 0x42F0E1EBA9EA3693, init := 0xFFFFFFFFFFFFFFFF, xor := 0xFFFFFFFFFFFFFFFF, exp := 0 }

/-- What the runtime takes from a program at its load (R242, R269); a pair ignores what it declares for units 6 and 7
(R321). It writes FIO_FILT and the fields of the check units whatever their block's LOCK says (R10, R415; DESIGN CHOICE,
log 70). -/
def showProgram (s : State) (p : Program) (slot : Nat) : State :=
  let s := setF (setF (setF s F.SCN_PROG_SERIAL_SERIAL p.serial) F.SCN_STATUS_PROG_SLOT slot) F.SCN_STATUS_RUN 1
  let s := setF (forAll s (List.range 16) fun s t => showTask s p t) F.SCN_STATUS_HALTED_ANY 0
  let s := forAll s p.iomap fun s r => match r with
    | .diFilter a b c d => [a, b, c, d].zipIdx.foldl (fun s e => setFi s F.FIO_FILT_FILT e.2 e.1) s
    | .gates g => setReg s R.CLK_GATE_PERI (getReg s R.CLK_GATE_PERI ||| BitVec.ofNat 32 g)
    | _ => s
  forAll s (p.chkUnits.filter fun c => !(isPair s && 6 ≤ c.unit)) showChkUnit

/-- Retain memory replaced by the given bytes; while MRAM writes are frozen the change waits in the journal (R175,
R464). -/
def setRetain (s : State) (kept : List Host.Cell) : State :=
  if flag s F.PWR_STATUS_FROZEN then
    let gone := (memSlice s.mem retainBase archBase ++ s.journal.filter fun c => retainBase ≤ c.1 && c.1 < archBase).map
      fun c => ((c.1, (0 : Byte)) : Host.Cell)
    { s with journal := (gone ++ kept).foldl (fun m c => alPut m c.1 c.2) s.journal }
  else { s with mem := memPutCells (memClear s.mem retainBase archBase) kept }

/-- A program installed with the instance memory it starts from; retain memory takes its layout (R175, R263), and an output that
a pulse record names is reported where the program binds it (R404). -/
def installProgram (s : State) (p : Program) (slot : Nat) (inst : Mem) : State :=
  let before := pulseClash s
  let old := match s.prog with | some q => q.iomap | none => []
  let kept := (memSlice inst winRet winNon).map fun c => (c.1 - winRet + retainBase, c.2)
  let s := { s with prog := some p, inst := inst, ser := carrySer old p.iomap s.ser,
                    cfg := { s.cfg with retDir := p.insts.filter isRetained } }
  clashEvents (showProgram (setRetain s kept) p slot) before

/-! ### The exchange (R265 to R268) -/

/-- The least common multiple of the declared periods in ns. -/
def commonNs (p : Program) : Nat := p.tasks.foldl (fun l r => Nat.lcm l (taskNs r)) 1

/-- Both programs declare the same tasks and every period alike (R19, R265). -/
def samePeriods (a b : Program) : Bool :=
  (tasksUp a).map (fun r => (r.task, r.period)) = (tasksUp b).map (fun r => (r.task, r.period)) &&
    a.netMs = b.netMs && a.dispMult = b.dispMult

/-- The first common period start at or after a time. -/
def commonAfter (p : Program) (t : Nat) : Nat := (t + commonNs p - 1) / commonNs p * commonNs p

/-- X set and shown. -/
def setX (s : State) (x : Exchange) (t : Nat) : State :=
  set64 { s with exch := some { x with confirmed := true, at_ := some t } } R.SCN_EXCH_AT_LO R.SCN_EXCH_AT_HI t

/-- A refused exchange shown and recorded (R265). -/
def exchRefused (s : State) (code : Nat) : State :=
  let s := setF s F.SCN_EXCH_REFUSE code
  let s := if s.exch.isSome then s else setF (setF s F.SCN_EXCH_STATE 3) F.SCN_STATUS_EXCH_PENDING 0
  evBit s F.SCN_EVENTS_EXCH_REFUSED 3 [code]

/-- An accepted exchange (R265, R266). -/
def exchAccepted (s : State) (slot : Nat) (p : Program) : State :=
  let x : Exchange := { slot := slot, prog := p, accepted := nowNs s, confirmed := false, at_ := none }
  let s := setF (setF (setF s F.SCN_EXCH_REFUSE 0) F.SCN_EXCH_STATE 1) F.SCN_STATUS_EXCH_PENDING 1
  if needsPeer s then { s with exch := some x } else setX s x (commonAfter p (nowNs s + 2 * netNs s))

/-- The request of R265 for a program slot: the refuse code, 0 where it is accepted. -/
def exchangeRequest (s : State) (slot : Nat) (v : Verdict) : State × Nat :=
  let base := imageSlot ikPROGRAM slot
  let (s, c) := checkImage s ikPROGRAM base none v.sigOk v.plain.isSome
  let s := if c = 0 then s else imageRefused s ikPROGRAM c
  let code := fun (n : Nat) => (exchRefused s n, n)
  match s.prog with
  | none => code (if c = 0 then 7 else 1)
  | some q =>
    if c ≠ 0 then code 1
    else match programPayload s base v.plain with
      | .error _ => code 3
      | .ok p =>
        if !samePeriods p q then code 2
        else if 60000000000 < commonNs p then code 4
        else if s.exch.isSome then code 6
        else (exchAccepted s slot p, 0)

/-- A pending exchange cancelled by a restart or a transfer to its slot (R268). -/
def cancelExchange (s : State) : State :=
  match s.exch with
  | none => s
  | some _ =>
    let s := setF (setF { s with exch := none } F.SCN_EXCH_STATE 3) F.SCN_STATUS_EXCH_PENDING 0
    evBit s F.SCN_EVENTS_EXCH_REFUSED 3 [0]

/-- EXCHANGE_CONFIRM_TIMEOUT: no report of the standby within 50 network cycles (R266). -/
def execExchangeConfirmTimeout (s : State) : Host.Outcome State Fault Refusal :=
  .next (match s.exch with
    | some x =>
      if !x.confirmed && decide (x.accepted + 50 * netNs s ≤ nowNs s) then exchRefused { s with exch := none } 5 else s
    | none => s)

/-- The standby's report that it holds the same image as valid: X is set (R266). -/
def exchConfirmed (s : State) : State :=
  match s.exch with
  | some x => if x.confirmed then s else setX s x (commonAfter x.prog (max (x.accepted + 2 * netNs s) (nowNs s + 1)))
  | none => s

/-- The output values of one program seen by another, by TAG and type. -/
def remapOut (old new : Program) (m : Mem) : Mem :=
  memPutCells [] ((new.tags.filter (·.out)).flatMap fun e =>
    match old.tags.find? fun o => o.tag = e.tag && o.out && o.typ = e.typ with
    | some o => movedCells m o.off e.off (tagSize e.typ)
    | none => [])

/-- Instances carried over at X (R267). -/
def exchangeInst (old new : Program) (m : Mem) : Mem :=
  memPutCells [] (new.insts.flatMap fun i => match sameInst old.insts i with
    | some o => movedCells m o.addr i.addr i.size
    | none => initCells new i)

/-- The events of instances that do not carry over (R267). -/
def instEvents (s : State) (old new : Program) : State :=
  let s := forAll s new.insts fun s i =>
    if old.insts.any (fun o => o.id = i.id) && (sameInst old.insts i).isNone then ev s blkSCN 0x84 3 [i.id] else s
  forAll s old.insts fun s o => if new.insts.any (fun i => i.id = o.id) then s else ev s blkSCN 0x85 3 [o.id]

/-- A force that the new directory does not admit is released (R267). -/
def reconcileForces (s : State) (old new : Program) : State :=
  let typ := fun (p : Program) (g : Nat) => (p.tags.find? fun e => e.tag = g && !e.out).map (·.typ)
  let stays := fun (f : Force) => f.kind = 1 || !f.enable || ((typ new f.target).isSome && typ new f.target = typ old f.target)
  let gone := s.forces.filter fun e => !stays e.2
  let keep := fun (l : List (Nat × Force)) => l.filter fun e => stays e.2
  let s := showForced (showForceCnt { s with forces := keep s.forces, forcesEff := keep s.forcesEff })
  forAll s gone fun s e => evBit s F.SCN_EVENTS_FORCE_RELEASED 4 [e.2.target]

/-- The exchange at X (R266, R267). -/
def exchangeAt (s : State) (x : Exchange) (old : Program) : State :=
  let due := tasksUp old
  let s := item1 (forAll s due endPeriod) due
  let s := forAll s due fun s r => if (scanOf s r.task).isSome then abortScan s r.task else s
  let s := reconcileForces (instEvents s old x.prog) old x.prog
  let s := { s with outImg := remapOut old x.prog s.outImg, inImg := [], exch := none,
                    tasks := s.tasks.map fun (k : Task) => ({ k with image := remapOut old x.prog k.image, nextInfo := 8 } : Task) }
  let s := installProgram { s with cfg := { s.cfg with progSlot := x.slot } } x.prog x.slot (exchangeInst old x.prog s.inst)
  let s := setF (setF s F.SCN_EXCH_STATE 2) F.SCN_STATUS_EXCH_PENDING 0
  let s := evBit s F.SCN_EVENTS_EXCH_DONE 2 [old.serial, x.prog.serial]
  let s := sampleField (qhcDone s 2 0 (nowNs s))
  let new := tasksUp x.prog
  item4 (if roleOf s = roSTANDBY then { s with red := { s.red with inputDue := new.map (·.task) } } else beginPeriods s new)

/-- EXCHANGE_INSTANT: X (R266). -/
def execExchangeInstant (s : State) : Host.Outcome State Fault Refusal :=
  .next (let t := reachTick s
    match t.exch, t.prog with
    | some x, some old => if running t && atExchange t then exchangeAt t x old else s
    | _, _ => s)

/-! ### Coinciding instants (R27) -/

/-- Items 1 and 2 of the tick, where they are still to come: an exchange, or the periods that start. -/
def items12 (s : State) : State :=
  match s.exch, s.prog with
  | some x, some old => if atExchange s then exchangeAt s x old else startPeriods s (dueTasks s)
  | _, _ => startPeriods s (dueTasks s)

/-- Items 1 to 4 of the tick, each where it is still to come and in their order; a ply that still runs stands at `sp`. -/
def items14 (s : State) (sp : StopPoint) : State :=
  if !running s then s
  else
    let s := if atExchange s || !(dueTasks s).isEmpty then items12 s else s
    item4 (if atCycle s then cycleInstant s sp else s)

/-- NETWORK_CYCLE_INSTANT: Tₖ, once, in run state on a module that executes, after the items before it (R20, R27, R271).
`steps`, `phase` and `its` say how far a ply that still runs has come. -/
def execNetworkCycleInstant (steps phase its : Nat) (s : State) : Host.Outcome State Fault Refusal :=
  .next (let t := reachTick s
    if running t && atCycle t then items14 t ⟨steps, phase, its⟩ else s)

end Sys2Proof.Machine
end

