-- ==== Sys2Proof/Machine/Reset.lean ====
section
/-!
DEFINITION. Counters, and the three kinds of reset (19 R468 to R471, 10 R262, 17 R420).
-/
namespace Sys2Proof.Machine

/-! ### Counters (R470) -/

/-- The counters that a cold restart or a block's CLR_CNT clears, with the number of their elements. -/
def counterFields : List (Fld × Nat) :=
  [(F.NSA_CNT_MISSED_COUNT, 1), (F.NSA_CNT_ABANDON_COUNT, 1), (F.NSA_CNT_RETRY_COUNT, 1), (F.NSA_CNT_DEADLINE_COUNT, 1),
   (F.NSA_CNT_PIVOT_COUNT, 1), (F.DPO_CNT_COMMIT_COUNT, 1), (F.DPO_CNT_SQUASH_COUNT, 1), (F.DPO_CNT_NOPLY_COUNT, 1),
   (F.DPO_CNT_APPLIED_COUNT, 1), (F.DPO_CNT_KEPT_COUNT, 1), (F.LPE_CNT_EVAL_COUNT, 1), (F.LPE_CNT_REGION_COUNT, 1),
   (F.LPE_CNT_SWITCH_COUNT, 1), (F.MTR_CNT_GAP_COUNT, 1), (F.MTR_CNT_THERM_MISS_COUNT, 1),
   (F.MTR_CNT_ARCH_LOST_COUNT, 1), (F.MTR_CNT_PULSE_LOST_COUNT, 1), (F.SCN_CNT_REROLL_COUNT, 1),
   (F.SCN_CNT_OVERRUN_COUNT, 1), (F.SCN_CNT_PROG_ERR_COUNT, 1), (F.SCN_CNT_PREEMPT_COUNT, 1),
   (F.SCN_TASK_OVR_VALUE, 16)] ++
  [(F.RED_CNT_SWITCH_COUNT, 1), (F.RED_CNT_MISMATCH_COUNT, 1), (F.RED_CNT_RESYNC_COUNT, 1), (F.RED_CNT_RETX_COUNT, 1),
   (F.RED_CNT_GCM_FAIL_COUNT, 1), (F.RED_CNT_LINK_DOWN_COUNT, 1), (F.SES_CNT_OK_COUNT, 1), (F.SES_CNT_AUTH_COUNT, 1),
   (F.SES_CNT_REPLAY_COUNT, 1), (F.SES_CNT_LATE_COUNT, 1), (F.SES_CNT_CRC_COUNT, 1), (F.SES_CNT_PIP_COUNT, 1),
   (F.SES_CNT_TXQ_FULL_COUNT, 1), (F.SES_CNT_ADMIT_COUNT, 1), (F.TIM_CNT_TXTS_LOST_COUNT, 1),
   (F.TIM_CNT_SWITCH_COUNT, 1), (F.TIM_CNT_STEP_COUNT, 1), (F.TIM_CNT_TC_FWD_COUNT, 1), (F.TIM_CNT_FOREIGN_COUNT, 1)] ++
  [(F.CAN_CNT_RX_OK_COUNT, 4), (F.CAN_CNT_TX_OK_COUNT, 4), (F.CAN_CNT_RX_OVF_COUNT, 4), (F.CAN_CNT_ERR_COUNT, 4),
   (F.CAN_CNT_BOFF_COUNT, 4), (F.UART_CNT_RX_OK_COUNT, 4), (F.UART_CNT_TX_OK_COUNT, 4), (F.UART_CNT_RX_OVF_COUNT, 4),
   (F.UART_CNT_CRC_COUNT, 4), (F.SEC_CNT_ATTR_DENY_COUNT, 1), (F.SEC_CNT_UPD_REFUSED_COUNT, 1),
   (F.SEC_CNT_IMG_REFUSED_COUNT, 1), (F.EVR_CNT_OVERWRITE_COUNT, 1), (F.EVR_CNT_UNREAD_COUNT, 1),
   (F.EVR_CNT_STATE_LOST_COUNT, 1), (F.EVR_CNT_BAD_SLOT_COUNT, 1), (F.EVR_DROP_COUNT, 8), (F.QUE_CORR_TOTAL_COUNT, 1),
   (F.QUE_STAT_CORR, 48), (F.QUE_STAT_UNCORR, 48), (F.QUE_STAT_PEAK, 48), (F.QUE_STALL_COUNT, 48)]

/-- Whether an address is an element of a field. -/
def Fld.covers (f : Fld) (n a : Nat) : Bool := (List.range n).any fun i => f.at i = a

/-- The bits of the register at an address that are counters. -/
def counterMask (a : Nat) : Nat :=
  counterFields.foldl (fun m e => if e.1.covers e.2 a then m ||| maskOf e.1.hi e.1.lo else m) 0

/-- Every counter of a list cleared. -/
def clearFields (s : State) (l : List (Fld × Nat)) : State :=
  forAll s l fun s e => forAll s (List.range e.2) fun s i => setFi s e.1 i 0

/-- The counters of a block, or of one CAN channel, cleared (CLR_CNT). -/
def clearCounters (s : State) (ctrl : Nat) : State :=
  let b := blockOf ctrl
  if b = 0x01 then setF s F.CLK_CNT_FALLBACK_COUNT 0
  else if b = 0x02 then setF (setF s F.PWR_CNT_DIP_COUNT 0) F.PWR_VIN_MIN_MV (getF s F.PWR_VIN_MV)
  else if b = 0x0D then
    forAll s (counterFields.filter fun e => blockOf e.1.addr = b) fun s e => setFi s e.1 (offOf ctrl / 0x4000) 0
  else clearFields s (counterFields.filter fun e => blockOf e.1.addr = b)

/-- The counters that neither a cold restart clears nor a save gives back, and the pulse backlogs (R402, R465, R470). -/
def otherSaved : List (Fld × Nat) :=
  [(F.CLK_CNT_FALLBACK_COUNT, 1), (F.PWR_CNT_DIP_COUNT, 1), (F.FIO_CNT_VALUE, 32), (F.MTR_PULSE_STAT_BACKLOG, 8)]

/-- The bits of the register at an address that a save keeps: the counters of every block, and pulse backlogs (R465). -/
def savedMask (a : Nat) : Nat :=
  otherSaved.foldl (fun m e => if e.1.covers e.2 a then m ||| maskOf e.1.hi e.1.lo else m) (counterMask a)

/-- Registers with their counter bits as they stand, for a save (R465). -/
def savedCounters (s : State) : List (Nat × Nat) :=
  (s.regs.map fun e => (e.1, e.2.toNat &&& savedMask e.1)).filter fun e => e.2 != 0

/-- Counters put back from a save, which lists those that are not zero; what they have counted since R gives way (R470). -/
def putCounters (s : State) (l : List (Nat × Nat)) : State :=
  forAll (clearFields s counterFields) l fun s e => setReg s e.1 (getReg s e.1 ||| BitVec.ofNat 32 (e.2 &&& counterMask e.1))

/-! ### The warm-restart save (R465, R467) -/

/-- The save that is due next, and whether it goes into area B: the areas are used in turn (R465). -/
def nextSave (s : State) : Nat × Bool :=
  match s.saveA, s.saveB with
  | none, none => (1, false)
  | some a, none => (a.seq + 1, true)
  | none, some b => (b.seq + 1, false)
  | some a, some b => (max a.seq b.seq + 1, decide (b.seq < a.seq))

/-- What a save holds, as it stands when the save completes (R465). -/
def saveNow (s : State) (seq : Nat) : Save :=
  { seq := seq, serial := match s.prog with | some p => p.serial | none => 0,
    hs := match s.nsa.model with | some m => m.hs | none => 0,
    time := s.boot.dipAt, committed := s.nsa.committed, table := s.dpo.table, mtrRegs := s.mtr.regs,
    pacc := s.mtr.pacc, counters := savedCounters s, valid := true, stale := false }

/-- A save put into its area, in place of what stood there. -/
def putSave (s : State) (v : Save) (toB : Bool) : State :=
  let lo := cfgPartBase + (if toB then 0x300000 else 0x100000)
  let s := { s with sec := { s.sec with cfgOver := s.sec.cfgOver.filter fun e => e.1 < lo || lo + 0x200000 ≤ e.1 } }
  if toB then { s with saveB := some v } else { s with saveA := some v }

/-- A save that is cut off, or that has not started: its area is invalid (R467). -/
def cutSave (s : State) : State :=
  if !(flag s F.PWR_STATUS_SAVING || s.boot.saveDue) then s
  else
    let n := nextSave s
    let s := putSave s { saveNow s n.1 with valid := false } n.2
    { s with boot := { s.boot with cutOff := true } }

/-! ### What a reset leaves (R469) -/

def rkFULL : Nat := 1
def rkWARM : Nat := 2
def rkCOLD : Nat := 3
def rsWARM : Nat := 1
def rsCOLD : Nat := 2

/-- The bits of RTC registers that the backup domain holds (R377). -/
def rtcKept (a : Nat) : Nat :=
  if a = R.RTC_STATUS then 0xBE
  else if a = R.RTC_EVENTS then 0xE
  else if [R.RTC_DATE, R.RTC_TIME, R.RTC_SUB, R.RTC_CNT_VAL, R.RTC_SET_DATE, R.RTC_SET_TIME, R.RTC_ALM_DATE,
    R.RTC_ALM_TIME, R.RTC_CNT_LOAD, R.RTC_TRIM].contains a then 0xFFFFFFFF
  else 0

/-- The bits of the register at an address that a reset of a kind keeps. -/
def keptMask (kind a : Nat) : Nat :=
  let all := 0xFFFFFFFF
  let cnt := if kind = rkWARM then counterMask a else 0
  match blockOf a with
  | 0x01 | 0x02 => if kind = rkFULL then 0 else all
  | 0x0F => if kind = rkWARM && a != R.FIO_CTRL && a != R.FIO_EVENTS then all else 0
  | 0x0C => rtcKept a
  | 0x08 => if a = R.RED_STATUS then maskOf 4 4 ||| maskOf 21 20 else cnt
  | _ => cnt

/-- The registers after a reset of a kind. -/
def resetRegs (kind : Nat) (l : List (Nat × Word)) : List (Nat × Word) :=
  l.foldl (fun m e =>
    let k := BitVec.ofNat 32 (keptMask kind e.1)
    amSet resetWord m e.1 ((e.2 &&& k) ||| (resetWord e.1 &&& ~~~k))) []

/-- The NSA after a reset: descriptors and the branch service mask stay, and plug tables in DRAM (R59, R78, R514);
what waits applies at the first instant of the restart, whose TB1 may stand lower. -/
def Nsa.after (n : Nsa) (kind : Nat) : Nsa :=
  { Nsa.reset with cycleDesc := n.cycleDesc, plyDesc := n.plyDesc, dispDesc := n.dispDesc,
                   pendDesc := n.pendDesc.map fun p => (0, p.2),
                   mask := n.mask, maskIds := n.maskIds,
                   pendMask := n.pendMask.map fun p => (0, p.2), plugs := if kind = rkWARM then n.plugs else [] }

/-- The loops after a reset: descriptors and accepted installs stay (R135); destinations keep their emitted values after
a WARM reset (R512). -/
def Lpe.after (l : Lpe) (kind : Nat) : Lpe :=
  { loops := l.loops.map fun e => (e.1, { e.2 with pendDesc := e.2.pendDesc.map fun p => (0, p.2),
                                                   pendMode := e.2.pendMode.map fun p => (0, p.2) }),
    groups := l.groups.map fun e => (e.1, { e.2 with pend := e.2.pend.map fun p => (0, p.2), winner := none }),
    emitted := if kind = rkWARM then l.emitted else [], due := [] }

/-- Metering after a reset: the configuration stays with what waits (R156, R158), and no register is cleared (R158); the
restore may give it another value. -/
def Mtr.after (m : Mtr) : Mtr :=
  { Mtr.reset with regs := m.regs, cfgChanged := m.cfgChanged, clears := m.clears.map fun c => (0, c.2),
                   latch := m.latch, elec := m.elec, therm := m.therm, tables := m.tables, subs := m.subs, pulses := m.pulses,
                   stored := m.stored,
                   pend := m.pend.map fun p => (0, p.2), serial := m.serial }

/-- Pair operation after a reset: the keeper's latches, its hold timer, the peer's line, and the lockout stay (R294, R469). -/
def Red.after (r : Red) (now : Nat) (cold : Bool) : Red :=
  { Red.reset with fall := r.fall.map fun t => t - now, latched := r.latched, holdOver := r.holdOver,
                   lastSwitch := r.lastSwitch.map fun t => t - now,
                   passPass := r.passPass, keeperTest := r.keeperTest, lockedOut := r.lockedOut && !cold }

/-- The field stages after a WARM reset: what R405 turned off keeps the rest of its 100 ms (R469). -/
def Fio.after (x : Fio) (now : Nat) : Fio :=
  { x with unbound := false, capTick := 0, chOff := x.chOff.map fun e => (e.1, e.2 - now),
           grpOff := x.grpOff.map fun e => (e.1, e.2 - now) }

/-- The field of R417 that a fuse word belongs to, as its first word. -/
def fuseField (w : Nat) : Nat := ([76, 68, 60, 52, 36, 20, 4].find? fun b => b ≤ w).getD w

/-- The burns of the field that burns next. -/
def nextBurn (s : State) : List (Nat × Nat) :=
  match s.sec.burning with
  | [] => []
  | b :: _ => s.sec.burning.takeWhile fun e => fuseField e.1 = fuseField b.1

/-- Bits of a fuse word burned. -/
def burnWord (s : State) (w mask : Nat) : State :=
  { s with sec := { s.sec with fuses := amSet (fun _ => 0) s.sec.fuses w (fuseWord s w ||| mask) } }

/-- A fuse burn that a reset interrupts leaves part of its bits burned, and which is free (R420, assumption 8). -/
def cutBurns (s : State) : State :=
  if flag s F.FUSE_STATUS_BURNING then
    forAll s (nextBurn s) fun s b =>
      let (v, s) := takeFree s
      burnWord s b.1 (b.2 &&& v)
  else s

/-- The MRAM unit that a supply warning found in flight completes (R464, R467): a key-store copy whose write has started
(R436, R471 step 2), or an event record. What waits for writes to resume is lost. -/
def settleCopy (s : State) : State :=
  match s.sec.msg with
  | some m =>
    if m.written || (flag s F.PWR_STATUS_FROZEN && s.boot.unit ≠ 2) then s
    else
      let c : KsCopy := { counter := m.counter, slots := m.image }
      putCopy s (bNat m.toB) (some c)
  | none => s

/-- The unit in flight completes at a reset. -/
def settleUnit (s : State) : State := if s.boot.unit = 1 then writeRecord s false else settleCopy s

/-- The security block after a reset: fuses, stored copies and owner keys stay. -/
def Sec.after (x : Sec) : Sec :=
  { x with keys := [], repair := none, imageKey := false, msg := none, burning := [], commits := [], gen := 1,
           remask := 0, shares := [] }

/-- The records that wait in the recorder's buffer are carried in DRAM over a WARM or COLD reset, and lost in a FULL one
(R471); a retired slot is never used again (R446). -/
def Evr.after (e : Evr) (kind : Nat) : Evr :=
  { Evr.reset with retired := e.retired,
                   carried := if kind = rkFULL then [] else e.carried ++ e.buf.map fun r => { r with deferred := true } }

/-- Step 3 of R471: the blocks of R469 are reset. What waited for MRAM writes to resume is gone: a retained variable holds what
was committed before the supply warning (R175, R464). -/
def resetBlocks (s : State) (kind : Nat) (cold : Bool) : State :=
  let full := decide (kind = rkFULL)
  let keepFio := decide (kind = rkWARM)
  { s with regs := resetRegs kind s.regs, hiLatch := [],
           mem := if full then memKeep (fun a => a < 0xE0000000) s.mem else s.mem,
           inst := if full then [] else s.inst, mbox := if full then [] else s.mbox,
           inImg := [], outImg := if keepFio then s.outImg else [],
           journal := [], cfg := s.boot.stored.getD s.cfg,
           cores := Vector.replicate 6 Core.reset, tasks := Vector.replicate 16 Task.reset, prog := none,
           irqs := [], runtimeUp := false, runState := false, memFault := false,
           nsa := s.nsa.after kind, dpo := Dpo.reset, lpe := s.lpe.after kind, mtr := s.mtr.after,
           ses := { Ses.reset with epochs := s.ses.epochs, txLast := s.ses.txLast },
           qhc := Qhc.reset, net := NetCfg.reset, que := [], sec := s.sec.after,
           red := s.red.after (tb0Ns s) cold,
           tim := Tim.reset, evr := s.evr.after kind,
           rtc := { s.rtc with edge := s.rtc.edge - s.tim.tb0, cmd := none, setAt := none, trimDue := none }, ser := Ser.reset,
           fio := if keepFio then s.fio.after (tb0Ns s)
             else { Fio.reset with latch := s.fio.latch, safe := s.fio.safe, emitted := s.fio.emitted },
           exch := none }

/-- The bookkeeping of a reset that begins: its kind, the causes, and the restart that follows (R468). -/
def bootAfter (s : State) (kind causes : Nat) : Boot :=
  let ran := s.boot.ranProg || getF s F.SCN_STATUS_RUN = 1
  let warm := kind = rkWARM || (kind = rkFULL && ran && flag s F.SYS_CFG_PWR_WARM)
  let b := s.boot
  { b with stage := 0, kind := kind, causes := causes, restart := if warm then rsWARM else rsCOLD,
           qualified := b.qualified && kind != rkFULL, power := b.power && kind != rkFULL, linkAt := none, saveSeq := 0,
           waitOver := false, tb1Seen := false,
           strap := if kind = rkFULL then none else b.strap, network := false, ranProg := ran,
           switching := if kind = rkFULL then [] else b.switching, sysFault := [], resetDue := none, ports := [],
           runtimeAt := 0, before := 0, recovery := [], effect := false, unit := 0, saveDue := false,
           stored := if kind = rkFULL then none else b.stored }

/-- The CAUSE bits of SYS_RESET_CAUSE. -/
def caPOWER : Nat := 0
def caSUPPLY : Nat := 1
def caCLKREF : Nat := 2
def caPLL : Nat := 3
def caKEEPER : Nat := 4
def caRUNTIME : Nat := 5
def caSOFTWARE : Nat := 6
def caHOST : Nat := 7
def caSYSCORE : Nat := 8
def caOVERTEMP : Nat := 9

/-- A reset begins (R471 steps 1 to 3): the token falls, the unit in flight completes, and the blocks are reset. Scans in
progress are undone (R175), and an exchange that waits is cancelled (R268). A measurement that main power
fails in ends in MEAS_ERR (R374, R376), and a save that a FULL reset cuts off is invalid (R467). -/
def enterReset (s : State) (kind causes : Nat) : State :=
  let s := if kind = rkFULL then cutSave s else s
  let s := cancelExchange (dropToken (linkFall (forAll s (List.range 16) undoScan)))
  let s := cutBurns (settleUnit s)
  let b := bootAfter s kind causes
  let measured := flag s F.RTC_STATUS_MEAS_RUN && causes.testBit caSUPPLY
  let s := resetBlocks s kind (b.restart = rsCOLD)
  let s := if measured then setF s F.RTC_EVENTS_MEAS_ERR 1 else s
  setDrive { s with boot := b } (if s.red.latched then (if s.red.holdOver then drSAFE else drLATCHED) else drOFF)

/-- A reset of a kind asked for with a cause: during a save, a WARM or COLD reset waits for it (R467); in a reset that
has not released, a FULL one takes over. -/
def beginReset (s : State) (kind cause : Nat) : State :=
  let s := { s with boot := { s.boot with causes := s.boot.causes ||| 2 ^ cause } }
  if s.boot.stage = 0 && (kind != rkFULL || s.boot.kind = rkFULL) then s
  else if kind != rkFULL && (flag s F.PWR_STATUS_SAVING || s.boot.saveDue) then
    { s with boot := { s.boot with resetDue := some (match s.boot.resetDue with | some k => k | none => kind) } }
  else enterReset s kind s.boot.causes

/-- The warm restart that follows a give-up begins once the latches are released or at the safe values (R276, R295). -/
def restartIfReleased (s : State) : State :=
  match s.red.restartDue with
  | some c => if s.red.latched && !s.red.holdOver then s else beginReset s rkWARM c
  | none => s

/-- SYS_RESET (R468, R472): a wrong key discards the write. -/
def resetWrite (s : State) (v : Word) : State :=
  checkedWrite s R.SYS_RESET v fun s =>
    if bitsOf 15 8 v.toNat ≠ 0xA5 then cfgErr s
    else match bitsOf 1 0 v.toNat with
      | 1 => beginReset s rkWARM caSOFTWARE
      | 2 => beginReset s rkCOLD caSOFTWARE
      | 3 => beginReset s rkFULL caSOFTWARE
      | _ => s

end Sys2Proof.Machine
end

