-- ==== Sys2Proof/Machine/Power.lean ====
section
/-!
DEFINITION. The clocks, the gates, the supply and the warm-restart save (19 R455 to R474, 22 R498).
-/
namespace Sys2Proof.Machine

/-! ### PLLs and clock sources (R455 to R460) -/

/-- The CLK_SRC bits of the domains that a PLL feeds (R455). -/
def pllDomains (p : Nat) : List Nat := nthD [[0, 1], [2], [3, 4, 5, 6, 7], [8, 9], [10, 11, 12, 13, 14]] p []

/-- The PLL that feeds a domain. -/
def domainPll (b : Nat) : Nat := ((List.range 5).find? fun p => (pllDomains p).contains b).getD 0

/-- The frequency of a PLL in kHz, and the divider of each domain (R455): a domain runs at their quotient while its
CLK_SRC bit is 1, and else at the 25 MHz of REF. -/
def pllKHz (p : Nat) : Nat := nthD [3200000, 2400000, 4000000, 12890625, 6000000] p 0
def domainDiv (b : Nat) : Nat := nthD [2, 2, 2, 4, 5, 16, 20, 20, 80, 32, 12, 75, 48, 120, 200] b 1

/-- A PLL is locked. -/
def pllLocked (s : State) (p : Nat) : Bool := (getF s F.CLK_STATUS_PLL_LOCK).testBit p

/-- The lock bit of a PLL. -/
def setLock (s : State) (p : Nat) (on : Bool) : State :=
  let v := getF s F.CLK_STATUS_PLL_LOCK
  let w := 2 ^ p
  setF s F.CLK_STATUS_PLL_LOCK (if on then v ||| w else v &&& (31 - w))

/-- Every PLL is locked. -/
def allLocked (s : State) : Bool := getF s F.CLK_STATUS_PLL_LOCK = 31

/-- Domains ask for a source: CLK_SRC shows it, and SWITCHING reads 1 until the last has switched (R459). -/
def requestSwitch (s : State) (bits : List Nat) (pll : Bool) : State :=
  let v := getF s F.CLK_SRC_PLL
  let due := bits.filter fun b => v.testBit b != pll
  let w := due.foldl (fun w b => if pll then w ||| 2 ^ b else w &&& (0x7FFF - 2 ^ b)) v
  let sw := (s.boot.switching.filter fun e => !due.contains e.1) ++ due.map fun b => (b, pll)
  setF (setF { s with boot := { s.boot with switching := sw } } F.CLK_SRC_PLL w) F.CLK_STATUS_SWITCHING (bNat (sw != []))

/-- The cycle count of a qualification by strap code (R456, R457). -/
def qualCycles (code : Nat) : Nat :=
  nthD [65536, 1024, 4096, 16384, 262144, 1048576, 4194304, 16777216] code 65536

/-- CLKREF_QUALIFIED (R456, R457): `recovery` tells that RECOVERY_N was low at the start, which takes N from the strap; the
strap is read once per full reset, and `code` is what that reading gives. -/
def execClkrefQualified (recovery : Bool) (code : Fin 8) (s : State) : Host.Outcome State Fault Refusal :=
  .next (if s.boot.stage = 0 && s.boot.kind = rkFULL && !s.boot.qualified then
    let strap := s.boot.strap.getD code.val
    let c := if recovery then strap else 0
    let s := setF { s with boot := { s.boot with qualified := true, strap := some strap } } F.CLK_STATUS_REF_OK 1
    setF (setF s F.CLK_STATUS_QUAL_CODE c) F.CLK_QUAL_N (qualCycles c)
  else s)

/-- PLL_LOCK (R456, R460): a PLL locks once the reference is qualified. -/
def execPllLock (p : Fin 5) (s : State) : Host.Outcome State Fault Refusal :=
  .next (if flag s F.CLK_STATUS_REF_OK then setLock s p.val true else s)

/-- The reference is no longer qualified; every PLL is without lock. -/
def unqualify (s : State) : State :=
  let s := { s with boot := { s.boot with qualified := false } }
  setF (setF s F.CLK_STATUS_REF_OK 0) F.CLK_STATUS_PLL_LOCK 0

/-- PLL_LOCK_TIMEOUT (R456): qualification starts again; the event waits until the module runs. -/
def execPllLockTimeout (p : Fin 5) (s : State) : Host.Outcome State Fault Refusal :=
  .next (if s.boot.stage = 0 && s.boot.kind = rkFULL && s.boot.qualified && !pllLocked s p.val then
    let s := setF (unqualify s) F.CLK_EVENTS_PLL_UNLOCK 1
    { s with boot := { s.boot with pllLate := s.boot.pllLate ++ [p.val] } }
  else s)

/-- CLKREF_LOST (R458). -/
def execClkrefLost (s : State) : Host.Outcome State Fault Refusal :=
  .next (if flag s F.CLK_STATUS_REF_OK then unqualify (beginReset (setF s F.CLK_EVENTS_REF_LOST 1) rkFULL caCLKREF) else s)

/-- PLL_UNLOCK (R460). -/
def execPllUnlock (p : Fin 5) (s : State) : Host.Outcome State Fault Refusal :=
  .next (if flag s F.CLK_STATUS_REF_OK && pllLocked s p.val then
    let s := requestSwitch (setLock s p.val false) (pllDomains p.val) false
    beginReset (setF s F.CLK_EVENTS_PLL_UNLOCK 1) rkWARM caPLL
  else s)

/-- PLL_RELOCK_TIMEOUT (R460): the reset becomes a FULL one. -/
def execPllRelockTimeout (p : Fin 5) (s : State) : Host.Outcome State Fault Refusal :=
  .next (if s.boot.stage = 0 && s.boot.kind != rkFULL && !pllLocked s p.val then beginReset s rkFULL caPLL else s)

/-- CLOCK_SWITCH_DONE (R459): a domain takes its first edge from the new clock, after a fallback or not. -/
def execClockSwitchDone (b : Fin 15) (fallback : Bool) (s : State) : Host.Outcome State Fault Refusal :=
  .next (if s.boot.switching.any fun e => e.1 = b.val then
    let sw := s.boot.switching.filter fun e => e.1 != b.val
    let s := setF { s with boot := { s.boot with switching := sw } } F.CLK_STATUS_SWITCHING (bNat (sw != []))
    if fallback then bump (setF s F.CLK_EVENTS_SW_FALLBACK 1) F.CLK_CNT_FALLBACK_COUNT else s
  else s)

/-- A write to CLK_SRC (R459). -/
def clkSrcWrite (s : State) (v : Word) : State :=
  checkedWrite s R.CLK_SRC v fun s =>
    let want := (List.range 15).filter fun b => v.toNat.testBit b
    if flag s F.CLK_STATUS_SWITCHING || want.any (fun b => !pllLocked s (domainPll b)) then cfgErr s
    else requestSwitch (requestSwitch s want true) ((List.range 15).filter fun b => !v.toNat.testBit b) false

/-- CLK_SRC_WRITE (R459). -/
def execClkSrcWrite (v : BitVec 32) (s : State) : Host.Outcome State Fault Refusal := .next (clkSrcWrite s v)

/-! ### Gates (R461, R462) -/

/-- The registers of an address range at their reset values. -/
def resetRange (s : State) (lo hi : Nat) : State :=
  { s with regs := s.regs.filter fun e => e.1 < lo || hi ≤ e.1, hiLatch := s.hiLatch.filter fun e => e.1 < lo || hi ≤ e.1 }

/-- Ethernet ports lose their links with their gates. -/
def portsDown (s : State) (ps : List Nat) : State :=
  { s with boot := { s.boot with ports := s.boot.ports.filter fun p => !ps.contains p } }

/-- The peripheral of a gate bit takes the state that its reset gives (R461). -/
def periReset (s : State) (b : Nat) : State :=
  if h : b < 4 then
    let base := R.CAN_CTRL + 0x4000 * b
    { resetRange s base (base + 0x4000) with ser := { s.ser with can := s.ser.can.set b CanCh.reset h } }
  else if h : b - 4 < 4 then
    let base := ctlBase + 0xE0000 + 0x400 * (b - 4)
    { resetRange s base (base + 0x400) with ser := { s.ser with uart := s.ser.uart.set (b - 4) UartCh.reset h } }
  else if b = 8 then portsDown s [6, 7, 8, 9, 10, 11, 12, 13]
  else if b ≤ 12 then portsDown s [b - 7]
  else if b ≤ 14 then portsDown s [b - 13]
  else if b = 15 then
    let s := resetRange s (ctlBase + 0x140000) (ctlBase + 0x150000)
    { s with qhc := { s.qhc with pcieUp := false, outSeen := false, outBox := [], outQ := [], inFull := false, inBox := [] } }
  else resetRange (resetRange s (ctlBase + 0xF0200) (ctlBase + 0xF0204)) (ctlBase + 0xF0240) (ctlBase + 0xF0270)

/-- A write to CLK_GATE_PERI (R461). -/
def gatePeriWrite (s : State) (v : Word) : State :=
  checkedWrite s R.CLK_GATE_PERI v fun s =>
    let old := (getReg s R.CLK_GATE_PERI).toNat
    let s := plainWrite s R.CLK_GATE_PERI v
    forAll s ((List.range 17).filter fun b => old.testBit b && !v.toNat.testBit b) periReset

/-- GATE_PERI_WRITE (R461). -/
def execGatePeriWrite (v : BitVec 32) (s : State) : Host.Outcome State Fault Refusal := .next (gatePeriWrite s v)

/-- The parent of each child bit of CLK_GATE_ENG (R462). -/
def engParent (b : Nat) : Option Nat :=
  if 1 ≤ b && b ≤ 8 then some 0 else if 10 ≤ b && b ≤ 12 then some 9 else if 14 ≤ b && b ≤ 16 then some 13 else none

/-- The solver runs a job. -/
def solverBusy (s : State) : Bool :=
  s.nsa.hyd.isSome || s.nsa.ply.isSome || s.nsa.studies != [] || s.dpo.job.isSome || s.nsa.validating != []

/-- A key that the GCM engine holds: of a session, of a secure association, of the Furov link, or of the latest image, or for
an authenticated message (R430, R431, R434, R435). -/
def gcmHolds (s : State) : Bool :=
  s.ses.live.any (fun e => e.2.key != []) || s.qhc.macKey != [] || s.red.furovKey.isSome || s.sec.imageKey || s.sec.msg.isSome

/-- An engine runs no job or unit and holds no key (R431, R462). A cluster runs the jobs whose classes have it. -/
def engIdle (s : State) (b : Nat) : Bool :=
  if b = 0 then !solverBusy s
  else if b ≤ 8 then !(busyClusters s).testBit (b - 1)
  else if b = 10 then s.lpe.due = []
  else if b = 11 then s.mtr.latching.isNone
  else if b = 12 then (List.range 8).all fun u => getFi s F.CHK_STAT_BUSY u = 0
  else if b = 14 then !gcmHolds s
  else if b = 15 then s.evr.sealKey.isNone && s.sec.msg.isNone
  else if b = 16 then s.sec.msg.isNone
  else true

/-- The two conditions of R462 on a write. -/
def engAccepted (s : State) (v : Nat) : Bool :=
  let old := (getReg s R.CLK_GATE_ENG).toNat
  (List.range 17).all fun b =>
    (!v.testBit b || (match engParent b with | some p => v.testBit p | none => true)) &&
    (!(old.testBit b && !v.testBit b) ||
      (engIdle s b && (List.range 17).all fun c => engParent c != some b || !v.testBit c))

/-- A write to CLK_GATE_ENG (R462). -/
def gateEngWrite (s : State) (v : Word) : State :=
  checkedWrite s R.CLK_GATE_ENG v fun s =>
    if engAccepted s v.toNat then plainWrite s R.CLK_GATE_ENG v else setF (cfgErr s) F.CLK_EVENTS_GATE_REFUSED 1

/-- GATE_ENG_WRITE (R462). -/
def execGateEngWrite (v : BitVec 32) (s : State) : Host.Outcome State Fault Refusal := .next (gateEngWrite s v)

/-! ### The supply (R463 to R467) -/

/-- The MRAM unit that a warning finds in flight, where there is one to complete (R464). -/
def unitInFlight (s : State) (unit : Nat) : Nat :=
  let there : Bool := if unit = 1 then !flag s F.EVR_STATUS_RESTORING && (takeRecord s).isSome
    else if unit = 2 then (match s.sec.msg with | some m => !m.written | none => false)
    else false
  if there then unit else 0

/-- A supply warning (R463, R464, R465): `unit` is the MRAM unit in flight, which still completes: 1 an event record, 2 a
key-store copy. A warning that stands is not repeated; there is no save before run state. -/
def supplyWarns (s : State) (unit : Nat) : State :=
  if flag s F.PWR_STATUS_WARN || (s.boot.stage = 0 && s.boot.kind = rkFULL) then s
  else
    let s := setF (setF (setF s F.PWR_STATUS_WARN 1) F.PWR_EVENTS_WARN 1) F.PWR_STATUS_FROZEN 1
    let s := raiseIrq (setF s F.EVR_STATUS_FROZEN 1) 72
    let s := deferWaiting { s with boot := { s.boot with dipAt := nowNs s, dipMin := getF s F.PWR_VIN_MV,
                                                         unit := unitInFlight s unit, stored := some s.cfg } }
    showHealth (if s.runState then
        startSave (setF { s with boot := { s.boot with saveDue := true } } F.PWR_STATUS_SAVE_VALID 0)
      else s)

/-- SUPPLY_WARNING (R463, R464, R465). -/
def execSupplyWarning (unit : Fin 3) (s : State) : Host.Outcome State Fault Refusal := .next (supplyWarns s unit.val)

/-- The save completes; a reset that waits for it begins (R465, R467). -/
def saveDone (s : State) : State :=
  if !flag s F.PWR_STATUS_SAVING then s
  else
    let n := nextSave s
    let s := putSave s (saveNow s n.1) n.2
    let s := setF (setF s F.PWR_STATUS_SAVING 0) F.PWR_STATUS_SAVE_VALID 1
    match s.boot.resetDue with
    | some k => enterReset { s with boot := { s.boot with resetDue := none } } k s.boot.causes
    | none => s

/-- WARM_SAVE_DONE (R465): the save follows the unit in flight. -/
def execWarmSaveDone (s : State) : Host.Outcome State Fault Refusal := .next (if s.boot.unit = 0 then saveDone s else s)

/-- The latest save is marked stale (R466). -/
def markStale (s : State) : State :=
  match s.saveA, s.saveB with
  | some a, some b => if a.seq < b.seq then putSave s { b with stale := true } true else putSave s { a with stale := true } false
  | some a, none => putSave s { a with stale := true } false
  | none, some b => putSave s { b with stale := true } true
  | none, none => s

/-- The repair of a key-store copy that waited for writes to resume (R436, R467). -/
def repairCopy (s : State) : State :=
  match s.sec.repair with
  | some i => putCopy { s with sec := { s.sec with repair := none } } i (ksCopy s (1 - i))
  | none => s

/-- Writes resume (R466): the save is stale, the journal and what else waited is written, and the dip is recorded. -/
def supplyRecovered (s : State) (minMv us : Nat) : State :=
  let s := if flag s F.PWR_STATUS_SAVE_VALID then setF (markStale s) F.PWR_STATUS_SAVE_VALID 0 else s
  let s := repairCopy (mramCells { s with journal := [], boot := { s.boot with unit := 0, saveDue := false, stored := none } } s.journal)
  let s := setF (setF (setF s F.PWR_STATUS_FROZEN 0) F.PWR_STATUS_WARN 0) F.EVR_STATUS_FROZEN 0
  showHealth (bump (ev s blkPWR 0x80 4 [minMv, us]) F.PWR_CNT_DIP_COUNT)

/-- SUPPLY_RECOVERY (R466): a save that runs completes first. -/
def execSupplyRecovery (minMv us : Nat) (s : State) : Host.Outcome State Fault Refusal :=
  .next (if flag s F.PWR_STATUS_WARN then supplyRecovered (saveDone s) minMv us else s)

/-- The module has lost its power: its latches cannot hold, its hold timer is cleared, and its outputs are
off (R273, R275, R280, R298, R469). -/
def powerLost (s : State) : State :=
  setDrive { s with red := { s.red with latched := false, holdOver := false, fall := none, lastSwitch := none } } drOFF

/-- The reset level (R463, R467): `lost` tells that the hold-up no longer carries the module either (R280). -/
def supplyResets (s : State) (lost : Bool) : State :=
  let s := beginReset s rkFULL caSUPPLY
  let s := setF { s with boot := { s.boot with power := false } } F.PWR_STATUS_HOLDUP_OK 0
  if lost then powerLost s else s

/-- SUPPLY_RESET_LEVEL (R463, R467). -/
def execSupplyResetLevel (lost : Bool) (s : State) : Host.Outcome State Fault Refusal := .next (supplyResets s lost)

/-- The supervisor's comparison of the bus at a 250 µs tick (R463): the reset level, a warning, whose unit in flight is free
(assumption 8), or the recovery from one. -/
def compareVin (s : State) (mv : Nat) : State :=
  if mv < 12000 then supplyResets s false
  else if flag s F.PWR_STATUS_WARN then
    let low := min s.boot.dipMin mv
    if 17000 ≤ mv then supplyRecovered (saveDone s) low ((nowNs s - s.boot.dipAt) / 1000)
    else { s with boot := { s.boot with dipMin := low } }
  else if mv < 16000 then
    let (v, s) := takeFree s
    supplyWarns s (v % 3)
  else s

/-- SUPPLY_OVERVOLTAGE (R467, R474). -/
def execSupplyOvervoltage (s : State) : Host.Outcome State Fault Refusal := .next (evBit s F.PWR_EVENTS_OVER 4 [])

/-- POWER_GOOD (R463): G of R475. -/
def execPowerGood (s : State) : Host.Outcome State Fault Refusal :=
  .next (setF { s with boot := { s.boot with power := true } } F.PWR_STATUS_HOLDUP_OK 1)

/-- OVERTEMP_RESET (R498). -/
def execOvertempReset (s : State) : Host.Outcome State Fault Refusal :=
  .next (let s := beginReset s rkFULL caOVERTEMP
    { s with boot := { s.boot with hot := true } })

/-- OVERTEMP_RELEASE (R498). -/
def execOvertempRelease (s : State) : Host.Outcome State Fault Refusal :=
  .next { s with boot := { s.boot with hot := false } }

/-! ### Resets asked for (R468) -/

/-- Two hardware faults of one system core within one second (R468). -/
def sysCoreFailed (s : State) : Bool :=
  [4, 5].any fun c =>
    let ts := (s.boot.sysFault.filter fun e => e.1 = c).map (·.2)
    ts.any fun t => 2 ≤ (ts.countP fun u => t ≤ u && u ≤ t + 1000000000)

/-- RESET_WARM (R468): `src` 0 a write of SYS_RESET with KIND 1, 1 a host restart command, 2 the faults of a system
core. -/
def execResetWarm (src : Fin 3) (s : State) : Host.Outcome State Fault Refusal :=
  .next (match src with
    | 0 => resetWrite s 0xA501
    | 1 => beginReset s rkWARM caHOST
    | 2 => if sysCoreFailed s then beginReset s rkWARM caSYSCORE else s)

/-- RESET_COLD (R468): a write of SYS_RESET with KIND 2, or a host cold-restart command. -/
def execResetCold (host : Bool) (s : State) : Host.Outcome State Fault Refusal :=
  .next (if host then beginReset s rkCOLD caHOST else resetWrite s 0xA502)

/-- RESET_FULL (R468): a write of SYS_RESET with KIND 3. -/
def execResetFull (s : State) : Host.Outcome State Fault Refusal := .next (resetWrite s 0xA503)

end Sys2Proof.Machine
end

