-- ==== Sys2Proof/Machine/Boot.lean ====
section
/-!
DEFINITION. From the release of reset to run state: boot, the start of the runtime, the restore, and the restart kinds
(10 R262 R263, 17 R416 to R434, 19 R465 R471, 20 R475 to R484).
-/
namespace Sys2Proof.Machine

/-! ### Release (R471 step 5, R270, R344, R416) -/

/-- The fuses shown as read at a reset: DEVICE_SEED reads zero (R417, R438). -/
def showFuses (s : State) : State :=
  let s := forAll s (List.range 128) fun s w => setFi s F.FUSE_WORD_VALUE w (if 52 ≤ w && w ≤ 59 then 0 else fuseWord s w)
  let s := setF (setF s F.FUSE_RT_CNT_VALUE (rtCnt s)) F.FUSE_PG_CNT_VALUE (pgCnt s)
  setF { s with prot := fuseWord s 1 } F.SEC_STATUS_LIFECYCLE (lifecycle s)

/-- TB1 seeded from TB5 (R344). -/
def seedTb1 (s : State) : State :=
  if flag s F.RTC_STATUS_OSF then stepTb1 s 0
  else stepTb1 s (((tb5Ns s : Int) + s.cfg.taiOffset * 1000000000).toNat * tbUnit)

/-- Nothing holds the release back (R456, R460, R463, R498). -/
def mayRelease (s : State) : Bool :=
  s.boot.stage = 0 && allLocked s && (s.boot.kind != rkFULL || (s.boot.qualified && s.boot.power && !s.boot.hot))

/-- SYS_RESET_CAUSE loaded; whether a save is used shows at the restore. -/
def loadCause (s : State) : State :=
  let s := setF (setF s F.SYS_RESET_CAUSE_KIND s.boot.kind) F.SYS_RESET_CAUSE_RESTART s.boot.restart
  setF s F.SYS_RESET_CAUSE_CAUSE s.boot.causes

/-- RESET_RELEASE: R (R471, R425). `slot` is the strap SLOT_ID, `before` the ns from G or E to R; the boot ROM moves
every domain to its PLL and sets the PCIE gate. -/
def execResetRelease (slot : Fin 4) (before : Nat) (s : State) : Host.Outcome State Fault Refusal :=
  .next (if mayRelease s then
    let s := setF (loadCause s) F.RED_STATUS_POSITION slot.val
    let s := if s.boot.cutOff then setF s F.PWR_EVENTS_SAVE_FAIL 1 else s
    let ago := fun (t : Option Int) => t.map fun (x : Int) => x - (before : Int)
    let s := { s with red := { s.red with fall := ago s.red.fall, lastSwitch := ago s.red.lastSwitch } }
    let s := { s with boot := { s.boot with stage := 1, before := before, cutOff := false, causes := 0, ranProg := false } }
    let s := requestSwitch (seedTb1 (showFuses s)) (List.range 15) true
    let s := setF (setF s F.CLK_GATE_PERI_PCIE 1) F.EVR_STATUS_FROZEN (getF s F.PWR_STATUS_FROZEN)
    let s := if slot.val = 3 then ev s blkRED 0x80 7 [] else s
    showHealth s
  else s)

/-! ### The start of the runtime (R425, R426, R427, R434) -/

/-- A seed of the identity of the generation in force (R427). -/
def identitySeed (s : State) (str : String) : List Byte :=
  kmac256 (fuseBytes s 52 8) (asciiBytes str ++ leBytes 1 s.sec.gen) 32 (asciiBytes "QN-884 identity")

/-- The identity of the generation in force shown (R427): none in BLANK. -/
def showIdentity (s : State) : State :=
  let s := { s with sec := { s.sec with gen := max 1 (idGen s) } }
  let h := sha3_512 (Config.identityKey (identitySeed s "ID"))
  let s := forAll s (List.range 16) fun s i => setFi s F.SEC_ID_HASH_HASH i (leNat ((h.drop (4 * i)).take 4))
  setF s F.SEC_STATUS_ID_READY 1

/-- The key slots in force shown (R437). -/
def showSlots (s : State) : State :=
  forAll s (List.range 64) fun s i => match alGet? s.sec.keys i with
    | some k => setFi (setFi (setFi s F.SEC_SLOT_VALID i 1) F.SEC_SLOT_GEN i k.gen) F.SEC_SLOT_ATTR i k.attr
    | none => setFi (setFi (setFi s F.SEC_SLOT_VALID i 0) F.SEC_SLOT_GEN i 0) F.SEC_SLOT_ATTR i 0

/-- A key-store copy comes into force (R434, R436). -/
def storeInForce (s : State) (c : KsCopy) : State :=
  let s := { s with sec := { s.sec with keys := c.slots } }
  showSlots (set64 s R.SEC_KS_CNT_LO R.SEC_KS_CNT_HI c.counter)

/-- Copy B is the active one: it is valid and of higher COUNTER, or the only valid one (R434). -/
def activeIsB (a b : Option KsCopy) : Bool :=
  match a, b with
  | some a, some b => a.counter < b.counter
  | none, some _ => true
  | _, none => false

/-- The key store restored; `errA` and `errB` are uncorrectable MRAM errors in a copy. An active copy that is lost so is
rewritten from the other, while writes are frozen when they resume (R434, R436, R467). -/
def restoreKeys (s : State) (errA errB : Bool) : State :=
  let was := fun (i : Nat) => ksCopy s i
  let a := if errA then none else was 0
  let b := if errB then none else was 1
  let inB := activeIsB (was 0) (was 1)
  let lost := if inB then errB && (was 1).isSome else errA && (was 0).isSome
  let repair := lost && (a.isSome || b.isSome)
  let s := if errA then putCopy s 0 none else s
  let s := if errB then putCopy s 1 none else s
  let s := match a, b with
    | none, none => ev (storeInForce s ⟨0, []⟩) blkSEC 0x81 7 []
    | _, _ =>
      let c := (if activeIsB a b then b else a).getD ⟨0, []⟩
      let s := if !repair then s
        else if flag s F.PWR_STATUS_FROZEN then { s with sec := { s.sec with repair := some (bNat inB) } }
        else putCopy s (bNat inB) (some c)
      storeInForce s c
  let s := if repair then evBit s F.SEC_EVENTS_JOURNAL_REPAIR 5 [] else s
  setF s F.SEC_STATUS_KS_READY 1

/-- Stored owner keys that do not match their hashes are recorded (R426). -/
def checkOwners (s : State) : State :=
  showOwners (forAll s (s.sec.owners.map (·.1)) fun s i => if ownerMatches s i then s else ev s blkSEC 0x80 6 [i])

/-- Boot stops with a code (R425). -/
def stopBoot (s : State) (code : Nat) : State := setF s F.SEC_STATUS_BOOT_CODE code

/-- The outcome of the check of a runtime image, 0 where it passes, with a refusal shown (R423). -/
def runtimeChecked (s : State) (code : Nat) : State × Bool :=
  if code = 0 then (s, true) else (imageRefused s ikRUNTIME code, false)

/-- A runtime slot is verified (R423): the state with a refusal shown, and whether it passes. -/
def tryRuntime (s : State) (slot : Nat) (sigOk : Bool) : State × Bool :=
  let r := checkImage s ikRUNTIME (imageSlot ikRUNTIME slot) none sigOk true
  runtimeChecked r.1 r.2

/-- Step 3 of R425: a recovery image, accepted with RECOVERY_N low and PROT.RECOVERY_OFF = 0, is verified as any runtime
image is; without one that passes boot stops (assumption 58). -/
def tryRecovery (s : State) (low : Bool) (image : Option RecoveryImage) : State × Option Nat :=
  match (if low && !s.prot.testBit 1 then image else none) with
  | none => (stopBoot s 5, none)
  | some r =>
    let m := memPutCells [] (r.cells.filter fun c => c.1 < r.len)
    let q := runtimeChecked s (imageCode s m ikRUNTIME 0 (some r.len) r.sigOk)
    if q.2 then (stopBoot { q.1 with boot := { q.1.boot with recovery := m } } 4, some 2) else (stopBoot q.1 5, none)

/-- Steps 2 and 3 of R425: the slot that boots, 2 for a recovery image, none where boot stops. -/
def chooseRuntime (s : State) (b : BootIn) : State × Option Nat :=
  let sig := fun (i : Nat) => if i = 0 then b.sigA else b.sigB
  let i := s.cfg.rtSlot
  let r := tryRuntime s i (sig i)
  if r.2 then (r.1, some i)
  else
    let q := tryRuntime r.1 (1 - i) (sig (1 - i))
    if q.2 then (stopBoot { q.1 with cfg := { q.1.cfg with rtSlot := 1 - i } } 3, some (1 - i))
    else tryRecovery q.1 b.recovery b.image

/-- The model slots whose validation starts with the runtime, in a lifecycle that runs models (R52, R421). -/
def startValidation (s : State) : State :=
  if lifecycle s ≠ 2 then s
  else
    let s := forAll s [0, 1] fun s i => setF s (slotField i) slVALIDATING
    { s with nsa := { s.nsa with validating := [(0, 0x800000, true), (1, 0x800000, true)] } }

/-- The MACsec slots of the settings in force from this start-up on (R328, R332), and the associations of their ports; a port
whose setting is disabled or was never written has none. -/
def installMacsec (s : State) : State :=
  let slots := (List.range 6).filterMap fun p => match alGet? s.cfg.values (64 + p) with
    | some b => if (leNat ((b.drop 4).take 4)).testBit 0 then some (p, leNat ((b.drop 8).take 4)) else none
    | none => none
  forAll { s with qhc := { s.qhc with macSlot := slots, macKey := [] } } slots installPort

/-- Both system cores start at the runtime's entry, an address that the manual does not give (assumption 8). -/
def startSysCores (s : State) : State :=
  forAll s [(4 : Fin 6), 5] fun s c =>
    let (v, s) := takeFree s
    setPc s c (BitVec.ofNat 64 v)

/-- The engine gates that the runtime turns on: all but those of faulty clusters (R462). -/
def openEngines (s : State) : State :=
  let cl := 255 - getF s F.NSA_CLUSTER_FAULTY
  let s := setF (setF s F.CLK_GATE_ENG_SOLV 1) F.CLK_GATE_ENG_CL cl
  setF (setF (setF (setF s F.CLK_GATE_ENG_FABENG 1) F.CLK_GATE_ENG_LPE 1) F.CLK_GATE_ENG_MTR 1) F.CLK_GATE_ENG_CHK 1

/-- The start-up self-tests of the scan cores and the clusters: those that fail are out of service (R83, R255, R262). -/
def selfTests (s : State) (cores clusters : Nat) : State :=
  let s := forAll s (List.range 4) fun s c => setFi s F.SCN_CORE_STAT_FAULTY c (bNat (cores.testBit c))
  setF (setF s F.SCN_STATUS_CORE_FAULTY cores) F.NSA_CLUSTER_FAULTY clusters

/-- Bytes of a setting as a number, and as a number in the order of an address, first byte highest. -/
def setNum (b : List Byte) (i n : Nat) : Nat := leNat ((b.drop i).take n)
def setAddr (b : List Byte) (i n : Nat) : Nat := leNat ((b.drop i).take n).reverse

/-- The settings ADDRESSES, VLAN and T1L_AMPL in force from this start-up on (R332). -/
def installNet (s : State) : State :=
  let a := (alGet? s.cfg.values 32).getD []
  let v4 := fun i => BitVec.ofNat 32 (setAddr a i 4)
  let v6 := fun i => BitVec.ofNat 128 (setAddr a i 16)
  let vlan := (List.range 6).filterMap fun p => (alGet? s.cfg.values (48 + p)).map fun b => (p, setNum b 4 4, setNum b 8 4)
  let ampl := (List.range 14).filterMap fun p => (alGet? s.cfg.values (80 + p)).map fun b => (p, setNum b 4 4)
  { s with net := { modV4 := v4 0, lenV4 := setNum a 4 4, modV6 := v6 8, lenV6 := setNum a 24 4, svcV4 := v4 28, svcV6 := v6 32,
                    gwV4 := v4 48, gwV6 := v6 52, hostV4 := v4 68, hostV6 := v6 72, vlan := vlan, ampl := ampl } }

/-- What the runtime does first; a program is to start in PROVISIONED only (R421, R456, R461, R361, R410, R425 step 6, R477 step 3). -/
def runtimeBegins (s : State) (b : BootIn) : State :=
  let s := selfTests { s with red := { s.red with keeperTest := b.keeperOk } } b.cores.toNat b.clusters.toNat
  let s := startSysCores { installMacsec (installNet s) with runtimeUp := true, boot := { s.boot with stage := 2, runtimeAt := tb0Ns s } }
  let s := if isPair s then forAll s digestUnits showChkUnit else s
  let s := forAll { s with boot := { s.boot with pllLate := [] } } s.boot.pllLate fun s p => ev s blkCLK 0x80 6 [p]
  let s := if flag s F.RTC_STATUS_OSF then ev s blkRTC 0x80 5 [] else s
  let s := setReg (openEngines s) R.CLK_GATE_PERI (getReg s R.CLK_GATE_PERI ||| BitVec.ofNat 32 (s.cfg.gates % 2 ^ 17))
  let s := setF (setF s F.CLK_CTRL_LOCK 1) F.SYS_CFG_PWR_WARM (bNat s.cfg.pwrWarm)
  let s := setF (safeWrite s (BitVec.ofNat 32 s.cfg.safe)) F.FIO_CTRL_LOCK 1
  startValidation (setF (showKeyBad (fetchSeal (showHealth s))) F.SCN_STATUS_RUN (if lifecycle s = 2 then 2 else 0))

/-- RUNTIME_START (R425). -/
def execRuntimeStart (b : BootIn) (s : State) : Host.Outcome State Fault Refusal :=
  .next (if s.boot.stage ≠ 1 || getF s F.SEC_STATUS_BOOT_CODE ≠ 0 then s
    else if b.readErr then stopBoot (setF s F.FUSE_STATUS_READ_ERR 1) 1
    else if lifecycle s = 0 then stopBoot s 2
    else
      let (s, slot) := chooseRuntime s b
      match slot with
      | none => s
      | some i => runtimeBegins (checkOwners (restoreKeys (showIdentity (setF s F.SEC_STATUS_RT_SLOT i)) b.errA b.errB)) b)

/-! ### The restore (R477 step 4) -/

/-- A mapped instance: a timer block restarts with STATE and ET zero (R262). -/
def mappedCells (m : Mem) (o i : InstRec) : List Host.Cell :=
  let cs := movedCells m (retainBase + (o.addr - winRet)) i.addr i.size
  if i.kind = 1 then cs.filter fun c => !(c.1 < i.addr + 4 || (i.addr + 16 ≤ c.1 && c.1 < i.addr + 24)) else cs

/-- Instance memory at a restart: retained instances that map take their saved values at a warm one, everything else
its initial value (R262, R263). -/
def restartInst (s : State) (p : Program) (warm : Bool) : Mem :=
  memPutCells [] (p.insts.flatMap fun i => match (if warm && isRetained i then sameInst s.cfg.retDir i else none) with
    | some o => mappedCells s.mem o i
    | none => initCells p i)

/-- The events of R263 at a warm restart. -/
def mapEvents (s : State) (p : Program) : State :=
  let fresh := p.insts.countP fun i => isRetained i && (sameInst s.cfg.retDir i).isNone
  let gone := s.cfg.retDir.countP fun o => p.insts.all fun i => i.id != o.id
  let s := if fresh ≠ 0 then ev s blkSCN 0x82 4 [fresh] else s
  if gone ≠ 0 then ev s blkSCN 0x83 3 [gone] else s

/-- The program image verified and loaded; a failure leaves no program running (R243, R421, R423). The number of the
event of R243 is stated nowhere (assumption 8). -/
def restoreProgram (s : State) (v : Verdict) : State :=
  let none_ := fun (s : State) => setF s F.SCN_STATUS_RUN 0
  if lifecycle s ≠ 2 then none_ s
  else
    let base := programSlot s.cfg.progSlot
    let r := checkImage s ikPROGRAM base none v.sigOk v.plain.isSome
    if r.2 ≠ 0 then none_ (imageRefused r.1 ikPROGRAM r.2)
    else match programPayload r.1 base v.plain with
      | .error f =>
        let (n, s) := takeFree r.1
        none_ (ev s blkSCN (n % 256) 6 [f.1, f.2])
      | .ok p =>
        let warm := s.boot.restart = rsWARM
        let s := if warm then mapEvents r.1 p else r.1
        installProgram s p s.cfg.progSlot (restartInst s p warm)

/-- The save of higher SEQ, when its CRC checks, it is not stale, and it belongs to the running program and the active
model (R465, R466). A save serves a restart after a FULL reset only (R471). -/
def usableSave (s : State) : Option Save :=
  let best := match s.saveA, s.saveB with
    | some a, some b => some (if a.seq < b.seq then b else a)
    | some a, none => some a
    | none, b => b
  if s.boot.kind ≠ rkFULL then none
  else best.filter fun v => v.valid && !v.stale &&
    v.serial = (match s.prog with | some p => p.serial | none => 0) &&
    v.hs = (match s.nsa.model with | some m => m.hs | none => 0)

/-- The committed state of a save comes into force, each branch with one plug at its T_OUT (R465, R483). -/
def restoreState (s : State) (r : NetState) : State :=
  let b : BaseState := { p := r.nodes.map (·.p), t := r.nodes.map (·.t), q := r.branches.map (·.q),
                         tOut := r.branches.map (·.tOut), byId := none, sat := false }
  let s := { s with nsa := { s.nsa with committed := some r, inForce := some r, base := some b,
                                        plugs := r.branches.map fun x => [((2 ^ 30 : Int), x.tOut)] } }
  set64 (set64 s R.NSA_CYCLE_LO R.NSA_CYCLE_HI r.cycle) R.NSA_HT_LO R.NSA_HT_HI r.ht

/-- Whether a slot of the archive holds a good record (R151): MAGIC first, then the CRC over the whole slot. -/
def slotIsGood (s : State) (h : Nat) : Bool :=
  let magic := leNat (memBytes s.mem (slotAddr h) 4)
  if magic = 0x514E4D41 then
    let b := memBytes s.mem (slotAddr h) 0x30B00
    leNat ((b.drop 0x3C).take 4) = crc32c (b.take 0x3C ++ b.drop 0x40)
  else false

/-- Slots of the archive that hold a good record, with SLOT_SEQ (R151). -/
def goodSlots (s : State) : List (Nat × Nat) :=
  ((List.range 256).filter (slotIsGood s)).map fun h => (h, leNat (memBytes s.mem (slotAddr h + 4) 4))

/-- The newest good slot. -/
def newestSlot (s : State) : Option (Nat × Nat) :=
  (goodSlots s).foldl (fun m e => match m with | some x => if x.2 < e.2 then some e else m | none => some e) none

/-- The registers that an archive slot holds, with zero fractions (R151, R158). -/
def slotRegs (s : State) (h : Nat) : List (Nat × Nat) :=
  let reg := fun (off : Nat) => memLe s.mem (slotAddr h + off) 8 * 2 ^ 32
  let e := (List.range 34).flatMap fun c => (List.range 8).map fun r => (eKey c r, reg (0x40 + 80 * c + 16 + 8 * r))
  let t := (List.range 4096).flatMap fun n => (List.range 4).map fun r => (tKey n r, reg (0xB00 + 48 * n + 16 + 8 * r))
  (e ++ t).foldl (fun m x => amSet (fun _ => 0) m x.1 x.2) []

/-- Metering registers restored from a save, or else from the newest good archive slot (R158, R301). -/
def restoreMeters (s : State) (sv : Option Save) : State :=
  match sv with
  | some v =>
    let b := F.MTR_PULSE_STAT_BACKLOG
    let put := fun (s : State) (i : Nat) => setFi s b i (fieldOf b.hi b.lo (BitVec.ofNat 32 (amGet (fun _ => 0) v.counters (b.at i))))
    forAll { s with mtr := { s.mtr with regs := v.mtrRegs, pacc := v.pacc, restarted := true } } (List.range 8) put
  | none =>
    let regs := match newestSlot s with | some e => slotRegs s e.1 | none => s.mtr.regs
    { s with mtr := { s.mtr with regs := regs, restarted := true } }

/-- The archive's registers (R151, R161). -/
def showArchive (s : State) : State :=
  let good := goodSlots s
  match newestSlot s with
  | some e => setF (setF { s with mtr := { s.mtr with seq := e.2, arch := good.map (·.1) } } F.MTR_ARCH_HEAD e.1) F.MTR_ARCH_VALID good.length
  | none => setF s F.MTR_ARCH_VALID 0

/-- The metering configuration taken up again, and metering started (R155, R156, R160). -/
def restartMeters (s : State) : State :=
  let s := match s.mtr.latch with
    | some (n, f) => setF (setF s F.MTR_LATCH_CFG_F_NOM (bNat f)) F.MTR_LATCH_CFG_N_LINE n
    | none => s
  let s := forAll s s.mtr.subs fun s e => setReg s (F.MTR_SV_SUB_APPID.at e.1) (BitVec.ofNat 32 e.2)
  let s := { s with mtr := { s.mtr with svLast := s.mtr.subs.map fun e => (e.1, nowNs s) } }
  let s := forAll s s.mtr.pulses fun s e => showPulse s e.1 e.2
  let s := startMeters s
  let s := setF (setF s F.MTR_STATUS_NO_CFG (bNat !s.mtr.stored)) F.MTR_STATUS_CFG_PENDING (bNat (s.mtr.pend != []))
  let s := setF s F.MTR_STATUS_NO_LATCH (bNat (s.mtr.stored && !latchValid s))
  if s.mtr.latch.isSome && !latchValid s then ev s blkMTR 0x80 5 [] else s

/-- What a save gives beside the meters: at a warm restart committed state, the decision table and the counters (R465,
R470, R483). -/
def useSave (s : State) (v : Save) : State :=
  let s := setF { s with boot := { s.boot with saveSeq := v.seq } } F.SYS_RESET_CAUSE_SAVE_USED 1
  if s.boot.restart ≠ rsWARM then s
  else
    let s := match v.committed with | some r => restoreState s r | none => s
    let s := match v.table with
      | some t => setF (set64 { s with dpo := { s.dpo with table := some t } } R.DPO_DEC_LO R.DPO_DEC_HI t.index) F.DPO_STATUS_DEC_VALID 1
      | none => s
    putCounters s v.counters

/-- The descriptors that stand shown (R59, R89). -/
def showDescs (s : State) : State :=
  let s := setF s F.NSA_STATUS_NO_DESC (bNat s.nsa.cycleDesc.isNone)
  setF (setF s F.DPO_STATUS_NO_PLY_DESC (bNat s.nsa.plyDesc.isNone)) F.DPO_STATUS_NO_DPO_DESC (bNat s.nsa.dispDesc.isNone)

/-- Forces, descriptors and loops at a cold restart: cleared when the restart kind takes effect (R261, R262, R477 step 8). -/
def coldState (s : State) : State :=
  let n := s.forces.countP fun e => e.2.enable
  let s := showForced (showForceCnt { s with forces := [], forcesEff := [] })
  let s := ev s blkSCN 0x81 4 [n]
  showDescs { s with nsa := { s.nsa with cycleDesc := none, plyDesc := none, dispDesc := none, pendDesc := [] },
                     lpe := Lpe.reset }

/-- The slot recorded as active is still being validated (R52). -/
def modelPending (s : State) : Bool := s.nsa.validating.any fun e => some e.1 = s.cfg.modelSlot

/-- MRAM_RESTORE_DONE (R477 step 4, R471): `v` is what the checks of the program image answer. It comes after the MRAM
writes of start-up, which wait while writes are frozen (R467). After a FULL reset without a valid save the counters are clear
(R470). -/
def execMramRestoreDone (v : Verdict) (s : State) : Host.Outcome State Fault Refusal :=
  .next (if s.boot.stage ≠ 2 || modelPending s || flag s F.PWR_STATUS_FROZEN then s
    else
      let s := restoreProgram s v
      let s := match s.nsa.model with | some md => undeclaredEvents s md | none => s
      let sv := usableSave s
      let s := match sv with
        | some v => useSave s v
        | none => if s.boot.kind = rkFULL then clearFields s counterFields else s
      let s := restartMeters (showArchive (restoreMeters s sv))
      let s := showForced (showForceCnt { s with boot := { s.boot with stage := 3 }, forcesEff := s.forces })
      let s := ev (showDescs s) blkSYS 0x80 5 [(getReg s R.SYS_RESET_CAUSE).toNat, s.boot.saveSeq]
      if s.boot.kind = rkFULL && sv.isNone then ev s blkPWR 0x81 5 [] else s)

/-! ### Run state (R262, R424, R478) -/

/-- PTP_WAIT_LIMIT (R478): 30 s after the first link-up of a port of a domain, or 35 s after the start of the runtime. -/
def execPtpWaitLimit (s : State) : Host.Outcome State Fault Refusal :=
  .next (
    let due := match s.boot.linkAt with
      | some t => t + 30000000000 ≤ tb0Ns s
      | none => s.boot.runtimeAt + 35000000000 ≤ tb0Ns s
    if 2 ≤ s.boot.stage && !s.runState && due then { s with boot := { s.boot with waitOver := true } } else s)

/-- Bits to burn so that a thermometer field of 8 words from word `w` counts `n`, by word (R418). -/
def thermoBurns (s : State) (w n : Nat) : List (Nat × Nat) :=
  ((List.range 8).map fun i => (w + i, (2 ^ (min 32 (n - 32 * i)) - 1) &&& (0xFFFFFFFF - fuseWord s (w + i)))).filter
    fun e => e.2 ≠ 0

/-- An SVN commit: kind 0 runtime, 1 program; a counter is never lowered (R424). -/
def commitSvn (s : State) (kind svn : Nat) : State :=
  if svn ≤ (if kind = 0 then rtCnt s else pgCnt s) then s
  else { s with sec := { s.sec with burning := s.sec.burning ++ thermoBurns s (if kind = 0 then 60 else 68) svn,
                                    commits := s.sec.commits ++ [(kind, svn)] } }

/-- The image that runs commits its SVN at entry into run state where it says AUTO_SVN (R424). -/
def autoSvn (s : State) : State :=
  let one := fun (s : State) (kind : Nat) (m : Mem) (base : Nat) =>
    if (imgW m base 0x14).testBit 1 then commitSvn s kind (imgW m base 0x10) else s
  let rt := getF s F.SEC_STATUS_RT_SLOT
  let s := if rt = 2 then one s 0 s.boot.recovery 0 else one s 0 s.mem (imageSlot ikRUNTIME rt)
  one s 1 s.mem (programSlot s.cfg.progSlot)

/-- A loop at a warm restart: it starts with init true, and takes its first target region at once (R135). -/
def Loop.restart (l : Loop) (w : Int) : Loop :=
  { l with init := true, fresh := true, reselect := false, target := 0, b := 0, lostPv := false, lostSp := false,
           lostSched := false, resolved := false, stale := false, last := [0, 0, 0, 0, 0], f := 0, d := 0, w := w }

/-- A loop's accepted calls are in force from its first evaluation after a restart (R135). -/
def Loop.settleCalls (l : Loop) : Loop := { l with words := l.accWords, mode := l.accMode, pendDesc := none, pendMode := none }

/-- A group's accepted descriptor is in force after a restart (R135). -/
def LoopGroup.settleCalls (g : LoopGroup) : LoopGroup := { g with dest := g.accDest, pend := none }

/-- Every accepted call of the engine in force. -/
def Lpe.settleCalls (l : Lpe) : Lpe :=
  { l with loops := l.loops.map fun (e : Nat × Loop) => (e.1, e.2.settleCalls),
           groups := l.groups.map fun (e : Nat × LoopGroup) => (e.1, e.2.settleCalls) }

/-- Loops at a warm restart: what was accepted is in force, sticky flags are clear, and sources resolve anew (R127, R135). -/
def warmState (s : State) : State :=
  let s := { s with lpe := s.lpe.settleCalls }
  let s := { s with lpe := { s.lpe with loops := s.lpe.loops.map fun (e : Nat × Loop) => (e.1, e.2.restart (wLast s e.2.words)) } }
  showPeak (resolveLoops (clearSticky (forAll s (s.lpe.loops.map (·.1)) showLoop)))

/-- The conditions of R478 at the present instant: TB1 has had a source, a PTP domain or the peer, or the wait limit has
passed. -/
def runStateDue (s : State) : Bool :=
  s.boot.stage = 3 && !s.runState && roleOf s != roINIT && (s.boot.tb1Seen || s.boot.waitOver) &&
  (match s.prog with | some p => p.tasks.any fun r => nowNs s % taskNs r = 0 | none => false)

/-- The restart kind takes effect (R261, R262, R477 step 8): at entry into run state, and on a module that joins before the
state of its peer comes (assumption 59). -/
def restartEffect (s : State) : State :=
  if s.boot.effect then s
  else
    let warm := s.boot.restart = rsWARM
    let s := if warm then warmState s else coldState s
    { s with boot := { s.boot with effect := true },
             tasks := s.tasks.map fun (k : Task) => ({ k with nextInfo := if warm then 2 else 4 } : Task) }

/-- Run state entered (R262, R344, R478, R479): TB1 is sealed where the first periods start, and metering starts, since no
sample is taken before (R142, R159). A start at the wait limit, with no source ever, is an event (R478). -/
def enterRun (s : State) : State :=
  let s := restartEffect s
  let s := startMeters { s with runState := true, boot := { s.boot with stage := 4, runAt := nowNs s } }
  let s := if executes s then setF s F.TIM_STATUS_SEALED 1 else s
  let s := if tbSrc s = srcNONE && !flag s F.TIM_STATUS_HOLDOVER then enterHoldover s else s
  let s := if s.boot.tb1Seen then s else ev s blkSYS 0x83 4 [domState s 0, domState s 1]
  ev (autoSvn s) blkSYS 0x81 2 [tbSrc s, (tb0Ns s - s.boot.runtimeAt) / 1000000]

/-- RUN_STATE_ENTRY (R478). -/
def execRunStateEntry (s : State) : Host.Outcome State Fault Refusal :=
  .next (let t := reachTick s
    if runStateDue t then enterRun t else s)

/-! ### Links -/

/-- A port takes part in a PTP domain. -/
def ptpPort (s : State) (p : Nat) : Bool :=
  p < 6 && [0, 1].any fun d => getFi s F.TIM_DOM_CFG_ENABLE d = 1 && (getFi s F.TIM_DOM_CFG_PORTS d).testBit p

/-- ETH_PORT_LINK_CHANGE (R292, R478). -/
def execEthPortLinkChange (p : Fin 14) (up : Bool) (s : State) : Host.Outcome State Fault Refusal :=
  .next (if up && !portGate s p.val then s
    else
      let ps := if up then insertUp p.val s.boot.ports else s.boot.ports.filter fun q => q != p.val
      let at_ := if up && s.boot.linkAt.isNone && ptpPort s p.val then some (tb0Ns s) else s.boot.linkAt
      showHealth { s with boot := { s.boot with ports := ps, linkAt := at_ } })

/-- PCIE_LINK_CHANGE (R334). -/
def execPcieLinkChange (up : Bool) (s : State) : Host.Outcome State Fault Refusal :=
  .next (if up && !flag s F.CLK_GATE_PERI_PCIE then s else { s with qhc := { s.qhc with pcieUp := up } })

end Sys2Proof.Machine
end

