-- ==== Sys2Proof/Machine/Auth.lean ====
section
/-!
DEFINITION. Authority messages, the key store, fuse burns and the attestation report (17 R420 R424 R427 to R436).
-/
namespace Sys2Proof.Machine

/-! ### The envelope (R432, R433) -/

/-- `n` bytes of a message at an offset, as a number. -/
def msgNum (m : List Byte) (off n : Nat) : Nat := leNat ((m.drop off).take n)

/-- Message types. -/
def amKEY_UPDATE : Nat := 1
def amPROTECT : Nat := 2
def amOWNER_ADD : Nat := 3
def amOWNER_REVOKE : Nat := 4
def amNEW_IDENTITY : Nat := 5
def amDECOMMISSION : Nat := 6
def amSVN_COMMIT : Nat := 7
def amPROVISION : Nat := 8

/-- TYPE, OWNER_SLOT and N_OPS. -/
def amType (m : List Byte) : Nat := msgNum m 0x0C 1
def amOwner (m : List Byte) : Nat := msgNum m 0x0D 1
def amOps (m : List Byte) : Nat := msgNum m 0x0E 1
/-- The first word of the body, and its last one. -/
def amWord (m : List Byte) : Nat := msgNum m 0x60 4

/-- The length of a body. -/
def bodyLen (typ n : Nat) : Nat :=
  match typ with
  | 1 => 1568 + 48 * n + 16
  | 2 => 4
  | 3 => 2592
  | 4 => 4
  | 7 => 4
  | 8 => 2596
  | _ => 0

/-- An entry of a KEY_UPDATE: SLOT, OP and ATTR (R435). -/
structure KeyOp where
  slot : Nat
  op : Nat
  attr : Nat
  deriving DecidableEq, Repr

/-- Where entry `i` stands. -/
def keyOpAt (i : Nat) : Nat := 0x60 + 1568 + 48 * i

/-- The entries of a KEY_UPDATE. -/
def keyOps (m : List Byte) : List KeyOp :=
  (List.range (amOps m)).map fun i =>
    let w := msgNum m (keyOpAt i) 4
    { slot := bitsOf 7 0 w, op := bitsOf 15 8 w, attr := bitsOf 23 16 w }

/-- The zero fields of an entry are zero. -/
def keyOpZero (m : List Byte) (i : Nat) : Bool :=
  let a := keyOpAt i
  msgNum m (a + 3) 1 = 0 && msgNum m (a + 4) 4 = 0 && msgNum m (a + 40) 8 = 0 &&
    (msgNum m (a + 1) 1 ≠ 1 || msgNum m (a + 8) 32 = 0)

/-- Check 1 of R435. -/
def amForm (m : List Byte) : Bool :=
  let t := amType m
  let n := amOps m
  m.length = 0x60 + bodyLen t n + sigLen && msgNum m 0 4 = 0x514E414D && msgNum m 4 4 = 1 && msgNum m 8 4 = m.length &&
  1 ≤ t && t ≤ 8 && (if t = amKEY_UPDATE then 1 ≤ n && n ≤ 64 && (List.range n).all (keyOpZero m) else n = 0) &&
  msgNum m 0x0F 1 = 0 && msgNum m 0x18 8 = 0

/-! ### The checks (R430, R435) -/

/-- The slots after the operations of a KEY_UPDATE; the decrypted key fields follow each other. -/
def updatedSlots (s : State) (m : List Byte) (plain : List Byte) : List (Nat × KeySlot) :=
  (keyOps m).zipIdx.foldl (fun l e =>
    if e.1.op = 0 then
      alPut l e.1.slot { key := (plain.drop (32 * e.2)).take 32, attr := e.1.attr, gen := msgNum m 0x10 8 % 65536 }
    else alDel l e.1.slot) s.sec.keys

/-- At most one slot carries FUROV, and at most one SEAL (R430). -/
def attrsOk (l : List (Nat × KeySlot)) : Bool :=
  (l.countP fun e => e.2.attr.testBit atFUROV) ≤ 1 && (l.countP fun e => e.2.attr.testBit atSEAL) ≤ 1

/-- Check 5 of R435. -/
def amAllowed (s : State) (sender : Nat) (m : List Byte) (v : Verdict) : Bool :=
  let t := amType m
  let life := lifecycle s
  if t = amPROVISION then life = 1 && sender = 0 && v.recovery && msgNum m (0x60 + 2592) 4 < 16
  else if life ≠ 2 then false
  else if t = amKEY_UPDATE then
    let ops := keyOps m
    ops.all (fun o => o.slot ≤ 63 && o.op ≤ 1 && o.attr < 32) && (ops.map (·.slot)).Nodup && attrsOk (updatedSlots s m [])
  else if t = amPROTECT then amWord m < 16
  else if t = amOWNER_ADD then amOwner m = 0
  else if t = amOWNER_REVOKE then amWord m ≤ 1 && amWord m ≠ amOwner m
  else if t = amNEW_IDENTITY then idGen s < 8
  else if t = amSVN_COMMIT then amWord m ≤ 1
  else true

/-- SEC_ID_HASH as 64 bytes, and SEC_KS_CNT. -/
def idHash (s : State) : List Byte := (List.range 16).flatMap fun i => leBytes 4 (getFi s F.SEC_ID_HASH_HASH i)
def ksCount (s : State) : Nat := get64 s R.SEC_KS_CNT_LO R.SEC_KS_CNT_HI

/-- The first failing check of R435, 0 for none. -/
def amCode (s : State) (sender : Nat) (m : List Byte) (v : Verdict) : Nat :=
  let t := amType m
  if !amForm m then 1
  else if !v.sigOk || (t ≠ amPROVISION && !ownerValid s (amOwner m)) then 2
  else if (m.drop 0x20).take 64 ≠ idHash s then 3
  else if msgNum m 0x10 8 ≠ ksCount s + 1 then 4
  else if !amAllowed s sender m v then 5
  else if t = amKEY_UPDATE && (v.plain.map (·.length)) ≠ some (32 * amOps m) then 6
  else if s.sec.msg.isSome then 7
  else 0

/-! ### Carrying out (R436) -/

/-- The burns of a hash field that starts at a word. -/
def hashBurns (w : Nat) (key : List Byte) : List (Nat × Nat) :=
  (List.range 16).map fun i => (w + i, leNat (((sha3_512 key).drop (4 * i)).take 4))

/-- The next ID_GEN bit. -/
def nextGen (s : State) : Nat × Nat := (2, 2 ^ idGen s)

/-- The first ID_GEN bit, which a repeated PROVISION finds done (R420, R427). -/
def firstGen (s : State) : List (Nat × Nat) := if fuseBit s 2 0 then [] else [(2, 1)]

/-- The burns of a message, in order. -/
def amBurns (s : State) (m : List Byte) : List (Nat × Nat) :=
  match amType m with
  | 2 => [(1, amWord m)]
  | 3 => hashBurns 36 ((m.drop 0x60).take 2592)
  | 4 => [(2, 2 ^ (8 + amWord m))]
  | 5 => [nextGen s]
  | 6 => [(0, 0xFF0000)]
  | 8 => hashBurns 20 ((m.drop 0x60).take 2592) ++ [(1, msgNum m (0x60 + 2592) 4)] ++ firstGen s ++ [(0, 0xFF00)]
  | _ => []

/-- The owner key that a message stores, with its slot. -/
def amStores (m : List Byte) : Option (Nat × List Byte) :=
  match amType m with
  | 3 => some (1, (m.drop 0x60).take 2592)
  | 8 => some (0, (m.drop 0x60).take 2592)
  | _ => none

/-- A refused message (R435). -/
def amRefused (s : State) : State := evBit (bump s F.SEC_CNT_UPD_REFUSED_COUNT) F.SEC_EVENTS_UPD_REFUSED 4 []

/-- An accepted message: its store image waits to be written (R436 step 1). -/
def amAccepted (s : State) (sender reqId : Nat) (m : List Byte) (v : Verdict) : State :=
  let image := if amType m = amKEY_UPDATE then updatedSlots s m (v.plain.getD [])
    else if amType m = amDECOMMISSION then [] else s.sec.keys
  let x : AuthMsg := { typ := amType m, counter := ksCount s + 1, image := image, toB := !activeIsB (ksCopy s 0) (ksCopy s 1),
                       burns := amBurns s m, owner := amStores m, commit := amWord m, sender := sender, reqId := reqId,
                       written := false }
  setF { s with sec := { s.sec with msg := some x } } F.SEC_STATUS_UPD_BUSY 1

/-- An authority message received (R432, R435). -/
def authority (s : State) (sender reqId : Nat) (m : List Byte) (v : Verdict) : Answer :=
  if sender = 0 && s.prot.testBit 3 then ansRefuseFree s
  else
    let c := amCode s sender m v
    let s := setF (setF s F.SEC_UPD_RES_TYPE (amType m)) F.SEC_UPD_RES_CODE c
    if c ≠ 0 then ansRefuse (amRefused s) c else (amAccepted s sender reqId m v, none)

/-- Step 5 of R436: the event and the reply. -/
def amFinish (s : State) (x : AuthMsg) : State :=
  let s := setF { s with sec := { s.sec with msg := none } } F.SEC_STATUS_UPD_BUSY 0
  let s := ev s blkSEC F.SEC_EVENTS_UPD_DONE.lo 3 [x.typ, x.counter]
  qhcReply s x.sender x.reqId 0x13 0 (leBytes 4 0)

/-- A message whose copy is written and whose burns are done ends. -/
def amSettle (s : State) : State :=
  match s.sec.msg with
  | some x => if x.written && s.sec.burning.isEmpty then amFinish s x else s
  | none => s

/-- The slots that carry SEAL. -/
def sealSlots (l : List (Nat × KeySlot)) : List (Nat × KeySlot) := l.filter fun e => e.2.attr.testBit atSEAL

/-- The SVN of the image that runs; without a running program there is none to commit (R424). -/
def runningSvn (s : State) (kind : Nat) : Nat :=
  if kind = 1 then (if s.prog.isSome then imgW s.mem (programSlot s.cfg.progSlot) 0x10 else 0)
  else if getF s F.SEC_STATUS_RT_SLOT = 2 then imgW s.boot.recovery 0 0x10
  else imgW s.mem (imageSlot ikRUNTIME (getF s F.SEC_STATUS_RT_SLOT)) 0x10

/-- Steps 2 to 4 of R436: the copy is written and in force, and the burns follow. -/
def amWritten (s : State) (x : AuthMsg) : State :=
  let c : KsCopy := { counter := x.counter, slots := x.image }
  let reseal := sealSlots s.sec.keys != sealSlots x.image
  let owners := match x.owner with | some o => alPut s.sec.owners o.1 o.2 | none => s.sec.owners
  let sec := { s.sec with owners := owners, msg := some { x with written := true }, burning := s.sec.burning ++ x.burns }
  let s := storeInForce (putCopy { s with sec := sec } (bNat x.toB) (some c)) c
  let s := setF (showKeyBad (installKeyed s)) F.SEC_EVENTS_UPD_DONE 1
  let s := if reseal then fetchSeal s else s
  let s := if x.typ = amSVN_COMMIT then commitSvn s x.commit (runningSvn s x.commit) else s
  amSettle (showOwners s)

/-- KEY_STORE_WRITE_DONE (R436 step 3): the copy is written and read back. While MRAM writes are frozen only a write that
the warning found in flight completes (R464), and a save then starts (R465). -/
def execKeyStoreWriteDone (s : State) : Host.Outcome State Fault Refusal :=
  .next (match s.sec.msg with
    | some x =>
      if x.written || (flag s F.PWR_STATUS_FROZEN && s.boot.unit ≠ 2) then s
      else startSave (amWritten { s with boot := { s.boot with unit := 0 } } x)
    | none => s)

/-! ### Fuse burns (R418, R420, R424) -/

/-- FUSE_BURN_START: the next field burns, while the supply is above the warning level (R420). -/
def execFuseBurnStart (s : State) : Host.Outcome State Fault Refusal :=
  .next (if s.sec.burning.isEmpty || flag s F.PWR_STATUS_WARN then s else setF s F.FUSE_STATUS_BURNING 1)

/-- SVN commits that the counters have reached are recorded (R424). -/
def showCommits (s : State) : State :=
  let reached := fun (e : Nat × Nat) => decide (e.2 ≤ (if e.1 = 0 then rtCnt s else pgCnt s))
  let due := s.sec.commits.filter reached
  let s := { s with sec := { s.sec with commits := s.sec.commits.filter fun e => !reached e } }
  forAll s due fun s e => ev s blkSEC 0x82 3 [e.1, e.2]

/-- A module becomes DECOMMISSIONED: no program runs, the token falls, and the outputs are off (R421). -/
def retire (s : State) : State :=
  let s := forAll s (List.range 16) fun s t => if (scanOf s t).isSome then endScan (undoScan s t) t else s
  let s := setF (setF (releaseLatches (dropToken s)) F.SCN_STATUS_RUN 0) F.RED_STATUS_IN_SYNC 0
  setRole s roINIT

/-- What follows the burn of a field: the decoded fields are shown, and the lifecycle decides (R418, R421, R438). -/
def showBurned (s : State) : State :=
  let was := getF s F.SEC_STATUS_LIFECYCLE
  let s := setF (setF s F.FUSE_RT_CNT_VALUE (rtCnt s)) F.FUSE_PG_CNT_VALUE (pgCnt s)
  let s := showOwners (setF s F.SEC_STATUS_LIFECYCLE (lifecycle s))
  if was ≠ 3 && lifecycle s = 3 then retire s else s

/-- FUSE_BURN_DONE: the field that burns is done (R420). -/
def execFuseBurnDone (s : State) : Host.Outcome State Fault Refusal :=
  .next (if !flag s F.FUSE_STATUS_BURNING then s
    else
      let now := nextBurn s
      let s := forAll s now fun s b => burnWord s b.1 b.2
      let s := { s with sec := { s.sec with burning := s.sec.burning.drop now.length } }
      amSettle (showCommits (showBurned (setF s F.FUSE_STATUS_BURNING 0))))

/-- The two shares of a slot's key, whose XOR is the key (R429). -/
def keyShares (s : State) (i : Nat) : Option (Nat × Nat) :=
  (alGet? s.sec.keys i).map fun k =>
    let a := (alGet? s.sec.shares i).getD 0
    (a, a ^^^ leNat k.key)

/-- KEY_REMASK: both shares of the next slot are XORed with a fresh random value, and its key stays (R429). -/
def execKeyRemask (s : State) : Host.Outcome State Fault Refusal :=
  .next (
    let i := s.sec.remask
    let (v, s) := takeFree s
    let a := ((alGet? s.sec.shares i).getD 0) ^^^ (v % 2 ^ 256)
    { s with sec := { s.sec with remask := (i + 1) % 64, shares := alPut s.sec.shares i a } })

/-! ### Attestation (R428) -/

/-- The digests of the running runtime, program and model images. -/
def attestDigests (s : State) : List Byte :=
  let none_ := List.replicate 64 (0 : Byte)
  let rt := getF s F.SEC_STATUS_RT_SLOT
  let r := s.boot.recovery
  let a := if rt = 2 then sha3_512 (memBytes r 0 (min (imgW r 0 8) (imageSlotLen ikRUNTIME))) else imageDigest s ikRUNTIME rt
  let b := if s.prog.isSome then imageDigest s ikPROGRAM s.cfg.progSlot else none_
  let c := match s.nsa.model, s.cfg.modelSlot with
    | some _, some i => imageDigest s ikMODEL i
    | _, _ => none_
  a ++ b ++ c

/-- The length of a report. -/
def reportLen : Nat := 0x1190 + 4627

/-- A report before its signature. -/
def reportBody (s : State) (digests nonce : List Byte) : List Byte :=
  let w := leBytes 4
  let slots := (List.range 64).map fun i => match alGet? s.sec.keys i with
    | some k => BitVec.ofNat 8 (128 + k.attr)
    | none => 0
  let owners := bNat (ownerValid s 0) + 2 * bNat (ownerValid s 1)
  w 0x514E4154 ++ w 1 ++ w reportLen ++ w (lifecycle s + s.prot % 256 * 2 ^ 8 + idGen s * 2 ^ 16 + owners * 2 ^ 24) ++
  leBytes 8 (serialNo s) ++ leBytes 2 (rtCnt s) ++ leBytes 2 (pgCnt s) ++ leBytes 4 0 ++ leBytes 8 (ksCount s) ++
  leBytes 8 (now64 s) ++ nonce ++ digests ++ slots ++
  (Config.identityKey (identitySeed s "ID")).take 2592 ++ (Config.kemKey (identitySeed s "KEM")).take 1568

/-- A report with its signature. -/
def attestReport (s : State) (nonce : List Byte) : List Byte :=
  let b := reportBody s (attestDigests s) nonce
  b ++ Config.identitySign (identitySeed s "ID") (sha3_512 b)

end Sys2Proof.Machine
end

