-- ==== Sys2Proof/Machine/Red.lean ====
section
/-!
DEFINITION. The token, the token keeper, arbitration, digests and mutual diagnosis, and the tick of the loop engine
(11 R272 to R301, 05 R116, 20 R480).
-/
namespace Sys2Proof.Machine

/-! ### Digests and mutual diagnosis (R289, R290, R294) -/

/-- Two entries for the same source, task and instance index. -/
def sameUnit (a b : DigestEntry) : Bool := a.source = b.source && a.task = b.task && a.inst = b.inst

/-- A mismatch of a kind (R290): the first one starts mutual diagnosis, further ones are counted. The severity of its
event is that of the worked example of R453 (DEDUCED). -/
def mismatch (s : State) (kind : Nat) (e : DigestEntry) : State :=
  let s := bump s F.RED_CNT_MISMATCH_COUNT
  if s.red.diagnosing then s
  else
    let s := evBit { s with red := { s.red with diagnosing := true, takeCalled := false } } F.RED_EVENTS_MISMATCH 5 []
    let s := setF (setF (setF s F.RED_MISMATCH_SOURCE e.source) F.RED_MISMATCH_KIND kind) F.RED_MISMATCH_TASK e.task
    let s := setF (setF s F.RED_MISMATCH_OWN_DIAG 1) F.RED_MISMATCH_PEER_DIAG 1
    showHealth (set64 s R.RED_MIS_IDX_LO R.RED_MIS_IDX_HI e.inst)

/-- Own entries against the peer's: those that differ, and the entries of each module that wait for the other's. -/
def pairUp (own peer : List DigestEntry) : List DigestEntry × List DigestEntry × List DigestEntry :=
  own.foldl (fun (bad, rest, peer) e => match peer.find? (sameUnit e) with
    | some p => (if p.digest = e.digest then bad else bad ++ [e], rest, peer.erase p)
    | none => (bad, rest ++ [e], peer)) ([], [], peer)

/-- Every entry that both modules have is compared (R290). -/
def compareDigests (s : State) : State :=
  let (bad, own, peer) := pairUp s.red.own s.red.peer
  forAll { s with red := { s.red with own := own, peer := peer } } bad fun s e => mismatch s 1 e

/-- One period of a source in ns, none for studies (R290). -/
def sourcePeriod (s : State) (e : DigestEntry) : Nat :=
  match e.source with
  | 0 => match taskRec s e.task with | some r => taskNs r | none => 0
  | 1 => netNs s
  | 2 => tickNs
  | 3 => dispNs s
  | 4 => match s.mtr.latch with | some (n, _) => n * 1000000000 / fNom s | none => 0
  | _ => 0

/-- The window of an entry has passed. -/
def entryDue (s : State) (e : DigestEntry) : Bool := decide (e.at_ + max 2000000 (sourcePeriod s e) ≤ nowNs s)

/-- DIGEST_ENTRY_TIMEOUT: entries whose counterpart is missing after its window (R290). -/
def execDigestEntryTimeout (s : State) : Host.Outcome State Fault Refusal :=
  .next (
    let late := (s.red.own ++ s.red.peer).filter (entryDue s)
    let stay := fun (l : List DigestEntry) => l.filter fun e => !entryDue s e
    forAll { s with red := { s.red with own := stay s.red.own, peer := stay s.red.peer } } late fun s e => mismatch s 2 e)

/-- The results of both modules, the peer's none where the link failed before it came. -/
def diagResults (s : State) : Bool × Option Bool :=
  (getF s F.RED_MISMATCH_OWN_DIAG = 2,
    if getF s F.RED_MISMATCH_PEER_DIAG < 2 then none else some (getF s F.RED_MISMATCH_PEER_DIAG = 2))

/-- Event RED 0x84; without the peer's result either row of the own result may hold, and its severity is free
(assumption 8). -/
def diagEvent (s : State) (own : Bool) (peer : Option Bool) : State :=
  let items := [getF s F.RED_MISMATCH_OWN_DIAG, getF s F.RED_MISMATCH_PEER_DIAG]
  let base := if own then 5 else 6
  match peer with
  | some p => ev s blkRED 0x84 (base + bNat (!p)) items
  | none =>
    let (v, s) := takeFree s
    ev s blkRED 0x84 (base + v % 2) items

/-- A standby leaves sync after two passes; the third such outcome within an hour locks it out (R294). -/
def bothPassed (s : State) : State :=
  let t := nowNs s
  let times := (s.red.passPass.filter fun x => t < x + 3600000000000) ++ [t]
  let s := leaveSync { s with red := { s.red with passPass := times } }
  if 3 ≤ times.length then
    setRole { (setF s F.RED_EVENTS_LOCKOUT 1) with red := { s.red with lockedOut := true } } roLOCKED_OUT
  else if flag s F.RED_CFG_AUTO_RESYNC && linkUp s then reSource (setRole s roSYNCING)
  else s

/-- A module whose own diagnosis failed is FATAL (R293, R294): the holder of the token gives it up at its next tick (R295,
R297), and any other module goes to DEGRADED and restarts warm. -/
def diagFail (s : State) : State :=
  let s := { s with red := { s.red with diagFailed := true } }
  if holds s then showHealth s else restartIfReleased (giveUp s caRUNTIME)

/-- The outcome of a mutual diagnosis once both results are known, or the own one where the link has failed (R294). -/
def diagOutcome (s : State) : State :=
  if !s.red.diagnosing || getF s F.RED_MISMATCH_OWN_DIAG < 2 || (linkUp s && getF s F.RED_MISMATCH_PEER_DIAG < 2) then s
  else
    let (own, peer) := diagResults s
    let s := diagEvent s own peer
    if !own then diagFail { s with red := { s.red with diagnosing := false } }
    else
      let call := decide (roleOf s = roSTANDBY) && peer != some true
      let s := showHealth { s with red := { s.red with diagnosing := false, takeCalled := call } }
      if roleOf s = roSTANDBY && peer = some true then bothPassed s else s

/-- DIAGNOSIS_COMPLETE: the self-tests of a mutual diagnosis end: the known-answer test, the scrub, and the check of the
SEQ continuity (R294). -/
def execDiagnosisComplete (answer scrub seqs : Bool) (s : State) : Host.Outcome State Fault Refusal :=
  .next (if s.red.diagnosing && getF s F.RED_MISMATCH_OWN_DIAG = 1 then
      diagOutcome (setF s F.RED_MISMATCH_OWN_DIAG (if answer && scrub && seqs then 2 else 3))
    else s)

/-- The link goes down (R285); under diagnosis each module then acts on its own result (R294). -/
def linkDown (s : State) : State := diagOutcome (linkFall s)

/-! ### The keeper (R276) -/

/-- The keeper trips; the severity of its event is stated nowhere (assumption 8). -/
def keeperTrip (s : State) : State :=
  if flag s F.RED_STATUS_KEEPER_TRIPPED then s
  else
    let s := setF { s with red := { s.red with keeperOk := false } } F.RED_STATUS_KEEPER_TRIPPED 1
    let (v, s) := takeFree s
    restartIfReleased (giveUp (ev s blkRED 0x85 (v % 8) []) caKEEPER)

/-- A key written to RED_REFRESH: none comes while boot is stopped, before the runtime (R276, R425). -/
def keeperRefresh (s : State) (key : Nat) (pcie : Bool) : State :=
  if pcie then cfgErr s
  else if s.boot.stage < 2 || flag s F.RED_STATUS_KEEPER_TRIPPED then s
  else
    let accept := { s with red := { s.red with keeperKey := some key, keeperOk := s.red.keeperTest } }
    match s.red.keeperKey with
    | none => if key = 0x5A then accept else s
    | some k => if key = 255 - k then accept else keeperTrip s

/-- KEEPER_REFRESH: KEY written by the runtime, or from the PCIe side (R276). -/
def execKeeperRefresh (key : BitVec 8) (pcie : Bool) (s : State) : Host.Outcome State Fault Refusal :=
  .next (keeperRefresh s key.toNat pcie)

/-- KEEPER_TRIP: no accepted write for TIMEOUT_US while the refresh timer runs (R276). -/
def execKeeperTrip (s : State) : Host.Outcome State Fault Refusal :=
  .next (if s.red.keeperKey.isSome then keeperTrip s else s)

/-! ### The peer's line (R275, R278, R296) -/

/-- TOKEN_HOLD_IN_FALL: the line falls `ns` ns after the latest tick; a module that does not hold outputs itself keeps the
levels emitted last, which are the hold image of a take (R277, R296). -/
def execTokenHoldInFall (ns : Nat) (s : State) : Host.Outcome State Fault Refusal :=
  .next (if !tokenIn s then s
    else
      let s := { s with red := { s.red with fall := some (tb0Ns s + ns % 250000) } }
      let s := if s.red.latched || s.red.taking then s else { s with fio := { s.fio with latch := s.fio.emitted } }
      setF s F.RED_STATUS_TOKEN_IN 0)

/-- TOKEN_HOLD_IN_RISE: the peer has taken the token, and latched outputs go off (R275, R296). -/
def execTokenHoldInRise (s : State) : Host.Outcome State Fault Refusal :=
  .next (if tokenIn s then s
    else
      let s := setF { s with red := { s.red with fall := none } } F.RED_STATUS_TOKEN_IN 1
      if isPair s && s.red.latched then restartIfReleased (evBit (releaseLatches s) F.RED_EVENTS_SWITCH 5 []) else s)

/-- TOKEN_CONTENTION: both lines are high; the module at position B gives up without latching (R278). -/
def execTokenContention (s : State) : Host.Outcome State Fault Refusal :=
  .next (if !(isPair s && holds s && tokenIn s) then s
    else
      let s := evBit s F.RED_EVENTS_CONTENTION 6 []
      if position s ≠ 2 then s
      else
        let s := { s with red := { s.red with lastSwitch := some (tb0Ns s) } }
        let s := sendToken (setDrive (setF s F.RED_STATUS_TOKEN_OUT 0) drOFF)
        let r := { s.red with restartDue := some caRUNTIME, switchAsked := false, taking := false }
        restartIfReleased (setRole { s with red := r } roDEGRADED))

/-! ### The state copy that the holder of the token sends (R301, R335, R359) -/

/-- The program and model slots, which a STATE copy fills where the images differ (R301). -/
def imageArea (a : Nat) : Bool :=
  (imageSlot ikPROGRAM 0 ≤ a && a < imageSlot ikPROGRAM 1 + imageSlotLen ikPROGRAM) ||
  (imageSlot ikMODEL 0 ≤ a && a < imageSlot ikMODEL 1 + imageSlotLen ikMODEL)

/-- The settings that a standby takes from the active module (R335, R359, R415). -/
def sharedSettings : List Nat :=
  [R.DPO_CTRL, R.SES_CFG, R.SES_CFG2, R.TIM_CFG, F.TIM_DOM_CFG_ENABLE.at 0, F.TIM_DOM_CFG_ENABLE.at 1, R.FIO_OLD_EN] ++
    (List.range 4).map F.FIO_FILT_FILT.at

/-- The parts of the state that go to a joining module. -/
def stateParts (s : State) : List StatePart :=
  (if s.red.peerSame then [] else [.bytes (memKeep imageArea s.mem)]) ++
  [.program s.cfg.progSlot s.prog, .instances s.inst, .mailboxes s.mbox, .forces s.forces, .solver s.nsa, .loops s.lpe,
   .dispatch s.dpo, .settings (sharedSettings.map fun a => (a, getReg s a)), .metering { s.mtr with fwd := [] } [],
   .safe s.cfg.safe]

/-- The parts that the peer has not been sent as they now stand. -/
def sendParts (s : State) : State :=
  let ps := stateParts s
  let new := ps.filter fun p => !s.red.sentParts.contains p
  forAll { s with red := { s.red with sentParts := ps } } new fun s p => furovSend s (.state p)

/-- A peer that is SYNCING is sent the state copy from its start (R301, R480). -/
def serveJoiner (s : State) : State :=
  if holds s && linkUp s && peerRole s = roSYNCING then sendParts { s with red := { s.red with sentParts := [] } } else s

/-! ### Takes (R277, R296, R319) -/

/-- A session at a take: SEQs at or below SEQ_HI count as seen, and the transmit SEQ goes on 2¹⁶ higher; a pending one is
dropped (R319). -/
def Session.atTake (x : Session) : Session :=
  let y := if x.state = ssPENDING then x.leave ssFREE else x
  { y with txSeq := y.txSeq + 65536, seen := (List.range 64).filterMap fun i => if i < y.seqHi then some (y.seqHi - i) else none }

/-- A standby may take at a tick: it is eligible, or it passed a diagnosis that the active module failed, whatever its
SCORE (R277, R296); a FATAL module never may (R300). -/
def takeAllowed (s : State) : Bool :=
  roleOf s = roSTANDBY && isPair s && s.red.fall.isSome && lineFree s && !isFatal s && (isEligible s || diagTake s)

/-- The take at its tick: the line rises with the hold image on the outputs; the emission comes 10 µs later (R277, R296,
R301, R319, R351). -/
def takeToken (s : State) : State :=
  let us := (tb0Ns s - s.red.fall.getD (tb0Ns s)).toNat / 1000
  let s := { s with red := { s.red with taking := true, diagnosing := false, takeCalled := false, lastSwitch := some (tb0Ns s) } }
  let s := setF (bump s F.RED_CNT_SWITCH_COUNT) F.RED_LAST_TAKE_US (min us 65535)
  let s := raiseToken (setF s F.RED_STATUS_IN_SYNC 0)
  let s := reSource (setDrive s drLIVE)
  let s := showSes { s with ses := { s.ses with live := s.ses.live.map (fun e => (e.1, e.2.atTake)), acc := 0 } }
  let s := if flag s F.RED_STATUS_MTR_JOINED then s else restoreMeters s none
  evBit s F.RED_EVENTS_SWITCH 5 []

/-- TOKEN_TAKE: at the next tick, where the take is allowed (R277). -/
def execTokenTake (s : State) : Host.Outcome State Fault Refusal :=
  .next (let t := toTick s
    if s.boot.stage ≠ 0 && tickDone s && takeAllowed t then takeToken t else s)

/-- TAKE_EMISSION: item 1 of the take tick; periods that wait for the peer's inputs start on the module's own (R277,
R296). -/
def execTakeEmission (s : State) : Host.Outcome State Fault Refusal :=
  .next (if !s.red.taking then s
    else
      let due := s.red.inputDue
      let s := arrive { s with red := { s.red with taking := false, inputDue := [], tickDue := false } }
      if due.isEmpty then s else item4 (beginPeriods (sampleField s) (due.filterMap (taskRec s))))

/-- ADDRESS_ANNOUNCE_REPEAT: 100 ms and 1 s after a take (R319). -/
def execAddressAnnounceRepeat (s : State) : Host.Outcome State Fault Refusal :=
  .next (match s.red.announceAt with
    | t :: rest =>
      if holds s && t ≤ nowNs s then announce { s with red := { s.red with announceAt := rest } } else s
    | [] => s)

/-- The token taken without a peer's image: outputs start from engaged latches or safe values, and a peer that is SYNCING
already gets its copy (R264, R480). -/
def takeAlone (s : State) : State := serveJoiner (reSource (setDrive (raiseToken s) drLIVE))

/-! ### Stalemate (R298, R299) -/

/-- STALEMATE_HOLD_EXPIRY: the latches take the safe values (R275, R298). On a module that drives live again, the channels
that still wait for their task take theirs with the next tick (R411). -/
def execStalemateHoldExpiry (s : State) : Host.Outcome State Fault Refusal :=
  .next (if s.red.latched && !s.red.holdOver then
      let s := { s with red := { s.red with holdOver := true } }
      if driveOf s = drLATCHED then restartIfReleased (setDrive s drSAFE) else s
    else s)

/-- HOLD_MS has expired since the give-up, at position B with 2 s more (R299). -/
def holdExpired (s : State) : Bool :=
  let t : Int := match s.red.fall, s.red.lastSwitch with
    | some a, some b => max a b
    | some a, none => a
    | none, some b => b
    | none, none => 0
  decide (t + getF s F.RED_STALE_HOLD_MS * 1000000 + (if position s = 2 then 2000000000 else 0) ≤ (tb0Ns s : Int))

/-- The conditions of a take out of stalemate (R299). -/
def mayColdTake (s : State) : Bool :=
  isPair s && inStalemate s && !isFatal s && decide (getF s F.RED_CFG_ELIG_MIN ≤ ownScore s) && holdExpired s && lineFree s

/-- The program restarts warm from the module's own retain memory (R262, R263, R299): an exchange that waits is cancelled
(R268), and which cores and clusters pass the self-test is free (assumption 60). -/
def warmRestart (s : State) : State :=
  let (v, s) := takeFree (cancelExchange s)
  let s := openEngines (selfTests s (v % 16) (v / 16 % 256))
  let s := setF (setF (setF (setF s F.NSA_STATUS_HYD_BUSY 0) F.NSA_STATUS_PLY_BUSY 0) F.NSA_STATUS_STUDY_BUSY 0) F.NSA_STATUS_DPO_BUSY 0
  let s := { s with tasks := Vector.replicate 16 { Task.reset with nextInfo := 2 },
                    cores := s.cores.map fun (k : Core) => ({ k with running := none } : Core),
                    nsa := { s.nsa.after rkWARM with model := s.nsa.model }, dpo := Dpo.reset, lpe := s.lpe.after rkCOLD,
                    fio := { s.fio with unbound := false },
                    boot := { s.boot with restart := rsWARM } }
  let s := match s.prog with
    | some p => installProgram (mapEvents s p) p s.cfg.progSlot (restartInst s p true)
    | none => s
  warmState s

/-- A take out of stalemate at the next tick, where it is allowed. -/
def coldTake (s : State) : Option State :=
  let t := reachTick s
  if mayColdTake t then some (takeAlone (warmRestart t)) else none

/-- COLD_TAKE: with RED_CFG.COLD_TAKE = 1 (R299). -/
def execColdTake (s : State) : Host.Outcome State Fault Refusal :=
  .next (if flag s F.RED_CFG_COLD_TAKE then (coldTake s).getD s else s)

/-! ### Commands of RED_CMD (R302) -/

/-- A command that does not apply (R297, R302). -/
def cmdRefused (s : State) : State := setF s F.RED_EVENTS_CMD_REFUSED 1

/-- SWITCH: the token goes to an eligible peer at the next tick (R295). -/
def redSwitch (s : State) : State :=
  if holds s && peerEligible s then { s with red := { s.red with switchAsked := true } } else cmdRefused s

/-- The peer holds the token, as it reports. -/
def peerActive (s : State) : Bool := peerRole s = roACTIVE || peerRole s = roSOLO

/-- The module becomes SYNCING, and TB1 takes the PEER source where it is valid (R301, R480). -/
def startSync (s : State) : State :=
  reSource (setRole (restartEffect { s with red := { s.red with joining := false } }) roSYNCING)

/-- RESYNC: an UNSYNCED module asks for R301. -/
def redResync (s : State) : State :=
  if roleOf s = roUNSYNCED && linkUp s && peerActive s then startSync s else cmdRefused s

/-- RELEASE_LOCKOUT (R294). -/
def redRelease (s : State) : State :=
  if roleOf s = roLOCKED_OUT then setRole { s with red := { s.red with lockedOut := false } } roUNSYNCED else cmdRefused s

/-- TAKE (R299). -/
def redTake (s : State) : State := (coldTake s).getD (cmdRefused s)

/-- A write to RED_CMD. -/
def redCmdWrite (s : State) (v : Word) : State :=
  checkedWrite s R.RED_CMD v fun s => match bitsOf 2 0 v.toNat with
    | 0 => s
    | 1 => redSwitch s
    | 2 => redResync s
    | 3 => redRelease s
    | 4 => redTake s
    | _ => cfgErr s

/-- SWITCH: 1 written to RED_CMD (R295). -/
def execSwitch (s : State) : Host.Outcome State Fault Refusal := .next (redCmdWrite s 1)
/-- RESYNC: 2 written to RED_CMD (R301). -/
def execResync (s : State) : Host.Outcome State Fault Refusal := .next (redCmdWrite s 2)
/-- RELEASE_LOCKOUT: 3 written to RED_CMD (R294). -/
def execReleaseLockout (s : State) : Host.Outcome State Fault Refusal := .next (redCmdWrite s 3)
/-- TAKE: 4 written to RED_CMD (R299). -/
def execTake (s : State) : Host.Outcome State Fault Refusal := .next (redCmdWrite s 4)

/-- A write to RED_CFG, RED_STALE or RED_KEEPER (R302). -/
def redCfgWrite (s : State) (a : Nat) (v : Word) : State :=
  let n := v.toNat
  let ok := if a = R.RED_CFG then bitsOf 7 0 n ≠ 0
    else if a = R.RED_STALE then bitsOf 15 0 n ≤ 60000
    else 100 ≤ bitsOf 9 0 n && bitsOf 9 0 n ≤ 1000
  if ok then showHealth (plainWrite s a v) else cfgErr s

/-! ### Arbitration (R300, R477 step 5) -/

/-- The module is at its arbitration point. -/
def mayArbitrate (s : State) : Bool :=
  roleOf s = roINIT && 3 ≤ s.boot.stage && !flag s F.EVR_STATUS_RESTORING && position s ≠ 3 && lifecycle s ≠ 3

/-- With the link up and no holder, the higher SCORE takes, position A on a tie; a FATAL module never does (R300). -/
def arbitratePair (s : State) : State :=
  let own := ownScore s
  let peer := getF s F.RED_HEALTH_PEER_SCORE
  if peerRole s = 15 then s
  else if peer < own || (peer = own && position s = 1) then
    if isFatal s then setRole s roDEGRADED
    else
      let t := reachTick s
      if lineFree t then takeAlone t else s
  else startSync s

/-- ARBITRATION (R270, R300). -/
def execArbitration (s : State) : Host.Outcome State Fault Refusal :=
  .next (if !mayArbitrate s then s
    else if s.red.lockedOut then setRole s roLOCKED_OUT
    else if !isPair s then
      if isFatal s then setRole s roSINGLE else if lineFree s then takeAlone (reachTick s) else s
    else if linkUp s then
      if peerActive s then startSync s else if tokenIn s then s else arbitratePair s
    else if tokenIn s then setRole s roUNSYNCED
    else s)

/-- ARBITRATION_LINK_TIMEOUT: the link is not up 5 s after qualification at position A, 7 s at B (R300). -/
def execArbitrationLinkTimeout (s : State) : Host.Outcome State Fault Refusal :=
  .next (if !mayArbitrate s || s.red.lockedOut || !isPair s || linkUp s then s
    else if tokenIn s then setRole s roUNSYNCED
    else if isFatal s then setRole s roDEGRADED
    else
      let t := reachTick s
      if lineFree t then takeAlone t else s)

/-! ### The tick (R116, R292, R295) -/

/-- Supply and plate temperature as measured at the tick. -/
def showSupply (s : State) (vin temp : BitVec 16) : State :=
  let low := getF s F.PWR_VIN_MIN_MV
  let s := setF (setF s F.PWR_VIN_MV vin.toNat) F.PWR_TEMP_DECI_C temp.toNat
  setF s F.PWR_VIN_MIN_MV (if low = 0 then vin.toNat else min low vin.toNat)

/-- Rerolls and corrected errors older than 10 s are forgotten (R292). -/
def pruneHealth (s : State) : State :=
  let keep := fun (l : List Nat) => l.filter fun t => nowNs s < t + 10000000000
  { s with red := { s.red with rerolls := keep s.red.rerolls, corrected := keep s.red.corrected } }

/-- SCORE and penalties of the tick, with the event of a broken token wire (R281, R292). -/
def tickHealth (s : State) : State :=
  let was := (getF s F.RED_PENALTY_COND).testBit 13
  let s := if tokenWire s && !was then evBit s F.RED_EVENTS_TOKEN_WIRE 6 [] else s
  showStalemate (showHealth (pruneHealth s))

/-- The holder of the token gives it up at this tick (R295). -/
def giveUpDue (s : State) : Bool :=
  let own := scoreNoWarn s
  let rested := s.red.lastSwitch.all fun (t : Int) => t + 60000000000 ≤ (tb0Ns s : Int)
  holds s && (isFatal s || (peerEligible s && (decide (own < getF s F.RED_CFG_ELIG_MIN) ||
    (rested && decide (own + getF s F.RED_CFG_MARGIN ≤ getF s F.RED_HEALTH_PEER_SCORE)) || s.red.switchAsked ||
    (flag s F.PWR_STATUS_WARN && flag s F.RED_CFG_WARN_SWITCH))))

/-- What the module's HEALTH frame says (R284, R292). -/
def healthOf (s : State) : Health :=
  { score := ownScore s, fatal := isFatal s, penalties := getF s F.RED_PENALTY_COND, role := roleOf s,
    inSync := flag s F.RED_STATUS_IN_SYNC, diag := getF s F.RED_MISMATCH_OWN_DIAG }

/-- The tags that TAG sources of loops read (R123). -/
def loopTags (s : State) : List Nat :=
  let of := fun (w : List Nat) (a : Nat) => if srcKind w a = 2 then some (srcArg w a) else none
  sortDedup (s.lpe.loops.flatMap fun e => [srcPV, srcSP, srcFF, srcSCHED, srcMAN].filterMap (of e.2.words))

/-- The bytes of the input tags that the loop evaluations of a tick read (R284). -/
def tickSamples (s : State) : List (Nat × Byte) :=
  let on := (loopTags s).filterMap fun t => (tagOf s t).filter fun e => !e.out
  on.flatMap fun e => (memBytes s.inImg e.off (tagSize e.typ)).zipIdx.map fun b => (e.off + b.2, b.1)

/-- The frames of a tick; a TIME frame's start block leaves once those before it have, within the tick (R284, R287, R350,
assumption 8). -/
def tickFrames (s : State) : State :=
  let s := furovSend s (.health (healthOf s))
  let s := if roleOf s = roACTIVE then furovSend s (.tick (tickNow s) (tickSamples s) s.red.forceChg) else s
  let s := { s with red := { s.red with forceChg := [] } }
  let s := if holds s && peerRole s = roSYNCING && !s.red.sentParts.isEmpty then sendParts s else s
  if tickNow s % 4 = 0 then furovSend s (.time (nowNs s + Config.frameWait s.red.laneTx.frames % tickNs) s.tim.peerRx) else s

/-- The runtime turns off the gates of faulty clusters, which no job has any more (R83, R462). -/
def closeGates (s : State) : State :=
  setF s F.CLK_GATE_ENG_CL (getF s F.CLK_GATE_ENG_CL &&& (255 - getF s F.NSA_CLUSTER_FAULTY))

/-- Loop evaluations of the tick; a standby's wait for the TICK frame (R27 item 5, R287). A loop engine whose gate is off
evaluates nothing (R462, assumption 76). -/
def tickLoops (s : State) : State :=
  if !(executes s && s.runState && flag s F.CLK_GATE_ENG_LPE) then s
  else if roleOf s = roSTANDBY then releaseTick { s with red := { s.red with tickDue := true } }
  else lpeEvaluate s (tickNow s)

/-- A tick of the loop engine carried out, the supply apart. -/
def runTick (s : State) : State :=
  let s := tickLoops s
  let s := admitTick (driveOutputs (if executes s && s.runState then pulseStarts s else s))
  let s := closeGates (compareDigests (tickHealth s))
  let s := if giveUpDue s then restartIfReleased (giveUp s caRUNTIME) else s
  tickFrames { s with red := { s.red with switchAsked := false } }

/-- A tick of the loop engine carried out; a reset that the supply begins at the tick leaves nothing of it (R463). -/
def engineTick (s : State) (vin temp : BitVec 16) : State :=
  let s := compareVin (showSupply s vin temp) vin.toNat
  let s := if s.boot.stage = 0 then s else runTick s
  if s.boot.stage = 0 then s else { s with tim := { s.tim with tick := tickNow s } }

/-- LOOP_ENGINE_TICK (R116), after items 1 to 4 of its instant (R27): `vin` in mV and `temp` in 0.1 °C are what the
supply and plate sensors measure. -/
def execLoopEngineTick (vin temp : BitVec 16) (s : State) : Host.Outcome State Fault Refusal :=
  .next (if s.boot.stage = 0 || s.red.taking then s else engineTick (meetDispatch (items14 (reachTick s) ⟨0, 0, 0⟩)) vin temp)

/-! ### Joining (R301, R480) -/

/-- The kind of a STATE part. -/
def StatePart.kind : StatePart → Nat
  | .bytes _ => 0
  | .program .. => 1
  | .instances _ => 2
  | .mailboxes _ => 3
  | .forces _ => 4
  | .solver _ => 5
  | .loops _ => 6
  | .dispatch _ => 7
  | .settings _ => 8
  | .metering .. => 9
  | .safe _ => 10

/-- The joining module has received one full pass of STATE frames; images come with it where they differ (R301, R480,
R484). -/
def fullPass (s : State) : Bool :=
  ((List.range 11).drop (bNat s.red.peerSame)).all fun k => s.red.gotParts.contains k

/-- RESYNC_INSTANT: Tᵣ, on the joining module once a full pass has come, and on the holder of the token (R301, R480, R484). -/
def execResyncInstant (s : State) : Host.Outcome State Fault Refusal :=
  .next (let t := reachTick s
    if !linkUp t || nowNs t % netNs t ≠ 0 then s
    else if roleOf t = roSYNCING then if !fullPass t then s else
      let t := startMeters (setF (setF (setRole t roSTANDBY) F.RED_STATUS_IN_SYNC 1) F.TIM_STATUS_SEALED 1)
      ev (bump t F.RED_CNT_RESYNC_COUNT) blkRED 0x87 2 [cycleNow t]
    else if roleOf t = roSOLO && peerRole t = roSYNCING && t.runState && t.boot.runAt + 200000000 ≤ nowNs t &&
        !t.red.sentParts.isEmpty then
      let t := sendParts t
      setRole (bump { t with red := { t.red with sentParts := [], mtrSent := false } } F.RED_CNT_RESYNC_COUNT) roACTIVE
    else s)

end Sys2Proof.Machine
end

