-- ==== Sys2Proof/Machine/Tim.lean ====
section
/-!
DEFINITION. The PTP domains, transparent forwarding, hardware timestamps and the TIM commands (13 R346 to R359).
-/
namespace Sys2Proof.Machine

/-! ### Domains -/

/-- A domain's state beside its registers. -/
def domOf (s : State) (d : Nat) : PtpDom := if d = 0 then s.tim.domA else s.tim.domB

/-- The state with a domain changed. -/
def modDom (s : State) (d : Nat) (f : PtpDom → PtpDom) : State :=
  if d = 0 then { s with tim := { s.tim with domA := f s.tim.domA } } else { s with tim := { s.tim with domB := f s.tim.domB } }

/-- A domain enters a state, which may move TB1 to another source (R343, R349). -/
def setDomState (s : State) (d st : Nat) : State :=
  if domState s d = st then s
  else
    let s := setF (setFi s F.TIM_DOM_STAT_STATE d st) (if d = 0 then F.TIM_STATUS_DOM_A else F.TIM_STATUS_DOM_B) st
    let s := modDom s d fun x => { x with good := 0, bad := 0, lockedSince := tb0Ns s }
    reSource s

/-- The slave port of a domain, none where it reads 0xF. -/
def slavePort (s : State) (d : Nat) : Nat := getFi s F.TIM_DOM_STAT_PORT d

/-- A domain takes part on a port. -/
def domOnPort (s : State) (d p : Nat) : Bool :=
  getFi s F.TIM_DOM_CFG_ENABLE d = 1 && (getFi s F.TIM_DOM_CFG_PORTS d).testBit p

/-- A ring port (R347). -/
def ringPort (p : Nat) : Bool := 2 ≤ p && p ≤ 5

/-- The message carries the domain number and the transport of a domain. -/
def domNamed (s : State) (m : PtpHdr) (d : Nat) : Bool :=
  getFi s F.TIM_DOM_CFG_DOMAIN d = m.domain && getFi s F.TIM_DOM_CFG_TRANSPORT d = m.transport

/-- The domain forwards between ring ports as a transparent clock (R354). -/
def tcOn (s : State) (d p : Nat) : Bool := getFi s F.TIM_DOM_CFG_TC_EN d = 1 && ringPort p

/-- The domain whose transparent clock a message meets. -/
def tcOfMsg (s : State) (m : PtpHdr) : Option Nat := [0, 1].find? fun d => tcOn s d m.port.val && domNamed s m d

/-- The domain that a message belongs to. -/
def domOfMsg (s : State) (m : PtpHdr) : Option Nat :=
  [0, 1].find? fun d => domOnPort s d m.port.val && domNamed s m d

/-- A PTP message sent, as its type, domain, sequenceId, source and correction; a port whose gate is off sends nothing
(R461). -/
def sendPtp (s : State) (port typ : Nat) (domain seq src : Nat) (corr : Int) : State :=
  if portGate s port then send s (.ptp port typ [domain, seq, src, uNat 64 corr]) else s

/-- The frame of a message forwarded as it came (R354). -/
def passOn (s : State) (m : PtpHdr) (typ : Nat) : State :=
  forAll s (m.out.filter fun e => e.1 != m.port) fun s e => sendPtp s e.1.val typ m.domain m.seq m.src m.corr

/-- A received message of a type: one of a kind that is not supported is discarded and counted (R346); one on a
port outside the rings is forwarded as an ordinary frame; on a ring port one of no domain of the module is forwarded so too,
and counted, and any other passes the transparent clock. It reaches the domain that takes part on its port (R354). -/
def ptpRow (s : State) (m : PtpHdr) (typ : Nat) (pass : Nat → State → State) (own : Nat → State → State) :
    Host.Outcome State Fault Refusal :=
  .next (if m.kind ≠ .plain then bump s F.TIM_CNT_FOREIGN_COUNT
    else if !ringPort m.port.val then
      let s := passOn s m typ
      match domOfMsg s m with | some d => own d s | none => s
    else match tcOfMsg s m, domOfMsg s m with
      | none, none => passOn (bump s F.TIM_CNT_FOREIGN_COUNT) m typ
      | t, d =>
        let s := match t with | some t => pass t s | none => s
        match d with | some d => own d s | none => s)

/-- A domain's base at a TB0 stamp in ns, in units (R348). -/
def baseAt (s : State) (d : Nat) (stamp : Int) : Int × State :=
  let b : Int := if d = 0 then s.tim.tb2 else s.tim.tb3
  let r := divFree s (((s.tim.tb0 : Int) - stamp * tbUnit) * rateOf (domAdj s d)) (2 ^ 40)
  (b - r.1, r.2)

/-- correctionField in units of 2⁻³⁹ ns. -/
def corrUnits (c : Int) : Int := c * 2 ^ 23

/-! ### Transparent forwarding (R354) -/

/-- The residence of an event message from its ingress stamp to the egress stamp on a port, in 2⁻¹⁶ ns, scaled by the
domain's rate. -/
def residence (s : State) (d : Nat) (m : PtpHdr) (e : Fin 14 × Nat) : Int × State :=
  divFree s ((egressAt s e.1.val e.2 - ingress s m.port.val m.rx) * 2 ^ 16 * rateOf (domAdj s d)) (2 ^ 40)

/-- The link delay of a ring port in 2⁻¹⁶ ns, for a domain of the 61850-9-3 profile. -/
def linkDelay (s : State) (d p : Nat) : Int × State :=
  if getFi s F.TIM_DOM_CFG_PROFILE d = 1 then
    match alGet? s.tim.pdelay p with | some r => divFree s r.delay (2 ^ 23) | none => (0, s)
  else (0, s)

/-- A corrected message forwarded out of a port whose gate is on. -/
def tcForward (s : State) (m : PtpHdr) (port typ : Nat) (corr : Int) : State :=
  if portGate s port then bump (sendPtp s port typ m.domain m.seq m.src corr) F.TIM_CNT_TC_FWD_COUNT else s

/-- The held item of a message's sequenceId and source for a port. -/
def tcMatch (s : State) (isSync : Bool) (d port : Nat) (m : PtpHdr) : Option TcItem :=
  s.tim.tc.find? fun i => i.isSync = isSync && i.dom = d && i.port = port && i.src = m.src && i.seq = m.seq

/-- The state with a held item taken away or added. -/
def tcDrop (s : State) (i : TcItem) : State := { s with tim := { s.tim with tc := s.tim.tc.erase i } }
def tcHold (s : State) (i : TcItem) : State := { s with tim := { s.tim with tc := s.tim.tc ++ [i] } }

/-- The ring ports out of which the switch forwards a message. -/
def tcPorts (m : PtpHdr) : List (Fin 14 × Nat) := m.out.filter fun e => ringPort e.1.val && e.1 != m.port

/-- The copies of a message that leave on other ports, as ordinary frames. -/
def passOther (s : State) (m : PtpHdr) (typ : Nat) : State :=
  passOn s { m with out := m.out.filter fun e => !ringPort e.1.val } typ

/-- An event message leaves a port with its residence added, and nothing held for it. -/
def tcAdd (s : State) (d : Nat) (m : PtpHdr) (typ : Nat) (e : Fin 14 × Nat) : State :=
  let r := residence s d m e
  tcForward r.2 m e.1.val typ (m.corr + r.1)

/-- A Sync leaves a port: a one-step one with its correction, a two-step one with its Follow_Up's. -/
def tcSync (s : State) (d : Nat) (m : PtpHdr) (twoStep : Bool) (e : Fin 14 × Nat) : State :=
  let l := linkDelay s d m.port.val
  let r := residence l.2 d m e
  let s := r.2
  let c := r.1 + l.1
  if !twoStep then tcForward s m e.1.val 0 (m.corr + c)
  else
    let s := sendPtp s e.1.val 0 m.domain m.seq m.src m.corr
    match tcMatch s false d e.1.val m with
    | some f => tcForward (tcDrop s f) m e.1.val 8 (f.corr + c)
    | none => tcHold s { isSync := true, dom := d, port := e.1.val, src := m.src, seq := m.seq, corr := c, origin := 0, at_ := tb0Ns s }

/-- A Delay_Req leaves a port, corrected under the default profile and as it came under the other. -/
def tcDelayReq (s : State) (d : Nat) (m : PtpHdr) (e : Fin 14 × Nat) : State :=
  if getFi s F.TIM_DOM_CFG_PROFILE d ≠ 0 then sendPtp s e.1.val 1 m.domain m.seq m.src m.corr else tcAdd s d m 1 e

/-- A Sync or a Delay_Req passes through the switch. -/
def tcEvent (m : PtpHdr) (twoStep delayReq : Bool) (d : Nat) (s : State) : State :=
  forAll (passOther s m (bNat delayReq)) (tcPorts m) fun s e => if delayReq then tcDelayReq s d m e else tcSync s d m twoStep e

/-- A Follow_Up passes through the switch, or waits for its Sync. -/
def tcFollowUp (m : PtpHdr) (origin d : Nat) (s : State) : State :=
  forAll (passOther s m 8) (tcPorts m) fun s e => match tcMatch s true d e.1.val m with
    | some y => tcForward (tcDrop s y) m e.1.val 8 (m.corr + y.corr)
    | none => tcHold s { isSync := false, dom := d, port := e.1.val, src := m.src, seq := m.seq, corr := m.corr,
                         origin := origin, at_ := tb0Ns s }

/-- TC_FOLLOW_UP_TIMEOUT: Follow_Ups held for 100 ms are forwarded unchanged, and each message is counted once. -/
def execTcFollowUpTimeout (s : State) : Host.Outcome State Fault Refusal :=
  let old := s.tim.tc.filter fun i => i.at_ + 100000000 ≤ tb0Ns s
  let seen := fun (i : TcItem) (l : List TcItem) => l.any fun x => !x.isSync && x.dom = i.dom && x.src = i.src && x.seq = i.seq
  .next (forAll s old fun s i =>
    let s := tcDrop s i
    if i.isSync then s
    else
      let s := sendPtp s i.port 8 (getFi s F.TIM_DOM_CFG_DOMAIN i.dom) i.seq i.src i.corr
      if seen i s.tim.tc then s else bump s F.TIM_CNT_FOREIGN_COUNT)

/-! ### The servo (R348, R349) -/

/-- ADJ after an accepted Sync: the master's rate over 16 intervals, and the offset spread over four intervals. Before
16 intervals have passed the rate is stated nowhere (assumption 8). -/
def servoAdj (s : State) (x : PtpDom) (off : Int) : Int × State :=
  match x.syncs, x.syncs[16]? with
  | (m, l) :: _, some (m', l') =>
    let dl := l - l'
    let k : Int := 4 * x.syncInt * tbUnit
    if dl ≤ 0 || k ≤ 0 then (0, s)
    else
      let (a, s) := divFree s (((m - m') - dl) * 2 ^ 40 * k - off * 2 ^ 40 * dl) (k * dl).toNat
      (clampInt (-adjMax) adjMax a, s)
  | _, _ =>
    let (v, s) := takeFree s
    (((v % (2 * adjMax.toNat + 1) : Nat) : Int) - adjMax, s)

/-- The lock rules after a Sync with an offset (R349). -/
def servoState (s : State) (d : Nat) (off : Int) (ptpTs : Bool) : State :=
  let lock : Int := getFi s F.TIM_DOM_THR_LOCK_NS d * tbUnit
  let a : Int := off.natAbs
  let st := domState s d
  if !ptpTs then setDomState s d dsINELIGIBLE
  else if st = dsLOCKED then
    if decide (8 * lock < a) then
      let n := (domOf s d).bad + 1
      if 4 ≤ n then setDomState s d dsHOLDOVER else modDom s d fun x => { x with bad := n, lockAdj := domAdj s d }
    else modDom s d fun x => { x with bad := 0, lockAdj := domAdj s d }
  else
    let s := setDomState s d dsACQUIRING
    if decide (a < lock) then
      let n := (domOf s d).good + 1
      let s := modDom s d fun x => { x with good := n, lockAdj := domAdj s d }
      if 16 ≤ n then setDomState s d dsLOCKED else s
    else modDom s d fun x => { x with good := 0 }

/-- An accepted Sync, or a Sync and Follow_Up pair: master time, receive time on TB0 in ns, and corrections. A step moves the
stamp of a Delay_Req on its way with the base. -/
def domSync (s : State) (d : Nat) (origin : Nat) (corr : Int) (rx : Int) : State :=
  let x := domOf s d
  let m : Int := origin * tbUnit + corr
  let b := baseAt s d rx
  let s := b.2
  let d21 := b.1 - m
  let off := d21 - x.mpd
  let s := setFi s F.TIM_DOM_OFS_VALUE d (uNat 32 (clampInt (-2 ^ 31) (2 ^ 31 - 1) (off / tbUnit)))
  let big : Bool := decide ((getFi s F.TIM_DOM_THR_STEP_US d * 1000 * tbUnit : Nat) < off.natAbs)
  let s := if big then
      evBit (bump (stepBase s (d + 1) (-off)) F.TIM_CNT_STEP_COUNT) F.TIM_EVENTS_DOM_STEP 3 []
    else s
  let s := modDom s d fun x => { x with syncs := ((m, rx * tbUnit) :: x.syncs).take 17, lastSync := tb0Ns s,
                                        d21 := if big then d21 - off else d21,
                                        dreq := if big then x.dreq.map fun q => (q.1, q.2 - off) else x.dreq }
  let (adj, s) := servoAdj s (domOf s d) (if big then 0 else off)
  let s := setFi s F.TIM_DOM_ADJ_VALUE d (uNat 32 adj)
  servoState s d off (getFi s F.TIM_DOM_STAT_PTP_TS d = 1)

/-- The message comes from the domain's master on its slave port. -/
def fromMaster (s : State) (d : Nat) (m : PtpHdr) : Bool := slavePort s d = m.port.val && (domOf s d).master = some m.src

/-- A Sync reaches its domain: a one-step one is a pair by itself, a two-step one waits for its Follow_Up unless that has
come already. -/
def ownSync (m : PtpHdr) (twoStep : Bool) (origin d : Nat) (s : State) : State :=
  if !fromMaster s d m || decide (m.log < -7) || decide (1 < m.log) then s
  else
    let s := modDom s d fun x => { x with syncInt := if 0 ≤ m.log then 1000000000 * 2 ^ m.log.toNat
                                                     else 1000000000 / 2 ^ m.log.natAbs }
    let rx := ingress s m.port.val m.rx
    let c := corrUnits m.corr
    if !twoStep then domSync s d origin c rx
    else match (domOf s d).early.filter fun f => f.1 = m.seq with
      | some f => domSync (modDom s d fun x => { x with early := none, held := none }) d f.2.1 (c + f.2.2) rx
      | none => modDom s d fun x => { x with held := some (m.seq, rx, c), early := none }

/-- A Follow_Up reaches its domain: it completes its Sync, or waits for it. -/
def ownFollowUp (m : PtpHdr) (origin d : Nat) (s : State) : State :=
  if !fromMaster s d m then s
  else match (domOf s d).held.filter fun h => h.1 = m.seq with
    | some h => domSync (modDom s d fun x => { x with held := none }) d origin (h.2.2 + corrUnits m.corr) h.2.1
    | none => modDom s d fun x => { x with early := some (m.seq, origin, corrUnits m.corr) }

/-- PTP_SYNC_RECEIVE (R348, R354): a Sync, or a Delay_Req of another clock. -/
def execPtpSyncReceive (m : PtpHdr) (twoStep delayReq : Bool) (origin : Nat) (s : State) :
    Host.Outcome State Fault Refusal :=
  ptpRow s m (bNat delayReq) (tcEvent m twoStep delayReq) fun d s => if delayReq then s else ownSync m twoStep origin d s

/-- PTP_FOLLOW_UP_RECEIVE (R348, R354). -/
def execPtpFollowUpReceive (m : PtpHdr) (origin : Nat) (s : State) : Host.Outcome State Fault Refusal :=
  ptpRow s m 8 (tcFollowUp m origin) (ownFollowUp m origin)

/-! ### Announce and the best master (R346, R349) -/

/-- A master is qualified at a time while its two latest Announces lie within the four intervals up to then (IEEE 1588-2019,
9.3; PRESUMED). -/
def PtpMaster.qualified (x : PtpMaster) (now : Nat) : Bool :=
  match x.before with | some b => decide (now ≤ b + 4 * x.interval) | none => false

/-- One data set is better than another: the first difference decides. -/
def rankLess : List Nat → List Nat → Bool
  | a :: as, b :: bs => if a = b then rankLess as bs else decide (a < b)
  | _, _ => false

/-- The comparison of two data sets (R346): those of one grandmaster by topology alone. -/
def PtpMaster.better (x y : PtpMaster) : Bool :=
  if x.gm = y.gm then rankLess x.topo y.topo else rankLess (x.rank ++ [x.gm]) (y.rank ++ [y.gm])

/-- The best of the masters that are qualified at a time. -/
def bestMaster (now : Nat) : List PtpMaster → Option PtpMaster
  | [] => none
  | x :: xs =>
    match bestMaster now xs with
    | none => if x.qualified now then some x else none
    | some y => if x.qualified now && x.better y then some x else some y

/-- A domain's selected master, as its slave port hears it. -/
def domMaster (s : State) (d : Nat) : Option PtpMaster :=
  (domOf s d).master.bind fun src => (domOf s d).masters.find? fun x => x.src = src && x.port = slavePort s d

/-- What the latest Announce of the selected master says (R344, R359). -/
def showMaster (s : State) (d : Nat) : State :=
  match domMaster s d with
  | none => s
  | some x =>
    let s := setFi (setFi s F.TIM_DOM_STAT_PTP_TS d (bNat x.ptpTs)) F.TIM_DOM_STAT_UTC_VALID d (bNat x.utcValid)
    let s := setFi s F.TIM_DOM_STAT_UTC_OFS d (uNat 16 x.utc)
    let s := setFi (setFi s F.TIM_DOM_GM_LO_VALUE d x.gm) F.TIM_DOM_GM_HI_VALUE d (x.gm / 2 ^ 32)
    if x.ptpTs then
      if domState s d = dsINELIGIBLE then setDomState s d dsACQUIRING else s
    else if domState s d = dsINELIGIBLE then s
    else ev (setDomState s d dsINELIGIBLE) blkTIM 0x80 3 [d]

/-- A domain follows another master, through ACQUIRING (R349); under the 61850-9-3 profile its path delay is the peer delay
of the slave port (R348). -/
def selectMaster (s : State) (d : Nat) (x : PtpMaster) : State :=
  let s := modDom s d fun y => { y with master := some x.src, held := none, early := none, syncs := [], dreq := none }
  let s := if getFi s F.TIM_DOM_CFG_PROFILE d = 1 then
      let v := ((alGet? s.tim.pdelay x.port).map (·.delay)).getD 0
      setFi (modDom s d fun y => { y with mpd := v }) F.TIM_DOM_MPD_VALUE d (uNat 32 (v / tbUnit))
    else s
  setDomState (setFi s F.TIM_DOM_STAT_PORT d x.port) d dsACQUIRING

/-- The domain goes to ACQUIRING although it is there already: its count of good Syncs begins anew. -/
def reacquire (s : State) (d : Nat) (x : PtpMaster) : State :=
  modDom (selectMaster s d x) d fun y => { y with good := 0, bad := 0 }

/-- An Announce reaches its domain, where its intervals are accepted (R346): the offset of a PTP-timescale grandmaster is
kept (R344), and another master or grandmaster is followed from ACQUIRING on (R349). -/
def ownAnnounce (m : PtpHdr) (a : AnnounceBody) (d : Nat) (s : State) : State :=
  if decide (m.log < 0) || decide (4 < m.log) || a.timeout < 2 || 255 < a.timeout || 255 ≤ a.steps then s
  else
    let s := if a.ptpTs then { s with cfg := { s.cfg with taiOffset := a.utc } } else s
    let old := (domOf s d).masters.find? fun x => x.src = m.src && x.port = m.port.val
    let x : PtpMaster :=
      { port := m.port.val, src := m.src, rank := [a.prio1, a.cls, a.acc, a.var, a.prio2], topo := [a.steps, m.src, m.port.val],
        gm := a.gm, ptpTs := a.ptpTs, utcValid := a.utcValid, utc := a.utc,
        leap := if a.leap61 then 1 else if a.leap59 then 2 else 0,
        interval := 1000000000 * 2 ^ m.log.toNat, timeout := a.timeout, last := tb0Ns s, before := old.map (·.last) }
    let s := modDom s d fun y =>
      { y with masters := (y.masters.filter fun z => !(z.src = x.src && z.port = x.port)) ++ [x] }
    let moved := old.any fun o => o.gm != x.gm
    let s := match bestMaster (tb0Ns s) (domOf s d).masters with
      | some b =>
        if (domOf s d).master = some b.src && slavePort s d = b.port && !(moved && b.src = x.src && b.port = x.port) then s
        else reacquire s d b
      | none => s
    showMaster s d

/-- PTP_ANNOUNCE_RECEIVE (R346, R349). -/
def execPtpAnnounceReceive (m : PtpHdr) (a : AnnounceBody) (s : State) : Host.Outcome State Fault Refusal :=
  ptpRow s m 0xB (fun _ s => passOn s m 0xB) (ownAnnounce m a)

/-- The states of a PTP port of an ordinary clock that is a slave only (R346). -/
inductive PtpPortState where
  | disabled
  | initializing
  | listening
  | uncalibrated
  | slave
  | passive
  deriving DecidableEq, Repr

/-- The state of a port in a domain: the slave port is uncalibrated until the domain is LOCKED; another port that hears a
qualified master is passive. -/
def ptpPortState (s : State) (d p : Nat) : PtpPortState :=
  if !domOnPort s d p then .disabled
  else if !s.runtimeUp then .initializing
  else if slavePort s d = p then (if domState s d = dsLOCKED then .slave else .uncalibrated)
  else if (domOf s d).masters.any fun x => x.port = p && x.qualified (tb0Ns s) then .passive
  else .listening

/-- The domain has no slave port: LISTENING (R349). -/
def domListen (s : State) (d : Nat) : State :=
  let s := modDom s d fun y => { y with master := none, held := none, early := none, syncs := [], dreq := none }
  setDomState (setFi s F.TIM_DOM_STAT_PORT d 0xF) d dsLISTENING

/-- ANNOUNCE_TIMEOUT (R349). -/
def execAnnounceTimeout (d : Fin 2) (s : State) : Host.Outcome State Fault Refusal :=
  .next (match domMaster s d.val with
    | some x =>
      if x.last + x.timeout * x.interval ≤ tb0Ns s then
        domListen (modDom s d.val fun y => { y with masters := y.masters.filter fun z => !(z.src = x.src && z.port = x.port) }) d.val
      else s
    | none => s)

/-- SYNC_TIMEOUT (R349). -/
def execSyncTimeout (d : Fin 2) (s : State) : Host.Outcome State Fault Refusal :=
  .next (let x := domOf s d.val
    if domState s d.val = dsLOCKED && x.lastSync + 4 * x.syncInt ≤ tb0Ns s then setDomState s d.val dsHOLDOVER else s)

/-! ### Delays (R348, R354) -/

/-- PTP_DELAY_REQ_SEND (R348, R355): on the slave port of a domain with the default profile. -/
def execPtpDelayReqSend (d : Fin 2) (req : PtpReq) (s : State) : Host.Outcome State Fault Refusal :=
  .next (if slavePort s d.val = 0xF || getFi s F.TIM_DOM_CFG_PROFILE d.val = 1 || !portGate s (slavePort s d.val) then s
    else
      let t := baseAt s d.val (egressAt s (slavePort s d.val) req.tx)
      let s := modDom t.2 d.val fun x => { x with dreq := some (req.seq.toNat, t.1) }
      sendPtp s (slavePort s d.val) 1 (getFi s F.TIM_DOM_CFG_DOMAIN d.val) req.seq.toNat 0 0)

/-- A Delay_Resp reaches its domain: the mean path delay, where its interval is accepted (R346, R348). -/
def ownDelayResp (m : PtpHdr) (t4 d : Nat) (s : State) : State :=
  match (domOf s d).dreq with
  | some (q, t3) =>
    if fromMaster s d m && q = m.seq && getFi s F.TIM_DOM_CFG_PROFILE d = 0 && decide (-7 ≤ m.log) && decide (m.log ≤ 5) then
      let v := divFree s ((domOf s d).d21 + (t4 * tbUnit - corrUnits m.corr - t3)) 2
      setFi (modDom v.2 d fun x => { x with mpd := v.1, dreq := none }) F.TIM_DOM_MPD_VALUE d (uNat 32 (v.1 / tbUnit))
    else s
  | none => s

/-- PTP_DELAY_RESP_RECEIVE (R348): `t4` is the master's receive time in ns. -/
def execPtpDelayRespReceive (m : PtpHdr) (t4 : Nat) (s : State) : Host.Outcome State Fault Refusal :=
  ptpRow s m 9 (fun _ s => passOn s m 9) (ownDelayResp m t4)

/-- A port measures its link delay for a domain of the 61850-9-3 profile that takes part on it or forwards there (R348,
R354). -/
def peerOn (s : State) (d p : Nat) : Bool := (domOnPort s d p || tcOn s d p) && getFi s F.TIM_DOM_CFG_PROFILE d = 1
def peerPort (s : State) (p : Nat) : Option Nat := [0, 1].find? fun d => peerOn s d p

/-- A Pdelay message passes through the switch under the default profile, where no port answers it: an event message with
its residence, a Pdelay_Resp_Follow_Up as it came (R354; DEDUCED, log 74). -/
def tcPdelay (m : PtpHdr) (typ d : Nat) (s : State) : State :=
  if typ = 0xA then passOn s m typ else forAll (passOther s m typ) (tcPorts m) fun s e => tcAdd s d m typ e

/-- A Pdelay message on a port, for the domain that measures there; one of no domain of the module is foreign. -/
def pdelayRow (s : State) (m : PtpHdr) (typ : Nat) (f : Nat → State → State) : Host.Outcome State Fault Refusal :=
  ptpRow s m typ (fun d s => if peerOn s d m.port.val then f d s else tcPdelay m typ d s)
    fun d s => if tcOn s d m.port.val || !peerOn s d m.port.val then s else f d s

/-- PTP_PDELAY_REQ_SEND (R354, R355). -/
def execPtpPdelayReqSend (p : Fin 14) (req : PtpReq) (s : State) : Host.Outcome State Fault Refusal :=
  .next (match (peerPort s p.val).filter fun _ => portGate s p.val with
    | none => s
    | some d =>
      let old : Int := match alGet? s.tim.pdelay p.val with | some r => r.delay | none => 0
      let r : PdReq := { seq := req.seq.toNat, tx := egressAt s p.val req.tx * tbUnit, resp := none, delay := old }
      let s := { s with tim := { s.tim with pdelay := alPut s.tim.pdelay p.val r } }
      sendPtp s p.val 2 (getFi s F.TIM_DOM_CFG_DOMAIN d) req.seq.toNat 0 0)

/-! ### Transmit timestamps (R356, R357) -/

/-- A port's queue, oldest first. -/
def txtsOf (s : State) (p : Nat) : List TxTs := (alGet? s.tim.txts p).getD []

/-- The oldest entry of the selected queue shown. -/
def showTxts (s : State) : State :=
  let q := txtsOf s (getF s F.TIM_TXTS_SEL_PORT)
  let e := q.head?.getD { id := 0, base := 0, time := 0 }
  let s := setF (setF s F.TIM_TXTS_HEAD_VALID (bNat !q.isEmpty)) F.TIM_TXTS_HEAD_TB e.base
  let s := setF (setF s F.TIM_TXTS_HEAD_COUNT q.length) F.TIM_TXTS_HEAD_ID e.id
  let sec := e.time / 1000000000
  setF (setF (setF s F.TIM_TXTS_NS_VALUE (e.time % 1000000000)) F.TIM_TXTS_SEC_LO_VALUE sec) F.TIM_TXTS_SEC_HI_VALUE
    (sec / 2 ^ 32 % 65536)

/-- An entry appended to a port's queue, or lost (R357); whether it was kept. -/
def pushTxts (s : State) (p id base time : Nat) : State × Bool :=
  let q := txtsOf s p
  if 16 ≤ q.length then
    let was := (getF s F.TIM_TXTS_OVF_PORT).testBit p
    let s := setF (bump s F.TIM_CNT_TXTS_LOST_COUNT) F.TIM_TXTS_OVF_PORT (getF s F.TIM_TXTS_OVF_PORT ||| 2 ^ p)
    (if was then setF s F.TIM_EVENTS_TXTS_OVF 1 else evBit s F.TIM_EVENTS_TXTS_OVF 4 [p], false)
  else
    let e : TxTs := { id := id, base := base, time := time }
    (showTxts { s with tim := { s.tim with txts := alPut s.tim.txts p (q ++ [e]) } }, true)

/-- TX_TIMESTAMP (R355, R356): the start-of-frame delimiter of a frame with a timestamp request has left a port at a time in
ns on the named base. -/
def execTxTimestamp (p : Fin 14) (id : BitVec 16) (base : Fin 8) (time : Nat) (s : State) : Host.Outcome State Fault Refusal :=
  .next (pushTxts s p.val id.toNat base.val (egressAt s p.val time).toNat).1

/-- The oldest entry of the selected queue removed; an empty queue discards the write (R358). -/
def popTxts (s : State) : State :=
  let p := getF s F.TIM_TXTS_SEL_PORT
  match txtsOf s p with
  | [] => cfgErr s
  | _ :: q => showTxts { s with tim := { s.tim with txts := alPut s.tim.txts p q } }

/-- TXTS_POP (R356). -/
def execTxtsPop (s : State) : Host.Outcome State Fault Refusal := .next (popTxts s)

/-- A write to TIM_TXTS_SEL. -/
def writeTxtsSel (s : State) (v : Word) : State :=
  checkedWrite s R.TIM_TXTS_SEL v fun s => if 14 ≤ v.toNat % 16 then cfgErr s else showTxts (plainWrite s R.TIM_TXTS_SEL v)

/-- A port answers a Pdelay_Req: one-step, or two-step with a timestamp entry and a Follow_Up unless the entry is lost. -/
def answerPdelay (m : PtpHdr) (tx d : Nat) (s : State) : State :=
  let p := m.port.val
  let out := egressAt s p tx
  let turn := (out - ingress s p m.rx) * 2 ^ 16
  if getFi s F.TIM_DOM_CFG_ONE_STEP d = 1 then sendPtp s p 3 m.domain m.seq m.src (m.corr + turn)
  else
    let r := pushTxts (sendPtp s p 3 m.domain m.seq m.src m.corr) p m.seq 0 out.toNat
    if r.2 then sendPtp r.1 p 0xA m.domain m.seq m.src turn else r.1

/-- PTP_PDELAY_REQ_RECEIVE (R354, R356, R357): `tx` is the TB0 egress stamp of the answer in ns. -/
def execPtpPdelayReqReceive (m : PtpHdr) (tx : Nat) (s : State) : Host.Outcome State Fault Refusal :=
  pdelayRow s m 2 (answerPdelay m tx)

/-- A port's link delay measured, for every domain of the 61850-9-3 profile whose slave port it is (R348, R354). -/
def setLinkDelay (s : State) (p : Nat) (r : PdReq) (v : Int) : State :=
  let r : PdReq := { r with resp := none, delay := v }
  let s := { s with tim := { s.tim with pdelay := alPut s.tim.pdelay p r } }
  let s := if ringPort p then setFi s F.TIM_PORT_PDLY_NS p (uNat 32 (v / tbUnit)) else s
  let users := [0, 1].filter fun d => slavePort s d = p && getFi s F.TIM_DOM_CFG_PROFILE d = 1
  forAll s users fun s d => setFi (modDom s d fun x => { x with mpd := v }) F.TIM_DOM_MPD_VALUE d (uNat 32 (v / tbUnit))

/-- A Pdelay_Resp, or its Follow_Up, on the port that sent the request: the link delay (R354). -/
def ownPdelayResp (m : PtpHdr) (followUp twoStep : Bool) (stamp : Nat) (s : State) : State :=
  match (alGet? s.tim.pdelay m.port.val).filter fun r => r.seq = m.seq with
  | none => s
  | some r =>
    let c := corrUnits m.corr
    let t4 := ingress s m.port.val m.rx * tbUnit
    if followUp then
      match r.resp with
      | some (t4, t2) =>
        let v := divFree s (t4 - r.tx - ((stamp : Int) * tbUnit - t2) - c) 2
        setLinkDelay v.2 m.port.val r v.1
      | none => s
    else if twoStep then
      let r : PdReq := { r with resp := some (t4 - c, stamp * tbUnit) }
      { s with tim := { s.tim with pdelay := alPut s.tim.pdelay m.port.val r } }
    else
      let v := divFree s (t4 - r.tx - c) 2
      setLinkDelay v.2 m.port.val r v.1

/-- PTP_PDELAY_RESP_RECEIVE (R354): a Pdelay_Resp with its t2, or its Follow_Up with its t3, in ns. -/
def execPtpPdelayRespReceive (m : PtpHdr) (followUp twoStep : Bool) (stamp : Nat) (s : State) :
    Host.Outcome State Fault Refusal :=
  pdelayRow s m (if followUp then 0xA else 3) fun _ => ownPdelayResp m followUp twoStep stamp

/-! ### TB1 -/

/-- How far TB1 moves until Δ1 reaches zero, while it slews (R342). -/
def slewLeft (s : State) : Option Nat :=
  let p : Int := getF s F.TIM_CFG_SLEW_PPM
  let d := s.tim.d1
  if d = 0 || p = 0 || !flag s F.TIM_STATUS_SEALED then none
  else some (((d.natAbs : Int) * (if 0 < d then 1000000 - p else 1000000 + p) + p - 1) / p).toNat

/-- SLEW_END: Δ1 reaches zero before the next tick (R342). -/
def execSlewEnd (s : State) : Host.Outcome State Fault Refusal :=
  .next (match slewLeft s with
    | some d => if tickDone s && s.tim.tb1 + d < (tickNow s + 1) * tickNs * tbUnit then advance s d else s
    | none => s)

/-- SOURCE_REVERT (R343): back to the PREF domain after REVERT_S seconds of lock. -/
def execSourceRevert (s : State) : Host.Outcome State Fault Refusal :=
  let pref := getF s F.TIM_CFG_PREF
  let rev := getF s F.TIM_CFG_REVERT_S
  .next (if roleOf s ≠ roSYNCING && roleOf s ≠ roSTANDBY && flag s F.TIM_CFG_AUTO && tbSrc s = (1 - pref) + 1 &&
      domState s pref = dsLOCKED && rev ≠ 0 && (domOf s pref).lockedSince + rev * 1000000000 ≤ tb0Ns s then setSource s (pref + 1)
    else s)

/-! ### Registers (R359) -/

/-- A time in ns captured into TIM_TB_NS and TIM_TB_SEC. -/
def captureTb (s : State) (b : Nat) : State :=
  let t := tbValue s b
  let sec := t / 1000000000
  setF (setF (setF s F.TIM_TB_NS_VALUE (t % 1000000000)) F.TIM_TB_SEC_LO_VALUE sec) F.TIM_TB_SEC_HI_VALUE (sec / 2 ^ 32 % 65536)

/-- A write to TIM_TB_SEL. -/
def writeTbSel (s : State) (v : Word) : State :=
  checkedWrite s R.TIM_TB_SEL v fun s => captureTb (plainWrite s R.TIM_TB_SEL v) (v.toNat % 8)

/-- TB_SEL_WRITE (R359). -/
def execTbSelWrite (v : BitVec 32) (s : State) : Host.Outcome State Fault Refusal := .next (writeTbSel s v)

/-- The staged value of TB7 in units. One with NS above 999 999 999 is no time value: free (assumption 8). -/
def tb7Staged (s : State) : Nat × State :=
  let ns := getF s F.TIM_TB7_NS_VALUE
  let sec := getF s F.TIM_TB7_SEC_LO_VALUE + getF s F.TIM_TB7_SEC_HI_VALUE * 2 ^ 32
  if ns < 1000000000 then ((sec * 1000000000 + ns) * tbUnit, s)
  else
    let (v, s) := takeFree s
    (v % tbTurn, s)

/-- TIM_TB7_CMD: 1 SET, 2 ADD, 3 SUB. -/
def tb7Command (s : State) (cmd : Nat) : State :=
  let (v, s) := tb7Staged s
  let t := s.tim.tb7
  let n := match cmd with
    | 1 => v
    | 2 => (t + v) % tbTurn
    | _ => (t + tbTurn - v % tbTurn) % tbTurn
  { s with tim := { s.tim with tb7 := n } }

/-- TB7_SET (R359). -/
def execTb7Set (s : State) : Host.Outcome State Fault Refusal := .next (tb7Command s 1)
/-- TB7_ADD (R359). -/
def execTb7Add (s : State) : Host.Outcome State Fault Refusal := .next (tb7Command s 2)
/-- TB7_SUB (R359). -/
def execTb7Sub (s : State) : Host.Outcome State Fault Refusal := .next (tb7Command s 3)

/-- A domain follows its configuration: it is DISABLED, or listens where it was or where its slave port no longer takes part
(R349). -/
def followDomCfg (s : State) (d : Nat) : State :=
  if getFi s F.TIM_DOM_CFG_ENABLE d = 0 then
    setDomState (setFi (modDom s d fun x => { PtpDom.reset with mpd := x.mpd }) F.TIM_DOM_STAT_PORT d 0xF) d dsDISABLED
  else if domState s d = dsDISABLED then domListen s d
  else if slavePort s d ≠ 0xF && !domOnPort s d (slavePort s d) then domListen s d
  else s

/-- A write to a TIM register of its own rule. -/
def timWrite (s : State) (a : Nat) (v : Word) : State :=
  let n := v.toNat
  if a = R.TIM_TB_SEL then writeTbSel s v
  else if a = R.TIM_TXTS_SEL then writeTxtsSel s v
  else if a = R.TIM_TXTS_POP then checkedWrite s a v fun s => if n % 2 = 1 then popTxts s else s
  else if a = R.TIM_TB7_CMD then checkedWrite s a v fun s => if n % 4 = 0 then s else tb7Command s (n % 4)
  else if a = R.TIM_TB7_ADJ then
    if adjMax.natAbs < (sInt 32 n).natAbs then cfgErr s else plainWrite s a v
  else if a = R.TIM_CFG then
    if n % 512 < 1 || 500 < n % 512 then cfgErr s else checkedWrite s a v fun s => reSource (plainWrite s a v)
  else if a = R.TIM_DOM_CFG || a = R.TIM_DOM_CFG + 0x20 then
    let d := (a - R.TIM_DOM_CFG) / 0x20
    let o := (getReg s (R.TIM_DOM_CFG + 0x20 * (1 - d))).toNat
    let clash := n.testBit 31 && o.testBit 31 && bitsOf 23 16 n = bitsOf 23 16 o && bitsOf 29 28 n = bitsOf 29 28 o
    let bad := bitsOf 29 28 n = 3 || clash || (n.testBit 30 && (bitsOf 29 28 n ≠ 0 || bitsOf 13 6 n ≠ 0))
    if bad then cfgErr s
    else checkedWrite s a v fun s => followDomCfg (plainWrite s a v) d
  else if a = R.TIM_DOM_THR || a = R.TIM_DOM_THR + 0x20 then
    if bitsOf 31 16 n = 0 || bitsOf 15 0 n < 50 then cfgErr s else plainWrite s a v
  else plainWrite s a v

end Sys2Proof.Machine
end

