-- ==== Sys2Proof/Machine/Furov.lean ====
section
/-!
DEFINITION. The Furov link and its frames (11 R282 to R291 R301, 13 R350).
-/
namespace Sys2Proof.Machine

/-! ### The link (R283, R285, R286) -/

/-- What the module says of itself in training (R284). -/
def ownHello (s : State) : Hello :=
  let model := s.cfg.modelSlot.getD 0
  { pos := position s, idHash := sha3_512 (Config.identityKey (identitySeed s "ID")),
    version := imgW s.mem (runtimeSlot (getF s F.SEC_STATUS_RT_SLOT)) 0xC,
    progSerial := (s.prog.map (·.serial)).getD 0, progDigest := imageDigest s ikPROGRAM s.cfg.progSlot,
    modelSerial := (s.nsa.model.map (·.serial)).getD 0, modelDigest := imageDigest s ikMODEL model,
    epoch := s.cfg.furovEpoch }

/-- A HELLO frame, sent before the link is up; it waits for no acknowledgement. -/
def sendHello (s : State) : State :=
  putFrame s { retx := false, epoch := ownEpoch s, seq := 1, body := .hello (ownHello s) }

/-- The link fetches its key at a training (R430, R431). -/
def fetchFurov (s : State) : State :=
  { s with red := { s.red with furovKey := (slotWith s atFUROV).bind fun i => keyOf s i atFUROV } }

/-- LINK_TRAINING_START: a step of R286 begins, the first at start-up and 1 s after a link-down, with the lanes in block
lock as the step finds them; the fourth sends a HELLO. A link with no lane in lock falls back (R285). -/
def execLinkTrainingStart (step : Fin 4) (lanes : BitVec 2) (s : State) : Host.Outcome State Fault Refusal :=
  .next (let rested := s.red.linkDownAt.all fun t => t + 1000000000 ≤ nowNs s
    if !(isPair s && s.runtimeUp && !linkUp s && getF s F.RED_LINK_TRAIN = step.val) then s
    else if step = 0 then (if rested then setF (setF (fetchFurov s) F.RED_LINK_TRAIN 1) F.RED_LINK_LOCK lanes.toNat else s)
    else if lanes = 0 then
      setF (setF { s with red := { s.red with linkDownAt := some (nowNs s) } } F.RED_LINK_TRAIN 0) F.RED_LINK_LOCK 0
    else
      let s := setF (setF s F.RED_LINK_TRAIN (step.val + 1)) F.RED_LINK_LOCK lanes.toNat
      let s := { s with red := { s.red with laneTx := { s.red.laneTx with pos := 0 } } }
      if step = 3 then sendHello s else s)

/-- Both modules run the same program and the same active model (R286). -/
def sameImages (a b : Hello) : Bool :=
  a.progSerial = b.progSerial && a.progDigest = b.progDigest && a.modelSerial = b.modelSerial && a.modelDigest = b.modelDigest

/-- The link comes up with an epoch (R286 steps 4 and 5). -/
def linkComesUp (s : State) (same : Bool) (epoch : Nat) : State :=
  let s := if roleOf s = roSTANDBY then leaveSync s else s
  let s := setF (setF s F.RED_LINK_EPOCH epoch) F.RED_LINK_TRAIN 5
  let s := setF (setF s F.RED_STATUS_LINK_UP 1) F.RED_STATUS_LANES (popCount 2 (getF s F.RED_LINK_LOCK))
  showHealth { s with cfg := { s.cfg with furovEpoch := epoch },
                      red := { s.red with txSeq := 0, rxSeq := 0, unacked := [], joining := true, linkDownAt := none,
                                          peerSame := same, sentParts := [] } }

/-- FUROV_HELLO: what the peer says of itself, with whether the tag verifies (R286). -/
def execFurovHello (tagOk : Bool) (h : Hello) (s : State) : Host.Outcome State Fault Refusal :=
  .next (if getF s F.RED_LINK_TRAIN ≠ 4 then s
    else if !tagOk || s.red.furovKey.isNone then ev (setF s F.RED_LINK_TRAIN 6) blkRED 0x82 6 []
    else if h.pos = position s then ev (setF s F.RED_LINK_TRAIN 7) blkRED 0x83 7 []
    else linkComesUp s (sameImages (ownHello s) h) ((max s.cfg.furovEpoch h.epoch + 1) % 2 ^ 31))

/-- An ACK frame for what has been received in order (R285). -/
def sendAck (s : State) : State := furovSend s (.ack s.red.rxSeq)

/-- EPOCH of the peer's frames: the other direction of the same link session (R283). -/
def peerEpoch (s : State) : Nat := s.cfg.furovEpoch + 2 ^ 31 * bNat (position s = 1)

/-- A frame as it arrives (R283, R285): dropped while the link is down, and counted where its tag or EPOCH is wrong. A
frame that was received before, or that skips one, is acknowledged as it stands and not acted on. The next in order is
acknowledged, recorded where its TYPE is unknown, and else acted on. -/
def furovIn (s : State) (h : FurovHdr) (f : State → State) : Host.Outcome State Fault Refusal :=
  .next (if !linkUp s then s
    else if !h.tagOk || h.epoch.toNat ≠ peerEpoch s then bump s F.RED_CNT_GCM_FAIL_COUNT
    else if h.seq ≠ s.red.rxSeq + 1 then sendAck s
    else
      let s := sendAck { s with red := { s.red with rxSeq := h.seq } }
      match h.unknown with
      | some t => ev s blkRED 0x81 4 [t.toNat]
      | none => f s)

/-- FUROV_ACK: every frame up to a SEQ has arrived (R285). -/
def execFurovAck (h : FurovHdr) (seq : Nat) (s : State) : Host.Outcome State Fault Refusal :=
  furovIn s h fun s => { s with red := { s.red with unacked := s.red.unacked.filter fun e => seq < e.1.seq } }

/-- A frame sent again, with its SEQ (R283, R285). -/
def resend (s : State) (f : FurovFrame) : State :=
  putFrame (bump s F.RED_CNT_RETX_COUNT) { f with retx := true }

/-- FUROV_RETRANSMIT: 20 µs after its last transmission a frame without acknowledgement goes again; after the third time
the link goes down (R285). -/
def execFurovRetransmit (seq : Nat) (s : State) : Host.Outcome State Fault Refusal :=
  .next (match s.red.unacked.find? fun e => e.1.seq = seq with
    | some (f, n) =>
      if 3 ≤ n then linkDown s
      else
        let l := s.red.unacked.map fun e => if e.1.seq = seq then (e.1, e.2 + 1) else e
        resend { s with red := { s.red with unacked := l } } f
    | none => s)

/-- LANE_LOCK_LOSS: the link re-aligns on the other lane and frames in flight go again, or it is down (R285). -/
def execLaneLockLoss (l : Fin 2) (s : State) : Host.Outcome State Fault Refusal :=
  .next (let m := getF s F.RED_LINK_LOCK
    if !m.testBit l.val then s
    else
      let m := m - 2 ^ l.val
      let s := setF (setF s F.RED_LINK_LOCK m) F.RED_EVENTS_LANE_DOWN 1
      if m = 0 then linkDown s
      else if !linkUp s then s
      else
        let s := { s with red := { s.red with laneTx := { s.red.laneTx with pos := 0 } } }
        showHealth (forAll (setF s F.RED_STATUS_LANES (popCount 2 m)) (s.red.unacked.map (·.1)) resend))

/-! ### What the peer reports (R281, R292, R294, R345, R350) -/

/-- A peer that reports SYNCING anew, or that has been sent nothing, is sent the state copy (R301, R480). -/
def serveSync (s : State) (was : Nat) : State :=
  if was ≠ roSYNCING || s.red.sentParts.isEmpty then serveJoiner s else s

/-- The effects of a HEALTH frame. -/
def peerHealth (s : State) (h : Health) : State :=
  let el := decide (h.role = roSTANDBY) && !h.fatal && decide (getF s F.RED_CFG_ELIG_MIN ≤ h.score)
  let was := peerRole s
  let s := setF (setF s F.RED_HEALTH_PEER_SCORE h.score) F.RED_HEALTH_PEER_FATAL (bNat h.fatal)
  let s := setF (setF s F.RED_HEALTH_PEER_ELIGIBLE (bNat el)) F.RED_STATUS_PEER_ROLE h.role
  let s := { s with red := { s.red with peerLocked := !h.penalties.testBit 8 } }
  let s := if s.red.diagnosing then diagOutcome (setF s F.RED_MISMATCH_PEER_DIAG (max 1 h.diag)) else s
  let s := holderAgain (serveSync s was)
  if s.red.joining && roleOf s = roUNSYNCED && peerActive s then startSync s else s

/-- FUROV_HEALTH (R292). -/
def execFurovHealth (h : FurovHdr) (x : Health) (s : State) : Host.Outcome State Fault Refusal :=
  furovIn s h fun s => peerHealth s x

/-- FUROV_TOKEN (R281). -/
def execFurovToken (h : FurovHdr) (held : Bool) (release tick : Nat) (s : State) : Host.Outcome State Fault Refusal :=
  furovIn s h fun s => { s with red := { s.red with peerHolds := held, peerRelease := (release, tick) } }

/-- The four times of an exchange in ns, the own ones on TB0 and the peer's on its TB1: the link taken as symmetric gives
an estimate, and the filter over 16 of them leaves TB6 within ±20 ns of the latest; the receive time goes back to the peer on
TB1, on which it reads it (R350, assumption 8). -/
def peerTime (s : State) (ownTx peerRx peerTx ownRx : Nat) : State :=
  let est := (((peerRx : Int) - ownTx) + ((peerTx : Int) - ownRx)) * (tbUnit / 2)
  let l := (est :: s.tim.estimates).take 16
  let tb6 := est + ((Config.tb6Filter l % (40 * tbUnit + 1) : Nat) : Int) - 20 * tbUnit
  let back := (nowNs s : Int) - (tb0Ns s - ownRx)
  let s := { s with tim := { s.tim with estimates := l, peerRx := back.toNat } }
  if flag s F.TIM_STATUS_PEER_VALID then stepBase s srcPEER (tb6 - s.tim.peer)
  else reSource (showTim (setF { s with tim := { s.tim with peer := tb6 } } F.TIM_STATUS_PEER_VALID 1))

/-- FUROV_TIME (R350). -/
def execFurovTime (h : FurovHdr) (ownTx peerRx peerTx ownRx : Nat) (s : State) : Host.Outcome State Fault Refusal :=
  furovIn s h fun s => peerTime s ownTx peerRx peerTx ownRx

/-- FUROV_DIGEST (R289, R290). -/
def execFurovDigest (h : FurovHdr) (source task : Fin 16) (inst digest : BitVec 64) (s : State) :
    Host.Outcome State Fault Refusal :=
  furovIn s h fun s =>
    let e : DigestEntry := { source := source.val, task := task.val, inst := inst.toNat, digest := digest.toNat, at_ := nowNs s }
    if roleOf s = roSTANDBY || roleOf s = roACTIVE then compareDigests { s with red := { s.red with peer := s.red.peer ++ [e] } }
    else s

/-! ### Inputs of the standby (R287) -/

/-- Cells of an image. -/
def imageCells (l : List Host.Cell) : List Host.Cell := l.filter fun c => c.1 < 0x40000

/-- OFS of each input whose COUNT a forwarded capture of this tick holds, so that the count goes on over a switchover
(R403). -/
def takeOfs (s : State) (m : Mem) (sent : Nat → Bool) : State :=
  if s.fio.capTick ≠ tickNow s + 1 then s
  else forAll s (ioRecs s) fun s e => match e.1 with
    | .di tag k 1 => match tagOf s tag with
      | some t => if sent t.off then setFi s F.FIO_CNT_OFS_VALUE k (uNat 32 ((memLe m t.off 4 : Int) - getFi s F.FIO_CNT_VALUE k)) else s
      | none => s
    | _ => s

/-- A period of a task starts on what the active module froze: the input image, the force state and the shared region. -/
def takeInput (s : State) (task : Nat) (inputs : List Host.Cell) (forces : List (Nat × Force)) (shared : List Host.Cell) :
    State :=
  if !(roleOf s = roSTANDBY && s.red.inputDue.contains task) then s
  else
    let s := { s with inImg := memPutCells [] (imageCells inputs), red := { s.red with inputDue := s.red.inputDue.erase task } }
    let s := takeOfs s s.inImg fun _ => true
    match taskRec s task with
    | some r =>
      let s := beginPeriods s [r]
      let s := modTask s (taskIx task) fun k =>
        { k with scan := k.scan.map fun sc => { sc with frozenForces := forces, frozenShared := memPutCells [] shared } }
      item4 s
    | none => s

/-- FUROV_INPUT: the frozen view of a task's period (R287). -/
def execFurovInput (h : FurovHdr) (task : Fin 16) (period : Nat) (inputs : List (Nat × BitVec 8))
    (forces : List (Nat × Force)) (shared : List (Nat × BitVec 8)) (s : State) : Host.Outcome State Fault Refusal :=
  furovIn s h fun s =>
    if (taskOf s task).pidx = period then takeInput s task.val inputs forces shared else s

/-- A force change that a TICK frame names applies at its tick, where its FORWARD frame has not brought it (R259, R284). -/
def tickForce (s : State) (e : Nat × Option Force) : State :=
  if alGet? s.forces e.1 = e.2 then s
  else
    let s := applyForce s e.1 e.2
    showForced { s with forcesEff := changeForce s.forcesEff e.1 e.2,
                        red := { s.red with forcesAt := s.red.forcesAt.filter fun x => x.2 != e } }

/-- The loop evaluations of a tick run on the forwarded samples, once the committed state of the tick is complete
(R287, R291). -/
def takeTick (s : State) (tick : Nat) (samples : List Host.Cell) (forces : List (Nat × Option Force)) : State :=
  if roleOf s ≠ roSTANDBY || tick ≠ tickNow s then s
  else
    let s := forAll s forces tickForce
    let s := takeOfs s (memPutCells [] (imageCells samples)) fun a => samples.any fun c => c.1 = a
    let s := { s with red := { s.red with tickHeld := some (imageCells samples) } }
    if s.red.tickDue then releaseTick s else s

/-- FUROV_TICK (R287). -/
def execFurovTick (h : FurovHdr) (tick : Nat) (samples : List (Nat × BitVec 8)) (forces : List (Nat × Option Force))
    (s : State) : Host.Outcome State Fault Refusal :=
  furovIn s h fun s => takeTick s tick samples forces

/-- Snapshot k as the active module closed it takes the place of the one that the standby formed, and closes; the live records
have met its instant (R287, R315). -/
def takeSnapshot (s : State) (k : Nat) (recs : List (Nat × Session)) (thermal electric : List (Nat × Int))
    (missing : List Nat) (samples : List MtrFwd) : State :=
  if roleOf s ≠ roSTANDBY then s
  else
    let tk := k * netNs s
    let recs := recs.foldl (fun m e => alPut m (e.1 % 4096) e.2) []
    let epochs := recs.foldl (fun m e =>
      if e.2.state = ssADMITTED then alPut m e.2.subId (max e.2.epoch ((alGet? m e.2.subId).getD 0)) else m) s.ses.epochs
    let s := showSes { s with ses := { s.ses with live := metInstant recs tk, frozen := recs, epochs := epochs } }
    let s := forAll s samples enterForwarded
    match s.nsa.open_ with
    | none => s
    | some o =>
      if o.cycle ≠ k then s
      else
        let sn := match s.nsa.model with
          | some md => { snapshotOf s md recs o.cycle with time := o.time }
          | none => o
        let hyd := s.nsa.hyd.map fun j => { j with snap := sn }
        let s := closeSnapshot { s with nsa := { s.nsa with open_ := some sn, hyd := hyd } }
        { s with mtr := { s.mtr with viewT := thermal, viewE := electric, viewMiss := missing } }

/-- FUROV_SNAPSHOT: session records, demands, and metering samples with the decisions on them (R141, R287, R319). -/
def execFurovSnapshot (h : FurovHdr) (k : Nat) (recs : List (Nat × Session)) (thermal electric : List (Nat × Int))
    (missing : List Nat) (samples : List MtrFwd) (s : State) : Host.Outcome State Fault Refusal :=
  furovIn s h fun s => takeSnapshot s k recs thermal electric missing samples

/-- FORWARD_TIMEOUT: a forwarded frame or a job entry is missing 150 µs after its instant (R287, R291). -/
def execForwardTimeout (s : State) : Host.Outcome State Fault Refusal :=
  .next (let waits := s.red.inputDue != [] || s.red.tickDue || s.nsa.open_.isSome || s.nsa.cycleOpen.isSome || stateAwaited s
    if roleOf s = roSTANDBY && flag s F.RED_STATUS_IN_SYNC && waits then leaveSync s else s)

/-- FUROV_JOB (R291). -/
def execFurovJob (h : FurovHdr) (e : JobEntry) (s : State) : Host.Outcome State Fault Refusal :=
  furovIn s h fun s => if roleOf s = roSTANDBY then takeEntry s e else s

/-! ### The state copy (R301) -/

/-- The solver's registers after its state has been copied. -/
def showSolver (s : State) : State :=
  let s := showDescs (showModel s)
  match s.nsa.committed with
  | some r => set64 (set64 s R.NSA_CYCLE_LO R.NSA_CYCLE_HI r.cycle) R.NSA_HT_LO R.NSA_HT_HI r.ht
  | none => s

/-- The dispatch registers after their state has been copied. -/
def showDispatch (s : State) : State :=
  let s := match s.dpo.table with
    | some t => set64 s R.DPO_DEC_LO R.DPO_DEC_HI t.index
    | none => s
  let s := setF s F.DPO_STATUS_DEC_VALID (bNat s.dpo.table.isSome)
  let s := setF s F.DPO_FCST_SERIAL_SERIAL ((s.dpo.forecast.map (·.serial)).getD 0)
  setF s F.DPO_STATUS_NO_FCST (bNat (validForecast s).isNone)

/-- The backlogs and active pulses of the peer (R159). -/
def takePulses (s : State) (ws : List Word) : State :=
  forAll s ws.zipIdx fun s e => if e.2 < 8 then setReg s (F.MTR_PULSE_STAT_ACTIVE.at e.2) e.1 else s

/-- The metering configuration of the peer, or the copy of its registers, fractions, accumulators and backlogs that it sends
once, at its first latch instant in sync (R159, R301). -/
def takeMetering (s : State) (m : Mtr) (pulses : List Word) : State :=
  if roleOf s = roSYNCING then
    restartMeters { s with mtr := { s.mtr with latch := m.latch, elec := m.elec, therm := m.therm, tables := m.tables,
                                               subs := m.subs, pulses := m.pulses, stored := m.stored, pend := m.pend,
                                               serial := m.serial } }
  else if roleOf s = roSTANDBY && !flag s F.RED_STATUS_MTR_JOINED then
    let n := { s.mtr with regs := m.regs, chans := m.chans, eint := m.eint, tint := m.tint, demT := m.demT, demMiss := m.demMiss,
                          viewT := m.viewT, viewMiss := m.viewMiss, viewE := m.viewE, pacc := m.pacc, poff := m.poff }
    setF (takePulses { s with mtr := n } pulses) F.RED_STATUS_MTR_JOINED 1
  else s

/-- A setting of the active module, taken by a SYNCING module and by a standby (R335, R359, R415); a domain follows its
configuration (R349). -/
def takeSetting (s : State) (e : Nat × Word) : State :=
  if !sharedSettings.contains e.1 then s
  else
    let s := setReg s e.1 e.2
    match [0, 1].find? fun d => F.TIM_DOM_CFG_ENABLE.at d = e.1 with
    | some d => followDomCfg s d
    | none => s

/-- Safe values that the holder of the token has stored (R410). -/
def takeSafe (s : State) (v : Nat) : State :=
  if s.cfg.safe = v then s else ev { s with cfg := { s.cfg with safe := v } } blkFIO 0x82 3 [v]

/-- A memory whose cells in a range are those of the peer. -/
def replaceCells (m : Mem) (p : Nat → Bool) (cs : List Host.Cell) : Mem :=
  memPutCells (memKeep (fun a => !p a) m) (cs.filter fun c => p c.1)

/-- A part of the peer's state copied to a SYNCING module. -/
def takeState (s : State) (part : StatePart) : State :=
  match part with
  | .metering m pulses => takeMetering s m pulses
  | .settings l => if roleOf s = roSYNCING || roleOf s = roSTANDBY then showKeyBad (reSource (forAll s l takeSetting)) else s
  | part =>
    if roleOf s ≠ roSYNCING then s
    else match part with
      | .bytes cs => { s with mem := replaceCells s.mem imageArea cs }
      | .instances cs => { s with inst := replaceCells s.inst (fun a => winRet ≤ a && a < winConst) cs }
      | .mailboxes cs => { s with mbox := replaceCells s.mbox (fun a => winMbox ≤ a && a < winMbox + 0x100000) cs }
      | .program slot (some p) => installProgram { s with cfg := { s.cfg with progSlot := slot % 2 } } p (slot % 2) s.inst
      | .program slot none => { s with prog := none, cfg := { s.cfg with progSlot := slot % 2 } }
      | .forces l => showForced (showForceCnt { s with forces := l, forcesEff := l })
      | .solver n => showSolver { s with nsa := n }
      | .loops l =>
        let s := { s with lpe := l }
        showPeak (resolveLoops (forAll s (l.loops.map (·.1)) showLoop))
      | .dispatch d => showDispatch { s with dpo := d }
      | .safe v => takeSafe s v
      | .settings _ => s
      | .metering .. => s

/-- FUROV_STATE (R301). -/
def execFurovState (h : FurovHdr) (part : StatePart) (s : State) : Host.Outcome State Fault Refusal :=
  furovIn s h fun s =>
    takeState { s with red := { s.red with gotParts := insertUp part.kind s.red.gotParts } } part

end Sys2Proof.Machine
end

