-- ==== Sys2Proof/Machine/Host.lean ====
section
/-!
DEFINITION. The host channel: datagrams, requests and their effects, and forwarded requests on the standby (12 R327 to
R334, 17 R428 R432, 18 R452 R453, 11 R284).
-/
namespace Sys2Proof.Machine

/-! ### Helpers -/

/-- A field of a request's payload. -/
def pn (p : List Byte) (off n : Nat) : Nat := leNat ((p.drop off).take n)

/-- The instant at which an accepted request applies, as it is forwarded (R53, R102, R115, R156, R158, R259, R284). -/
def appliesAt (s : State) (typ : Nat) : Nat :=
  match typ with
  | 0x06 | 0x07 | 0x0D => nextCycle s
  | 0x08 => (tickNow s + 1) * tickNs
  | 0x09 => configAt s
  | 0x0A => latchAfter s (nowNs s + 1)
  | _ => nowNs s

/-- The acceptance time by which the standby dates a forwarded request, so that it applies at the named instant. -/
def acceptedFor (s : State) (typ at_ : Nat) : Nat :=
  match typ with
  | 0x09 => at_ - 2 * netNs s
  | 0x06 | 0x07 | 0x0A => at_ - 1
  | _ => nowNs s

/-- A service request that the active module has accepted goes to the standby with its instant (R284, R330). -/
def forwardReq (s : State) (typ : Nat) (p : List Byte) : State := forwardBody s typ (appliesAt s typ) p

/-! ### Status and images (R46, R49, R243, R265, R423) -/

/-- STATUS_READ. -/
def qStatus (s : State) (p : List Byte) : Answer :=
  if p != [] then ansBad s
  else
    let w := fun a => leBytes 4 (getReg s a).toNat
    ansWith s (w R.RED_STATUS ++ w R.SEC_STATUS ++ w R.SCN_STATUS ++ w R.NSA_STATUS ++ w R.DPO_STATUS ++ w R.NSA_MODEL_STATUS ++
      leBytes 8 (get64 s R.NSA_CYCLE_LO R.NSA_CYCLE_HI) ++ w R.NSA_MODEL_SERIAL ++ w R.SCN_PROG_SERIAL ++
      leBytes 8 (ksCount s) ++ leBytes 16 0)

/-- KIND, SLOT and the zero bytes of an image request are right. -/
def reqHead (p : List Byte) : Bool := pn p 0 1 ≤ 2 && pn p 1 1 ≤ 1 && pn p 2 2 = 0

/-- A program or a model needs the lifecycle state that runs it (R421). -/
def imgState (s : State) (kind : Nat) : Bool := kind = ikRUNTIME || lifecycle s = 2

/-- The slot runs, or holds the active model. -/
def slotInUse (s : State) (kind slot : Nat) : Bool :=
  if kind = ikRUNTIME then getF s F.SEC_STATUS_RT_SLOT = slot
  else if kind = ikPROGRAM then s.prog.isSome && s.cfg.progSlot = slot
  else slotState s slot = slACTIVE

/-- A transfer to a model slot: it is LOADING, a validation of it is abandoned, and an activation of it is withdrawn with
an event whose number is stated nowhere (R46, R52, assumption 8). -/
def modelTransfer (s : State) (slot : Nat) : State :=
  let s := { s with nsa := { s.nsa with validating := s.nsa.validating.filter fun e => e.1 != slot } }
  let s := setF s (slotField slot) slLOADING
  match s.nsa.activation with
  | some a =>
    if a.slot = slot then
      let (v, s) := takeFree (withdrawn s)
      ev s blkNSA (v % 256) 3 []
    else s
  | none => s

/-- A transfer to the slot of a pending exchange cancels it (R268). -/
def programTransfer (s : State) (slot : Nat) : State :=
  match s.exch with
  | some x => if x.slot = slot then cancelExchange s else s
  | none => s

/-- IMAGE_WRITE. -/
def qImageWrite (s : State) (p : List Byte) : Answer :=
  let kind := pn p 0 1
  let slot := pn p 1 1
  let off := pn p 4 4
  if p.length < 8 || !reqHead p || off % 4 ≠ 0 || imageSlotLen kind < off + (p.length - 8) then ansBad s
  else if slotInUse s kind slot then
    ansRefuse (if kind = ikMODEL then ev s blkNSA 0x81 3 [] else s) 1
  else
    let s := if kind = ikMODEL then modelTransfer s slot else if kind = ikPROGRAM then programTransfer s slot else s
    let s := mramWrite s (imageSlot kind slot + off) (p.drop 8)
    ansOk (if kind = ikRUNTIME then s else forwardReq s 0x02 p)

/-- The check of a runtime or program slot (R243, R423): the state and the code. The code of a payload that fails R243 is
stated nowhere and is free (assumption 8). -/
def qCheckSlot (s : State) (kind slot len : Nat) (v : Verdict) : Answer :=
  let base := imageSlot kind slot
  let (s, c) := checkImage s kind base (some len) v.sigOk v.plain.isSome
  if c ≠ 0 then ansRefuse (imageRefused s kind c) c
  else if kind = ikRUNTIME then ansOk s
  else match programPayload s base v.plain with
    | .ok _ => ansOk s
    | .error _ => ansRefuseFree s

/-- IMAGE_CHECK: a model's result follows in a DONE message (R46, R47). -/
def qImageCheck (s : State) (p : List Byte) (v : Verdict) : Answer :=
  let kind := pn p 0 1
  let slot := pn p 1 1
  if p.length ≠ 8 || !reqHead p then ansBad s
  else if !imgState s kind then ansState s
  else if kind ≠ ikMODEL then qCheckSlot s kind slot (pn p 4 4) v
  else if slotState s slot ≠ slLOADING then ansRefuseFree s
  else
    let s := setF { s with nsa := { s.nsa with validating := s.nsa.validating ++ [(slot, pn p 4 4, false)] } } (slotField slot) slVALIDATING
    ansOk (forwardReq s 0x03 p)

/-- An activation accepted for cycle `k` (R49); in a pair it waits until both hold the same image as valid (R51). -/
def activationAccepted (s : State) (slot k : Nat) : State :=
  let a : Activation := { slot := slot, at_ := k, prepared := false, confirmed := false, deferrals := 0,
                          model := modelOf s.mem (imageSlot ikMODEL slot) }
  setF { s with nsa := { s.nsa with activation := some a } } F.NSA_MODEL_STATUS_PREPARING 1

/-- IMAGE_SELECT: a runtime slot for the next reset, or the activation request of R49. -/
def qImageSelect (s : State) (p : List Byte) (v : Verdict) : Answer :=
  let kind := pn p 0 1
  let slot := pn p 1 1
  if !reqHead p || kind = ikPROGRAM || p.length ≠ (if kind = ikMODEL then 12 else 4) then ansBad s
  else if !imgState s kind then ansState s
  else if kind = ikRUNTIME then
    let (s, c) := checkImage s kind (imageSlot kind slot) none v.sigOk v.plain.isSome
    if c ≠ 0 then ansRefuse (imageRefused s kind c) c
    else ansOk { s with cfg := { s.cfg with rtSlot := slot } }
  else
    let c := cycleNow s
    let k := pn p 4 8
    if slotState s slot ≠ slVALID || (k ≠ 0 && k < c + 2) then ansRefuseFree s
    else
      let k := if k = 0 then c + 2 else k
      ansWith (forwardBody (activationAccepted s slot k) 0x04 (k * netNs s) (p.take 4 ++ leBytes 8 k)) (leBytes 8 k)

/-- PROG_EXCHANGE: the reply carries SCN_EXCH.REFUSE (R265). -/
def qExchange (s : State) (p : List Byte) (v : Verdict) : Answer :=
  if p.length ≠ 4 || 1 < pn p 0 1 || pn p 1 3 ≠ 0 then ansBad s
  else if !imgState s ikPROGRAM then ansState s
  else if slotInUse s ikPROGRAM (pn p 0 1) then ansRefuseFree s
  else
    let (s, c) := exchangeRequest s (pn p 0 1) v
    if c ≠ 0 then ansRefuse s c else ansOk (forwardReq s 0x05 p)

/-! ### Network, forces and metering (R53, R102, R115, R156 to R158, R258, R410) -/

/-- FORECAST. -/
def qForecast (s : State) (acc : Nat) (p : List Byte) : Answer :=
  let t := deliverForecast s acc p
  if forecastOk s p then ansOk (forwardReq t 0x06 p) else ansRefuseFree t

/-- MASK. -/
def qMask (s : State) (acc : Nat) (p : List Byte) : Answer :=
  if p.length < 8 || p.length % 4 ≠ 0 then ansBad s
  else if maskRangeOk (pn p 0 4) (pn p 4 4) (p.length / 4 - 2) then
    ansOk (forwardReq (queueMask s acc (pn p 0 4) (maskBits ((bodyWords p).drop 2))) 0x07 p)
  else ansRefuse s 6

/-- FORCE. -/
def qForce (s : State) (p : List Byte) : Answer :=
  let op := pn p 0 1
  let i := pn p 2 2
  let w := pn p 4 4
  if pn p 1 1 ≠ 0 || 1023 < i || p.length ≠ (if op = 2 then 16 else 4) || (op ≠ 2 && op ≠ 3) then ansBad s
  else
    let f : Force := { enable := w.testBit 31, kind := bitsOf 30 30 w, target := bitsOf 15 0 w, value := pn p 8 8 }
    let (s, c) := if op = 2 then forceSet s i f (bitsOf 29 16 w ≠ 0) else forceClear s i
    if c ≠ 0 then ansRefuse s c else ansOk (forwardReq s 0x08 p)

/-- METER_CONFIG. -/
def qMeterConfig (s : State) (acc : Nat) (p : List Byte) : Answer :=
  if !ecallLenOk 3 0 p.length (bodyW p 0 / 65536) then ansBad s
  else
    let at_ := configAt s
    let (s, c) := mtrSubmit s acc (bodyW p 0 / 65536) (bodyW p 0 % 65536) (bodyW p 1) ((bodyWords p).drop 2)
    if c ≠ 0 then ansRefuse s c else ansOk (forwardBody s 0x09 at_ p)

/-- METER_CLEAR. -/
def qMeterClear (s : State) (acc : Nat) (p : List Byte) : Answer :=
  let th := pn p 0 1
  let c := pn p 2 2
  if p.length ≠ 4 || 1 < th || pn p 1 1 ≠ 0 || (if th = 1 then 4096 else 34) ≤ c then ansBad s
  else ansOk (forwardReq { s with mtr := { s.mtr with clears := s.mtr.clears ++ [(acc, decide (th = 1), c)] } } 0x0A p)

/-- METER_READ. -/
def qMeterRead (s : State) (p : List Byte) : Answer :=
  let h := pn p 0 4
  if p.length ≠ 4 || 256 ≤ h then ansBad s
  else if (goodSlots s).any (fun e => e.1 = h) then ansWith s (memBytes s.mem (slotAddr h) 0x40000)
  else ansRefuseFree s

/-- METER_ACK. -/
def qMeterAck (s : State) (p : List Byte) : Answer :=
  if p.length ≠ 4 then ansBad s else ansOk (setF s F.MTR_ARCH_ACK_SEQ (pn p 0 4))

/-- DPO_CTRL. -/
def qDpoCtrl (s : State) (p : List Byte) : Answer :=
  let w := pn p 0 4
  if p.length ≠ 4 || 4 ≤ w then ansBad s
  else ansOk (ctrlWritten (setF (setF s F.DPO_CTRL_PLY_OFF (w / 2)) F.DPO_CTRL_DPO_OFF (w % 2)))

/-- SAFE_VALUES: stored for the next restart (R410). -/
def qSafe (s : State) (p : List Byte) : Answer :=
  if p.length ≠ 4 || pn p 2 2 ≠ 0 then ansBad s
  else
    let v := pn p 0 2
    ansOk (forwardReq (ev { s with cfg := { s.cfg with safe := v } } blkFIO 0x82 3 [v]) 0x0E p)

/-! ### The module itself (R302, R332, R428, R435, R452, R453, R468) -/

/-- A value of a setting of R332 is in its range. -/
def settingOk (key : Nat) (v : List Byte) : Bool :=
  let w := fun (i : Nat) => pn v (4 * i) 4
  match key with
  | 1 => v.length = 4 && w 0 ≤ 1
  | 2 => v.length = 88 && w 1 ≤ 32 && w 6 ≤ 128
  | 3 => v.length = 12 && w 0 ≤ 5 && w 1 ≤ 4094 && w 2 ≤ 7
  | 4 => v.length = 12 && w 0 ≤ 5 && w 1 < 16 && w 2 ≤ 63
  | 5 => v.length = 8 && 6 ≤ w 0 && w 0 ≤ 13 && w 1 ≤ 1
  | _ => v.length = 4 && w 0 < 2 ^ 17

/-- A setting stored in the configuration partition, by KEY and port. -/
def storeSetting (s : State) (key : Nat) (v : List Byte) : State :=
  let w := pn v 0 4
  match key with
  | 1 => { s with cfg := { s.cfg with pwrWarm := decide (w = 1) } }
  | 6 => { s with cfg := { s.cfg with gates := w } }
  | _ => { s with cfg := { s.cfg with values := alPut s.cfg.values (16 * key + (if key = 2 then 0 else w)) v } }

/-- SETTING (R332). -/
def qSetting (s : State) (p : List Byte) : Answer :=
  let key := pn p 0 2
  if p.length < 4 || pn p 2 2 ≠ 0 then ansBad s
  else if key = 0 || 6 < key then ansRefuse s 1
  else if settingOk key (p.drop 4) then ansOk (storeSetting s key (p.drop 4)) else ansBad s

/-- RED_CMD. -/
def qRedCmd (s : State) (p : List Byte) : Answer :=
  if p.length ≠ 4 then ansBad s else ansOk (redCmdWrite s (BitVec.ofNat 32 (pn p 0 4)))

/-- ATTEST: refused in DECOMMISSIONED, and before the identity is derived (R428). -/
def qAttest (s : State) (p : List Byte) : Answer :=
  if p.length ≠ 32 then ansBad s
  else if lifecycle s = 3 || !flag s F.SEC_STATUS_ID_READY then ansState s
  else ansWith s (attestReport s p)

/-- EVR_ACK (R452). -/
def qEvrAck (s : State) (p : List Byte) : Answer :=
  if p.length ≠ 8 then ansBad s else ansOk (qhcPump (set64 s R.EVR_HOST_ACK_LO R.EVR_HOST_ACK_HI (pn p 0 8)))

/-- STATE_ACK (R453). -/
def qStateAck (s : State) (p : List Byte) : Answer :=
  if p.length ≠ 8 then ansBad s
  else ansOk (qhcPump { s with evr := { s.evr with states := s.evr.states.filter fun r => pn p 0 8 < r.cycle } })

/-! ### Requests (R328, R330, R331) -/

/-- The types that a token holder accepts at a service address only. -/
def serviceOnly (typ : Nat) (p : List Byte) : Bool :=
  match typ with
  | 0x02 | 0x03 => pn p 0 1 ≠ ikRUNTIME
  | 0x04 => pn p 0 1 = ikMODEL
  | 0x05 | 0x06 | 0x07 | 0x08 | 0x09 | 0x0A | 0x0D | 0x0E => true
  | _ => false

/-- The types that ports without a MACsec key accept unprotected (R328). -/
def openType (typ : Nat) : Bool := [0x01, 0x02, 0x03, 0x04, 0x12, 0x13].contains typ

/-- The effect of a request accepted at `acc` and its answer, by type. RESTART answers here and acts after its reply. -/
def hostEffect (s : State) (acc sender reqId typ : Nat) (p : List Byte) (v : Verdict) : Answer :=
  match typ with
  | 0x01 => qStatus s p
  | 0x02 => qImageWrite s p
  | 0x03 => qImageCheck s p v
  | 0x04 => qImageSelect s p v
  | 0x05 => qExchange s p v
  | 0x06 => qForecast s acc p
  | 0x07 => qMask s acc p
  | 0x08 => qForce s p
  | 0x09 => qMeterConfig s acc p
  | 0x0A => qMeterClear s acc p
  | 0x0B => qMeterRead s p
  | 0x0C => qMeterAck s p
  | 0x0D => qDpoCtrl s p
  | 0x0E => qSafe s p
  | 0x0F => qSetting s p
  | 0x10 => if p.length ≠ 4 || pn p 1 3 ≠ 0 || (pn p 0 1 ≠ 1 && pn p 0 1 ≠ 2) then ansBad s else ansOk s
  | 0x11 => qRedCmd s p
  | 0x12 => qAttest s p
  | 0x13 => authority s sender reqId p v
  | 0x14 => qEvrAck s p
  | 0x15 => qStateAck s p
  | _ => (s, some (2, leBytes 4 0))

/-- A datagram that has passed its checks: from the host address with its MACsec check, or from the mailbox, it keeps the
channel up, and delivery resumes (R334, R452). -/
def hostHeard (s : State) (r : HostReq) : State :=
  if !(r.via.all fun f => hostAddr s f.src && r.secured) then s
  else
    let was := s.qhc.lost
    let s := { s with qhc := { s.qhc with lost := false, lastRx := nowNs s } }
    if was then qhcPump s else s

/-- The answer to a request that is not a repetition. -/
def hostAnswer (s : State) (r : HostReq) (typ : Nat) (p : List Byte) (v : Verdict) : Answer :=
  if typ = 0 || 0x15 < typ then (s, some (2, leBytes 4 0))
  else if r.via.isSome && !r.secured && !openType typ then (s, some (6, leBytes 4 0))
  else if serviceOnly typ p && !(holds s && r.via.all fun f => serviceAddr s f.dst) then (s, some (5, leBytes 4 0))
  else hostEffect s (nowNs s) r.sender r.reqId.toNat typ p v

/-- The reset of a RESTART request that was accepted (R468). -/
def hostRestart (s : State) (p : List Byte) : State :=
  beginReset s (if pn p 0 1 = 1 then rkWARM else rkCOLD) caHOST

/-- A complete request: a REQ_ID of a kept reply is answered with it again, any other is carried out (R331). -/
def hostRequest (s : State) (r : HostReq) (typ : Nat) (p : List Byte) (v : Verdict) : State :=
  match s.qhc.kept.find? fun e => e.1 = r.sender && e.2.1 = r.reqId.toNat with
  | some (_, _, t, st, b) => emitReply s r.sender r.reqId.toNat t st b
  | none =>
    match hostAnswer s r typ p v with
    | (s, none) => s
    | (s, some (st, b)) =>
      let s := qhcReply s r.sender r.reqId.toNat typ st b
      if typ = 0x10 && st = 0 then hostRestart s p else s

/-- The addresses on which the module answers: its own in every role, the service addresses with the token (R288, R327). -/
def answersAt (s : State) (a : NetAddr) : Bool := moduleAddr s a || (holds s && serviceAddr s a)

/-- A port takes a frame: a protected one under its association, an unprotected one while the slot of its setting holds no
key (R328, R431). -/
def portTakes (s : State) (port : Nat) (secured : Bool) : Bool :=
  if secured then (alGet? s.qhc.macKey port).isSome
  else ((alGet? s.qhc.macSlot port).bind fun k => keyOf s k atMACSEC).isNone

/-- The runtime hears a sender: the mailbox while PCIe is up; ports 0 and 1 on their VLAN, at an address of the module, in
frames that the port takes (R327, R328, R333). -/
def hears (s : State) (r : HostReq) : Bool :=
  s.runtimeUp && match r.via with
    | none => s.qhc.pcieUp
    | some f =>
      f.eth.val ≤ 1 && onVlan s f && answersAt s f.dst && portTakes s f.eth.val r.secured

/-- One whole request of a type as a command. -/
def hostRow (s : State) (r : HostReq) (typ : Nat) (p : List Byte) (v : Verdict) : Host.Outcome State Fault Refusal :=
  .next (if hears s r then hostRequest (hostHeard s r) r typ p v else s)

/-- No cryptographic check is asked of a request. -/
def noVerdict : Verdict := { sigOk := false, plain := none, recovery := false }

/-- STATUS_READ (R330). -/
def execStatusRead (r : HostReq) (payload : List (BitVec 8)) (s : State) : Host.Outcome State Fault Refusal :=
  hostRow s r 0x01 payload noVerdict
/-- IMAGE_WRITE (R330). -/
def execImageWrite (r : HostReq) (payload : List (BitVec 8)) (s : State) : Host.Outcome State Fault Refusal :=
  hostRow s r 0x02 payload noVerdict
/-- IMAGE_CHECK (R330). -/
def execImageCheck (r : HostReq) (payload : List (BitVec 8)) (v : Verdict) (s : State) : Host.Outcome State Fault Refusal :=
  hostRow s r 0x03 payload v
/-- IMAGE_SELECT (R330). -/
def execImageSelect (r : HostReq) (payload : List (BitVec 8)) (v : Verdict) (s : State) : Host.Outcome State Fault Refusal :=
  hostRow s r 0x04 payload v
/-- PROG_EXCHANGE (R265). -/
def execProgExchange (r : HostReq) (payload : List (BitVec 8)) (v : Verdict) (s : State) : Host.Outcome State Fault Refusal :=
  hostRow s r 0x05 payload v
/-- FORECAST (R102). -/
def execForecast (r : HostReq) (payload : List (BitVec 8)) (s : State) : Host.Outcome State Fault Refusal :=
  hostRow s r 0x06 payload noVerdict
/-- MASK (R53). -/
def execMask (r : HostReq) (payload : List (BitVec 8)) (s : State) : Host.Outcome State Fault Refusal :=
  hostRow s r 0x07 payload noVerdict
/-- METER_CONFIG (R156). -/
def execMeterConfig (r : HostReq) (payload : List (BitVec 8)) (s : State) : Host.Outcome State Fault Refusal :=
  hostRow s r 0x09 payload noVerdict
/-- METER_CLEAR (R158). -/
def execMeterClear (r : HostReq) (payload : List (BitVec 8)) (s : State) : Host.Outcome State Fault Refusal :=
  hostRow s r 0x0A payload noVerdict
/-- METER_READ (R330). -/
def execMeterRead (r : HostReq) (payload : List (BitVec 8)) (s : State) : Host.Outcome State Fault Refusal :=
  hostRow s r 0x0B payload noVerdict
/-- METER_ACK (R152). -/
def execMeterAck (r : HostReq) (payload : List (BitVec 8)) (s : State) : Host.Outcome State Fault Refusal :=
  hostRow s r 0x0C payload noVerdict
/-- SAFE_VALUES (R410). -/
def execSafeValues (r : HostReq) (payload : List (BitVec 8)) (s : State) : Host.Outcome State Fault Refusal :=
  hostRow s r 0x0E payload noVerdict
/-- SETTING (R332). -/
def execSetting (r : HostReq) (payload : List (BitVec 8)) (s : State) : Host.Outcome State Fault Refusal :=
  hostRow s r 0x0F payload noVerdict
/-- ATTEST (R428). -/
def execAttest (r : HostReq) (payload : List (BitVec 8)) (s : State) : Host.Outcome State Fault Refusal :=
  hostRow s r 0x12 payload noVerdict
/-- EVR_ACK (R452). -/
def execEvrAck (r : HostReq) (payload : List (BitVec 8)) (s : State) : Host.Outcome State Fault Refusal :=
  hostRow s r 0x14 payload noVerdict
/-- STATE_ACK (R453). -/
def execStateAck (r : HostReq) (payload : List (BitVec 8)) (s : State) : Host.Outcome State Fault Refusal :=
  hostRow s r 0x15 payload noVerdict

/-- An authority message of one TYPE as a command; a message of another TYPE is another command. -/
def authRow (s : State) (r : HostReq) (typ : Nat) (p : List Byte) (v : Verdict) : Host.Outcome State Fault Refusal :=
  if amType p = typ then hostRow s r 0x13 p v else .next s

/-- KEY_UPDATE (R433). -/
def execKeyUpdate (r : HostReq) (payload : List (BitVec 8)) (v : Verdict) (s : State) : Host.Outcome State Fault Refusal :=
  authRow s r amKEY_UPDATE payload v
/-- PROTECT (R433). -/
def execProtect (r : HostReq) (payload : List (BitVec 8)) (v : Verdict) (s : State) : Host.Outcome State Fault Refusal :=
  authRow s r amPROTECT payload v
/-- OWNER_ADD (R433). -/
def execOwnerAdd (r : HostReq) (payload : List (BitVec 8)) (v : Verdict) (s : State) : Host.Outcome State Fault Refusal :=
  authRow s r amOWNER_ADD payload v
/-- OWNER_REVOKE (R433). -/
def execOwnerRevoke (r : HostReq) (payload : List (BitVec 8)) (v : Verdict) (s : State) : Host.Outcome State Fault Refusal :=
  authRow s r amOWNER_REVOKE payload v
/-- NEW_IDENTITY (R433). -/
def execNewIdentity (r : HostReq) (payload : List (BitVec 8)) (v : Verdict) (s : State) : Host.Outcome State Fault Refusal :=
  authRow s r amNEW_IDENTITY payload v
/-- DECOMMISSION (R433). -/
def execDecommission (r : HostReq) (payload : List (BitVec 8)) (v : Verdict) (s : State) : Host.Outcome State Fault Refusal :=
  authRow s r amDECOMMISSION payload v
/-- SVN_COMMIT (R424). -/
def execSvnCommit (r : HostReq) (payload : List (BitVec 8)) (v : Verdict) (s : State) : Host.Outcome State Fault Refusal :=
  authRow s r amSVN_COMMIT payload v
/-- PROVISION (R433). -/
def execProvision (r : HostReq) (payload : List (BitVec 8)) (v : Verdict) (s : State) : Host.Outcome State Fault Refusal :=
  authRow s r amPROVISION payload v

/-! ### Datagrams (R329, R333) -/

/-- The size of a whole message (R329). -/
def qhcMax : Nat := 37748736

/-- The host's reply to an unsolicited message: the next one follows (R334, R452, R453). -/
def hostReplied (s : State) (reqId : Nat) : State :=
  match s.qhc.out.find? fun u => u.reqId = reqId with
  | none => s
  | some u =>
    let s := { s with qhc := { s.qhc with out := s.qhc.out.filter fun x => x.reqId != reqId } }
    let s := if u.typ = qtSTATE then { s with evr := { s.evr with states := s.evr.states.filter fun r => r.cycle != u.key } } else s
    qhcPump s

/-- Replies come protected or through the mailbox: their types are none that a port takes unprotected (R328). -/
def mayReply (r : HostReq) : Bool := r.via.isNone || r.secured

/-- QHC_HOST_REPLY (R334). -/
def execQhcHostReply (r : HostReq) (s : State) : Host.Outcome State Fault Refusal :=
  .next (if hears s r && mayReply r then hostReplied (hostHeard s r) r.reqId.toNat else s)

/-- The payload of a message whose fragments are all present (R329). -/
def wholeMessage (m : Reassembly) : Option (List Byte) :=
  match m.frags.find? fun f => f.2.2 with
  | none => none
  | some l =>
    let parts := (List.range (l.1 + 1)).map fun i => (m.frags.find? fun f => f.1 = i).map fun f => f.2.1
    if parts.all (·.isSome) then
      let p := (parts.map fun x => x.getD []).flatten
      if p.length = m.total then some p else none
    else none

/-- A fragment put to its message. -/
def putFrag (m : Reassembly) (i : Nat) (p : List Byte) (last : Bool) (t : Nat) : Reassembly :=
  { m with frags := (m.frags.filter fun f => f.1 != i) ++ [(i, p, last)], at_ := t }

/-- A message with its latest fragment in place of the others of its sender and REQ_ID; a whole one is no longer held. -/
def holdMessage (s : State) (m : Reassembly) (whole : Bool) : State :=
  let rest := s.qhc.parts.filter fun x => !(x.sender = m.sender && x.reqId = m.reqId)
  { s with qhc := { s.qhc with parts := if whole then rest else rest ++ [m] } }

/-- Every fragment of a message up to its last has come, whatever they carried. -/
def allCome (m : Reassembly) : Bool :=
  match m.frags.find? fun f => f.2.2 with
  | none => false
  | some l => (List.range (l.1 + 1)).all fun i => m.frags.any fun f => f.1 = i

/-- A message that has its reply: its fragments that are still to come get no other (R331). -/
def answerMessage (s : State) (m : Reassembly) (reply : State → State) : State :=
  reply (holdMessage s { m with answered := true } (allCome m))

/-- The kept reply to a REQ_ID of a sender sent again (R331). -/
def replyAgain (r : HostReq) (s : State) : State :=
  match s.qhc.kept.find? fun e => e.1 = r.sender && e.2.1 = r.reqId.toNat with
  | some (_, _, t, st, b) => emitReply s r.sender r.reqId.toNat t st b
  | none => s

/-- A message of the request's REQ_ID has a kept reply. -/
def replyKept (s : State) (r : HostReq) : Bool := s.qhc.kept.any fun e => e.1 = r.sender && e.2.1 = r.reqId.toNat

/-- A datagram of a message, `bad` where its header or its size is malformed (R329, R331): each request gets one reply, with
the first fragment that decides it, and a fragment that comes again begins a repetition; a fifth message of a sender under
reassembly is BUSY, and one that fits a datagram needs none (DEDUCED, log 73). -/
def takeFragment (s : State) (r : HostReq) (typ frag total : Nat) (last bad : Bool) (p : List Byte) (v : Verdict) : State :=
  let old := s.qhc.parts.find? fun m => m.sender = r.sender && m.reqId = r.reqId.toNat
  let fresh : Reassembly := { sender := r.sender, reqId := r.reqId.toNat, typ := typ, total := total, frags := [], at_ := 0,
                              answered := false }
  let refuse := fun (m : Reassembly) (code : Nat) =>
    answerMessage s (putFrag m frag [] last (nowNs s)) fun s => qhcReply s r.sender r.reqId.toNat typ code (leBytes 4 0)
  let again := answerMessage s (putFrag fresh frag [] last (nowNs s)) (replyAgain r)
  match old with
  | some m =>
    if m.answered then
      if m.frags.any fun f => f.1 = frag then again else answerMessage s (putFrag m frag [] last (nowNs s)) id
    else if bad then refuse m 1
    else
      let m := putFrag m frag p last (nowNs s)
      match wholeMessage m with
      | some b => hostRequest (holdMessage s m true) r m.typ b v
      | none => holdMessage s m false
  | none =>
    if replyKept s r then again
    else if bad then refuse fresh 1
    else
      let m := putFrag fresh frag p last (nowNs s)
      match wholeMessage m with
      | some b => hostRequest s r m.typ b v
      | none =>
        if 4 ≤ s.qhc.parts.countP (fun x => x.sender = r.sender && !x.answered) then refuse fresh 7 else holdMessage s m false

/-- A datagram is dropped without a reply: its CRC fails, or its length is not 24 + LEN (R329). -/
def qhcGood (d : List Byte) : Bool :=
  24 ≤ d.length && pn d 16 2 + 24 = d.length && crc32c (d.take 20 ++ leBytes 4 0 ++ d.drop 24) = pn d 20 4

/-- A datagram as it arrives; a header outside R329 is answered as malformed. -/
def takeDatagram (s : State) (r : HostReq) (d : List Byte) (v : Verdict) : State :=
  let r := { r with reqId := BitVec.ofNat 32 (pn d 4 4) }
  if !hears s r || !qhcGood d then s
  else
    let s := hostHeard s r
    let flags := pn d 2 1
    let p := d.drop 24
    let size := if r.sender = 0 then mboxFrag else etherFrag
    let last := flags.testBit 1
    let bad := pn d 0 1 ≠ 1 || 3 < flags || pn d 3 1 ≠ 0 || pn d 18 2 ≠ 0 || qhcMax < pn d 12 4 || size < p.length ||
      (!last && p.length ≠ size)
    if flags.testBit 0 then (if mayReply r then hostReplied s r.reqId.toNat else s)
    else takeFragment s r (pn d 1 1) (pn d 8 4) (pn d 12 4) last bad p v

/-- QHC_FRAGMENT_RECEIVE: a datagram on an Ethernet port; `v` answers the cryptographic checks of the message that it
completes (R329). -/
def execQhcFragmentReceive (r : HostReq) (d : List (BitVec 8)) (v : Verdict) (s : State) : Host.Outcome State Fault Refusal :=
  .next (if r.via.isNone then s else takeDatagram s r d v)

/-- QHC_REASSEMBLY_TIMEOUT: messages without a new fragment for 2 s are discarded (R329). -/
def execQhcReassemblyTimeout (s : State) : Host.Outcome State Fault Refusal :=
  .next { s with qhc := { s.qhc with parts := s.qhc.parts.filter fun m => nowNs s < m.at_ + 2000000000 } }

/-- The module takes the datagram of a full inbound mailbox, clears FULL and raises MSI vector 1 (R333). -/
def takeMailbox (s : State) (v : Verdict) : State :=
  let r : HostReq := { via := none, reqId := 0, secured := true }
  if !s.qhc.inFull || !hears s r then s
  else
    let word := fun i => (alGet? s.qhc.inBox (4 * i)).getD 0
    let n := word 1
    let d := ((List.range 8190).flatMap fun i => leBytes 4 (word (i + 2))).take n
    let s := send { s with qhc := { s.qhc with inFull := false } } (.msi 1)
    if 24 ≤ n && n ≤ 32760 then takeDatagram s r d v else s

/-- The PCIe side has cleared OUT_CTRL.FULL (R333, R334). -/
def outTaken (s : State) : State :=
  if s.qhc.pcieUp then fillOutBox { s with qhc := { s.qhc with outBox := [], outSeen := true } } else s

/-- A write of the PCIe side at an offset of BAR4 (R333): FULL set or cleared, a word of IN_LEN or IN_DATA, or a write that
is discarded. -/
def mailboxWrite (s : State) (off w : Nat) (v : Verdict) : State :=
  let off := off / 4 * 4
  if !s.qhc.pcieUp then s
  else if off = 0 then if w.testBit 0 then takeMailbox { s with qhc := { s.qhc with inFull := true } } v else s
  else if off = 0x8000 then if w.testBit 0 then s else outTaken s
  else if 0x8000 < off || s.qhc.inFull then cfgErr s
  else { s with qhc := { s.qhc with inBox := if w = 0 then alDel s.qhc.inBox off else alPut s.qhc.inBox off w } }

/-- A word of the mailbox as the PCIe side reads it (R333). -/
def mailboxRead (s : State) (off : Nat) : Nat :=
  let off := off / 4 * 4
  if off = 0 then bNat s.qhc.inFull
  else if off < 0x8000 then (alGet? s.qhc.inBox off).getD 0
  else if off = 0x8000 then bNat !s.qhc.outBox.isEmpty
  else if off = 0x8004 then s.qhc.outBox.length
  else leNat ((s.qhc.outBox.drop (off - 0x8008)).take 4)

/-- PCIE_MAILBOX_IN (R333). -/
def execPcieMailboxIn (op : MailboxOp) (s : State) : Host.Outcome State Fault Refusal :=
  .next (match op with
    | .write off w v => mailboxWrite s off.toNat w.toNat v
    | .take v => takeMailbox s v)

/-- PCIE_MAILBOX_OUT_TAKEN (R333, R334). -/
def execPcieMailboxOutTaken (s : State) : Host.Outcome State Fault Refusal := .next (outTaken s)

/-- QHC_UNSOL_RETRY: an unsolicited message without a reply for 200 ms goes again (R334). -/
def execQhcUnsolRetry (s : State) : Host.Outcome State Fault Refusal :=
  .next (let due := fun (u : Unsol) => decide (u.sends + 200000000 ≤ nowNs s)
    let now := s.qhc.out.filter due
    let t := nowNs s
    let s := { s with qhc := { s.qhc with out := s.qhc.out.map fun u => if due u then { u with sends := t } else u } }
    if s.qhc.lost then s else forAll s now fun s u => emitUnsol s u.reqId u.typ u.payload)

/-- HOST_CHANNEL_LOSS: nothing valid from the host for 5 s (R334). -/
def execHostChannelLoss (s : State) : Host.Outcome State Fault Refusal :=
  .next (if !s.qhc.lost && decide (s.qhc.lastRx + 5000000000 ≤ nowNs s) then
      { s with qhc := { s.qhc with lost := true, out := [], evSent := 0 } }
    else s)

/-! ### Forwarded requests (R51, R266, R284) -/

/-- A force change of the active module waits on the standby for its tick (R259). -/
def forceForwarded (s : State) (at_ : Nat) (body : List Byte) : State :=
  let w := pn body 4 4
  let f : Force := { enable := w.testBit 31, kind := bitsOf 30 30 w, target := bitsOf 15 0 w, value := pn body 8 8 }
  let e := (at_, pn body 2 2, if pn body 0 1 = 2 then some f else none)
  { s with red := { s.red with forcesAt := s.red.forcesAt ++ [e] } }

/-- The active module's word that both hold the same image: the activation of both takes effect, and the exchange has
its X (R51, R266). -/
def standbyTold (s : State) (typ : Nat) (body : List Byte) : State :=
  if typ = 0x04 then
    { s with nsa := { s.nsa with activation := s.nsa.activation.map fun a => { a with confirmed := true } } }
  else match s.exch with
    | some x => setX s x (pn body 1 8)
    | none => s

/-- An activation that the active module has accepted: the standby holds it too, and reports once the slot is VALID (R51). -/
def takeActivation (s : State) (body : List Byte) : State :=
  let slot := pn body 1 1
  let s := activationAccepted s slot (pn body 4 8)
  if slotState s slot = slVALID then reportImage s 0x04 ikMODEL slot else s

/-- A forwarded request on the standby: its effect without its answer, at the instant that the active module names. -/
def standbyTakes (s : State) (typ at_ : Nat) (body : List Byte) (v : Verdict) : State :=
  if typ = 0x08 then forceForwarded s at_ body
  else if typ = 0x0D then
    let w := pn body 0 4
    let s := setF (setF s F.DPO_CTRL_PLY_OFF (w / 2 % 2)) F.DPO_CTRL_DPO_OFF (w % 2)
    { s with dpo := { s.dpo with ctrlAt := at_ } }
  else if (typ = 0x04 || typ = 0x05) && body.length = 9 then standbyTold s typ body
  else if typ = 0x04 && body.length = 12 && reqHead body && pn body 0 1 = ikMODEL then takeActivation s body
  else
    let r := hostEffect s (acceptedFor s typ at_) 0 0 typ body v
    let ok := match r.2 with | some (st, _) => decide (st = 0) | none => false
    if ok && typ = 0x05 then reportImage r.1 typ ikPROGRAM (pn body 0 1)
    else r.1

/-- The standby's report on the active module: an activation or an exchange is confirmed where the slot and the digest are
the module's own, and the standby is told (R51, R266). -/
def peerReports (s : State) (typ : Nat) (body : List Byte) : State :=
  let slot := pn body 0 1
  if typ = 0x04 then
    match s.nsa.activation with
    | some a =>
      if a.confirmed || a.slot ≠ slot || body.drop 1 ≠ imageDigest s ikMODEL slot then s
      else
        furovSend { s with nsa := { s.nsa with activation := some { a with confirmed := true } } }
          (.forward 0x04 (a.at_ * netNs s) (leBytes 1 1 ++ leBytes 8 a.at_))
    | none => s
  else if typ = 0x05 then
    match s.exch with
    | some x =>
      if x.slot ≠ slot || body.drop 1 ≠ imageDigest s ikPROGRAM slot then s
      else
        let s := exchConfirmed s
        match s.exch.bind (·.at_) with
        | some t => furovSend s (.forward 0x05 t (leBytes 1 1 ++ leBytes 8 t))
        | none => s
    | none => s
  else s

/-- FUROV_FORWARD: a host request that the active module accepted with its instant, or the standby's report on one
(R284). -/
def execFurovForward (h : FurovHdr) (typ : BitVec 8) (at_ : Nat) (body : List (BitVec 8)) (v : Verdict) (s : State) :
    Host.Outcome State Fault Refusal :=
  furovIn s h fun s =>
    if roleOf s = roSTANDBY then standbyTakes s typ.toNat at_ body v
    else if roleOf s = roACTIVE then peerReports s typ.toNat body
    else s

end Sys2Proof.Machine
end

