-- ==== Sys2Proof/Machine/IrtumBranch.lean ====
section
/-!
DEFINITION. Branches, jumps and calls (07 R171, 08 R202 to R204).
-/
namespace Sys2Proof.Machine

/-- A conditional branch: to PC + sext(IMM16)·4 when the condition holds, else to PC + 4 (R202). -/
def branch (x : Issue) (ra rb : Fin 32) (imm : BitVec 16) (s : State) (cond : Dword → Dword → Bool) :
    Host.Outcome State Fault Refusal :=
  issue x s none fun s =>
    let k := ctxOf s x.core
    .ok (s, if cond (getG k ra) (getG k rb) then k.pc + (imm.signExtend 64 <<< 2) else pc4 s x.core)

/-- The link register g31 takes PC + 4 (R203). -/
def link (s : State) (c : Fin 6) : State := setCtx s c (putG (ctxOf s c) 31 (pc4 s c))

/-- The target of JR and CALLR, or ALIGN with DETAIL 0 (R203, R513). -/
def regTarget (s : State) (c : Fin 6) (ra : Fin 32) (imm : BitVec 16) : Except Exc Dword :=
  let t := getG (ctxOf s c) ra + imm.signExtend 64
  if t.toNat % 4 = 0 then .ok t else .error (excALIGN 0 t)

/-- BEQ: taken when equal (R202). -/
def execBeq (x : Issue) (ra rb : Fin 32) (imm : BitVec 16) (s : State) : Host.Outcome State Fault Refusal :=
  branch x ra rb imm s fun a b => a == b

/-- BNE: taken when not equal. -/
def execBne (x : Issue) (ra rb : Fin 32) (imm : BitVec 16) (s : State) : Host.Outcome State Fault Refusal :=
  branch x ra rb imm s fun a b => a != b

/-- BLT: taken when less, signed. -/
def execBlt (x : Issue) (ra rb : Fin 32) (imm : BitVec 16) (s : State) : Host.Outcome State Fault Refusal :=
  branch x ra rb imm s fun a b => a.slt b

/-- BGE: taken when greater or equal, signed. -/
def execBge (x : Issue) (ra rb : Fin 32) (imm : BitVec 16) (s : State) : Host.Outcome State Fault Refusal :=
  branch x ra rb imm s fun a b => !a.slt b

/-- BLTU: taken when less, unsigned. -/
def execBltu (x : Issue) (ra rb : Fin 32) (imm : BitVec 16) (s : State) : Host.Outcome State Fault Refusal :=
  branch x ra rb imm s fun a b => a.ult b

/-- BGEU: taken when greater or equal, unsigned. -/
def execBgeu (x : Issue) (ra rb : Fin 32) (imm : BitVec 16) (s : State) : Host.Outcome State Fault Refusal :=
  branch x ra rb imm s fun a b => !a.ult b

/-- J: to PC + sext(IMM26)·4 (R203). -/
def execJ (x : Issue) (imm : BitVec 26) (s : State) : Host.Outcome State Fault Refusal :=
  issue x s none fun s => .ok (s, (ctxOf s x.core).pc + (imm.signExtend 64 <<< 2))

/-- CALL: as J, with the link in g31. -/
def execCall (x : Issue) (imm : BitVec 26) (s : State) : Host.Outcome State Fault Refusal :=
  issue x s none fun s => .ok (link s x.core, (ctxOf s x.core).pc + (imm.signExtend 64 <<< 2))

/-- JR: to g[RS1] + sext(IMM16). -/
def execJr (x : Issue) (ra : Fin 32) (imm : BitVec 16) (s : State) : Host.Outcome State Fault Refusal :=
  issue x s none fun s => do return (s, ← regTarget s x.core ra imm)

/-- CALLR: as JR, with the link in g31 after the target is formed. -/
def execCallr (x : Issue) (ra : Fin 32) (imm : BitVec 16) (s : State) : Host.Outcome State Fault Refusal :=
  issue x s none fun s => do return (link s x.core, ← regTarget s x.core ra imm)

end Sys2Proof.Machine
end

