-- ==== Sys2Proof/Machine/IrtumFixed.lean ====
section
/-!
DEFINITION. The fixed-point instructions (07 R168, 08 R198).
-/
namespace Sys2Proof.Machine

/-- Two fixed-point operands. -/
def q3 (x : Issue) (rd ra rb : Fin 32) (s : State) (f : Int → Int → Dword × Nat) : Host.Outcome State Fault Refusal :=
  issueG x s rd fun k => f (q32 (getG k ra)) (q32 (getG k rb))

/-- One fixed-point operand. -/
def q2 (x : Issue) (rd ra : Fin 32) (s : State) (f : Int → Dword × Nat) : Host.Outcome State Fault Refusal :=
  issueG x s rd fun k => f (q32 (getG k ra))

/-- QADD: saturated sum (R198). -/
def execQadd (x : Issue) (rd ra rb : Fin 32) (s : State) : Host.Outcome State Fault Refusal :=
  q3 x rd ra rb s fun a b => qRes (sat32 (a + b))

/-- QSUB: saturated difference. -/
def execQsub (x : Issue) (rd ra rb : Fin 32) (s : State) : Host.Outcome State Fault Refusal :=
  q3 x rd ra rb s fun a b => qRes (sat32 (a - b))

/-- QMIN: signed minimum. -/
def execQmin (x : Issue) (rd ra rb : Fin 32) (s : State) : Host.Outcome State Fault Refusal :=
  q3 x rd ra rb s fun a b => qRes (min a b, false)

/-- QMAX: signed maximum. -/
def execQmax (x : Issue) (rd ra rb : Fin 32) (s : State) : Host.Outcome State Fault Refusal :=
  q3 x rd ra rb s fun a b => qRes (max a b, false)

/-- QMUL: the product written back with shift s. -/
def execQmul (x : Issue) (rd ra rb : Fin 32) (sh : Fin 63) (s : State) : Host.Outcome State Fault Refusal :=
  q3 x rd ra rb s fun a b => qRes (wb (mul32 a b) sh.val)

/-- QDIV: the quotient scaled by 2^s. -/
def execQdiv (x : Issue) (rd ra rb : Fin 32) (sh : Fin 63) (s : State) : Host.Outcome State Fault Refusal :=
  q3 x rd ra rb s fun a b => qDiv a b sh.val

/-- QSHL: a times 2^s, saturated. -/
def execQshl (x : Issue) (rd ra : Fin 32) (sh : Fin 63) (s : State) : Host.Outcome State Fault Refusal :=
  q2 x rd ra s fun a => qRes (wb a (-(sh.val : Int)))

/-- QSHR: a divided by 2^s, rounded half to even. -/
def execQshr (x : Issue) (rd ra : Fin 32) (sh : Fin 63) (s : State) : Host.Outcome State Fault Refusal :=
  q2 x rd ra s fun a => qRes (roundEven a sh.val, false)

/-- QNEG: saturated negation. -/
def execQneg (x : Issue) (rd ra : Fin 32) (s : State) : Host.Outcome State Fault Refusal :=
  q2 x rd ra s fun a => qRes (sat32 (-a))

/-- QABS: saturated magnitude. -/
def execQabs (x : Issue) (rd ra : Fin 32) (s : State) : Host.Outcome State Fault Refusal :=
  q2 x rd ra s fun a => qRes (sat32 a.natAbs)

end Sys2Proof.Machine
end

