-- ==== Sys2Proof/Machine/IrtumFloat.lean ====
section
/-!
DEFINITION. The binary64 instructions (07 R169, 08 R199 R200).
-/
namespace Sys2Proof.Machine

/-- FADD: sum (R199). -/
def execFadd (x : Issue) (fd fa fb : Fin 16) (s : State) : Host.Outcome State Fault Refusal :=
  issueD x s fd fun k => f64Add (getD k fa) (getD k fb)

/-- FSUB: difference. -/
def execFsub (x : Issue) (fd fa fb : Fin 16) (s : State) : Host.Outcome State Fault Refusal :=
  issueD x s fd fun k => f64Sub (getD k fa) (getD k fb)

/-- FMUL: product. -/
def execFmul (x : Issue) (fd fa fb : Fin 16) (s : State) : Host.Outcome State Fault Refusal :=
  issueD x s fd fun k => f64Mul (getD k fa) (getD k fb)

/-- FDIV: quotient. -/
def execFdiv (x : Issue) (fd fa fb : Fin 16) (s : State) : Host.Outcome State Fault Refusal :=
  issueD x s fd fun k => f64Div (getD k fa) (getD k fb)

/-- FMIN: minimumNumber (R200). -/
def execFmin (x : Issue) (fd fa fb : Fin 16) (s : State) : Host.Outcome State Fault Refusal :=
  issueD x s fd fun k => f64Pick false (getD k fa) (getD k fb)

/-- FMAX: maximumNumber (R200). -/
def execFmax (x : Issue) (fd fa fb : Fin 16) (s : State) : Host.Outcome State Fault Refusal :=
  issueD x s fd fun k => f64Pick true (getD k fa) (getD k fb)

/-- FSQRT: square root (R199). -/
def execFsqrt (x : Issue) (fd fa : Fin 16) (s : State) : Host.Outcome State Fault Refusal :=
  issueD x s fd fun k => f64Sqrt (getD k fa)

/-- FNEG: sign inverted (R200). -/
def execFneg (x : Issue) (fd fa : Fin 16) (s : State) : Host.Outcome State Fault Refusal :=
  issueD x s fd fun k => f64SetSign f64Flip (getD k fa)

/-- FABS: sign cleared (R200). -/
def execFabs (x : Issue) (fd fa : Fin 16) (s : State) : Host.Outcome State Fault Refusal :=
  issueD x s fd fun k => f64SetSign (fun v => v &&& 0x7FFFFFFFFFFFFFFF#64) (getD k fa)

/-- FEQ: 1 if equal (R200). -/
def execFeq (x : Issue) (rd : Fin 32) (fa fb : Fin 16) (s : State) : Host.Outcome State Fault Refusal :=
  issueG x s rd fun k => f64Eq (getD k fa) (getD k fb)

/-- FLT: 1 if less (R200). -/
def execFlt (x : Issue) (rd : Fin 32) (fa fb : Fin 16) (s : State) : Host.Outcome State Fault Refusal :=
  issueG x s rd fun k => f64Lt false (getD k fa) (getD k fb)

/-- FLE: 1 if less or equal (R200). -/
def execFle (x : Issue) (rd : Fin 32) (fa fb : Fin 16) (s : State) : Host.Outcome State Fault Refusal :=
  issueG x s rd fun k => f64Lt true (getD k fa) (getD k fb)

/-- FCVTDI: a signed integer rounded to binary64. -/
def execFcvtdi (x : Issue) (fd : Fin 16) (ra : Fin 32) (s : State) : Host.Outcome State Fault Refusal :=
  issueD x s fd fun k => f64OfInt (getG k ra).toInt

/-- FCVTID: to a signed integer (R169). -/
def execFcvtid (x : Issue) (rd : Fin 32) (fa : Fin 16) (s : State) : Host.Outcome State Fault Refusal :=
  issueG x s rd fun k => f64ToInt (getD k fa)

/-- FCVTDQ: a Q(32−n).n value, exactly. -/
def execFcvtdq (x : Issue) (fd : Fin 16) (ra : Fin 32) (n : Fin 32) (s : State) : Host.Outcome State Fault Refusal :=
  issueD x s fd fun k => (f64OfQ (q32 (getG k ra)) n.val, 0)

/-- FCVTQD: to Q(32−n).n, sign-extended (R169). -/
def execFcvtqd (x : Issue) (rd : Fin 32) (fa : Fin 16) (n : Fin 32) (s : State) : Host.Outcome State Fault Refusal :=
  issueG x s rd fun k => f64ToQ (getD k fa) n.val

/-- FMVDG: 64 bits unchanged (R200). -/
def execFmvdg (x : Issue) (fd : Fin 16) (ra : Fin 32) (s : State) : Host.Outcome State Fault Refusal :=
  issueD x s fd fun k => (getG k ra, 0)

/-- FMVGD: 64 bits unchanged (R200). -/
def execFmvgd (x : Issue) (rd : Fin 32) (fa : Fin 16) (s : State) : Host.Outcome State Fault Refusal :=
  issueG x s rd fun k => (getD k fa, 0)

end Sys2Proof.Machine
end

