-- ==== Sys2Proof/Machine/IrtumInt.lean ====
section
/-!
DEFINITION. The integer instructions (08 R195 to R197).
-/
namespace Sys2Proof.Machine

/-- Register-to-register, no flag. -/
def int3 (x : Issue) (rd ra rb : Fin 32) (s : State) (f : Dword → Dword → Dword) : Host.Outcome State Fault Refusal :=
  issueG x s rd fun k => (f (getG k ra) (getG k rb), 0)

/-- Register-to-register, with flags. -/
def int3f (x : Issue) (rd ra rb : Fin 32) (s : State) (f : Dword → Dword → Dword × Nat) :
    Host.Outcome State Fault Refusal :=
  issueG x s rd fun k => f (getG k ra) (getG k rb)

/-- One source register. -/
def int2 (x : Issue) (rd ra : Fin 32) (s : State) (f : Dword → Dword) : Host.Outcome State Fault Refusal :=
  issueG x s rd fun k => (f (getG k ra), 0)

/-- ADD: the sum (R195). -/
def execAdd (x : Issue) (rd ra rb : Fin 32) (s : State) : Host.Outcome State Fault Refusal :=
  int3 x rd ra rb s fun a b => a + b

/-- SUB: the difference. -/
def execSub (x : Issue) (rd ra rb : Fin 32) (s : State) : Host.Outcome State Fault Refusal :=
  int3 x rd ra rb s fun a b => a - b

/-- AND: bitwise and. -/
def execAnd (x : Issue) (rd ra rb : Fin 32) (s : State) : Host.Outcome State Fault Refusal :=
  int3 x rd ra rb s fun a b => a &&& b

/-- OR: bitwise or. -/
def execOr (x : Issue) (rd ra rb : Fin 32) (s : State) : Host.Outcome State Fault Refusal :=
  int3 x rd ra rb s fun a b => a ||| b

/-- XOR: bitwise exclusive or. -/
def execXor (x : Issue) (rd ra rb : Fin 32) (s : State) : Host.Outcome State Fault Refusal :=
  int3 x rd ra rb s fun a b => a ^^^ b

/-- SHL: shift left, zeros in. -/
def execShl (x : Issue) (rd ra rb : Fin 32) (s : State) : Host.Outcome State Fault Refusal :=
  int3 x rd ra rb s fun a b => a <<< shAmt b

/-- SHR: logical right shift. -/
def execShr (x : Issue) (rd ra rb : Fin 32) (s : State) : Host.Outcome State Fault Refusal :=
  int3 x rd ra rb s fun a b => a >>> shAmt b

/-- SAR: arithmetic right shift. -/
def execSar (x : Issue) (rd ra rb : Fin 32) (s : State) : Host.Outcome State Fault Refusal :=
  int3 x rd ra rb s fun a b => a.sshiftRight (shAmt b)

/-- SLT: 1 if less, signed. -/
def execSlt (x : Issue) (rd ra rb : Fin 32) (s : State) : Host.Outcome State Fault Refusal :=
  int3 x rd ra rb s fun a b => boolD (a.slt b)

/-- SLTU: 1 if less, unsigned. -/
def execSltu (x : Issue) (rd ra rb : Fin 32) (s : State) : Host.Outcome State Fault Refusal :=
  int3 x rd ra rb s fun a b => boolD (a.ult b)

/-- MUL: low 64 bits of the product. -/
def execMul (x : Issue) (rd ra rb : Fin 32) (s : State) : Host.Outcome State Fault Refusal :=
  int3 x rd ra rb s fun a b => a * b

/-- MULH: high 64 bits of the signed product. -/
def execMulh (x : Issue) (rd ra rb : Fin 32) (s : State) : Host.Outcome State Fault Refusal :=
  int3 x rd ra rb s mulHigh

/-- MULHU: high 64 bits of the unsigned product. -/
def execMulhu (x : Issue) (rd ra rb : Fin 32) (s : State) : Host.Outcome State Fault Refusal :=
  int3 x rd ra rb s mulHighU

/-- MIN: signed minimum. -/
def execMin (x : Issue) (rd ra rb : Fin 32) (s : State) : Host.Outcome State Fault Refusal :=
  int3 x rd ra rb s minS

/-- MAX: signed maximum. -/
def execMax (x : Issue) (rd ra rb : Fin 32) (s : State) : Host.Outcome State Fault Refusal :=
  int3 x rd ra rb s maxS

/-- MINU: unsigned minimum. -/
def execMinu (x : Issue) (rd ra rb : Fin 32) (s : State) : Host.Outcome State Fault Refusal :=
  int3 x rd ra rb s minU

/-- MAXU: unsigned maximum. -/
def execMaxu (x : Issue) (rd ra rb : Fin 32) (s : State) : Host.Outcome State Fault Refusal :=
  int3 x rd ra rb s maxU

/-- DIV: signed quotient (R196). -/
def execDiv (x : Issue) (rd ra rb : Fin 32) (s : State) : Host.Outcome State Fault Refusal :=
  int3f x rd ra rb s divS

/-- DIVU: unsigned quotient. -/
def execDivu (x : Issue) (rd ra rb : Fin 32) (s : State) : Host.Outcome State Fault Refusal :=
  int3f x rd ra rb s divU

/-- REM: signed remainder. -/
def execRem (x : Issue) (rd ra rb : Fin 32) (s : State) : Host.Outcome State Fault Refusal :=
  int3f x rd ra rb s remS

/-- REMU: unsigned remainder. -/
def execRemu (x : Issue) (rd ra rb : Fin 32) (s : State) : Host.Outcome State Fault Refusal :=
  int3f x rd ra rb s remU

/-- SEXT: sign-extended from 8, 16 or 32 bits. -/
def execSext (x : Issue) (rd ra : Fin 32) (w : Fin 3) (s : State) : Host.Outcome State Fault Refusal :=
  int2 x rd ra s fun a => sext64 (extWidth w) a.toNat

/-- ZEXT: zero-extended from 8, 16 or 32 bits. -/
def execZext (x : Issue) (rd ra : Fin 32) (w : Fin 3) (s : State) : Host.Outcome State Fault Refusal :=
  int2 x rd ra s fun a => zext64 (extWidth w) a.toNat

/-- ADDI: sum with the immediate (R197). -/
def execAddi (x : Issue) (rd ra : Fin 32) (imm : BitVec 16) (s : State) : Host.Outcome State Fault Refusal :=
  int2 x rd ra s fun a => a + imm.signExtend 64

/-- SLTI: 1 if less than the immediate, signed. -/
def execSlti (x : Issue) (rd ra : Fin 32) (imm : BitVec 16) (s : State) : Host.Outcome State Fault Refusal :=
  int2 x rd ra s fun a => boolD (a.slt (imm.signExtend 64))

/-- SLTIU: 1 if less than the sign-extended immediate, unsigned. -/
def execSltiu (x : Issue) (rd ra : Fin 32) (imm : BitVec 16) (s : State) : Host.Outcome State Fault Refusal :=
  int2 x rd ra s fun a => boolD (a.ult (imm.signExtend 64))

/-- ANDI: and with the zero-extended immediate. -/
def execAndi (x : Issue) (rd ra : Fin 32) (imm : BitVec 16) (s : State) : Host.Outcome State Fault Refusal :=
  int2 x rd ra s fun a => a &&& imm.zeroExtend 64

/-- ORI: or with the zero-extended immediate. -/
def execOri (x : Issue) (rd ra : Fin 32) (imm : BitVec 16) (s : State) : Host.Outcome State Fault Refusal :=
  int2 x rd ra s fun a => a ||| imm.zeroExtend 64

/-- XORI: exclusive or with the zero-extended immediate. -/
def execXori (x : Issue) (rd ra : Fin 32) (imm : BitVec 16) (s : State) : Host.Outcome State Fault Refusal :=
  int2 x rd ra s fun a => a ^^^ imm.zeroExtend 64

/-- SHLI: shift by the immediate. -/
def execShli (x : Issue) (rd ra : Fin 32) (n : Fin 64) (s : State) : Host.Outcome State Fault Refusal :=
  int2 x rd ra s fun a => a <<< n.val

/-- SHRI: shift by the immediate. -/
def execShri (x : Issue) (rd ra : Fin 32) (n : Fin 64) (s : State) : Host.Outcome State Fault Refusal :=
  int2 x rd ra s fun a => a >>> n.val

/-- SARI: shift by the immediate. -/
def execSari (x : Issue) (rd ra : Fin 32) (n : Fin 64) (s : State) : Host.Outcome State Fault Refusal :=
  int2 x rd ra s fun a => a.sshiftRight n.val

/-- LUI: the sign-extended immediate times 2^11. -/
def execLui (x : Issue) (rd : Fin 32) (imm : BitVec 21) (s : State) : Host.Outcome State Fault Refusal :=
  issueG x s rd fun _ => (imm.signExtend 64 <<< 11, 0)

end Sys2Proof.Machine
end

