-- ==== Sys2Proof/Machine/Rtc.lean ====
section
/-!
DEFINITION. The real-time clock (14). The resonator is outside the block: second edges, countdown seconds, command
edges and the prescaler at an edge come with the commands.
-/
namespace Sys2Proof.Machine

/-! ### The calendar (R362 to R366) -/

/-- RTC_STATUS.OSF set (R361, R362). -/
def setOsf (s : State) : State := setF s F.RTC_STATUS_OSF 1

/-- The calendar replaced. -/
def modRtc (s : State) (f : Rtc → Rtc) : State := { s with rtc := f s.rtc }

/-- The first second of the next day, with the weekday carried (R362, R365). -/
def nextDay (r : Rtc) : Rtc :=
  let r : Rtc := { r with hour := 0, min := 0, sec := 0, wday := (r.wday + 1) % 7 }
  if r.day < monthDays r.year r.month then { r with day := r.day + 1 }
  else if r.month < 12 then { r with day := 1, month := r.month + 1 }
  else { r with day := 1, month := 1, year := if r.year < 2999 then r.year + 1 else 2000 }

/-- The calendar one second on. -/
def nextSecond (r : Rtc) : Rtc :=
  if r.sec < 59 then { r with sec := r.sec + 1 }
  else if r.min < 59 then { r with sec := 0, min := r.min + 1 }
  else if r.hour < 23 then { r with sec := 0, min := 0, hour := r.hour + 1 }
  else nextDay r

/-- The last second of the day before, with the weekday moved back (R365, R366). -/
def prevDay (r : Rtc) : Rtc :=
  let r : Rtc := { r with hour := 23, min := 59, sec := 59, wday := (r.wday + 6) % 7 }
  if 1 < r.day then { r with day := r.day - 1 }
  else if 1 < r.month then { r with month := r.month - 1, day := monthDays r.year (r.month - 1) }
  else { r with month := 12, day := 31, year := if 2000 < r.year then r.year - 1 else 2999 }

/-- The calendar one second back. -/
def prevSecond (r : Rtc) : Rtc :=
  if 0 < r.sec then { r with sec := r.sec - 1 }
  else if 0 < r.min then { r with sec := 59, min := r.min - 1 }
  else if 0 < r.hour then { r with sec := 59, min := 59, hour := r.hour - 1 }
  else prevDay r

/-- The last second before the calendar's carry from 2999 to 2000. -/
def atEra (r : Rtc) : Bool := r.year = 2999 && r.month = 12 && r.day = 31 && r.hour = 23 && r.min = 59 && r.sec = 59

/-! ### The alarm (R370, R371) -/

/-- A masked comparison. -/
def almField (mask bit v w : Nat) : Bool := !mask.testBit bit || v = w

/-- The date fields match. -/
def almDate (s : State) (y m d : Nat) : Bool :=
  let k := getF s F.RTC_ALM_DATE_MASK
  almField k 2 (getF s F.RTC_ALM_DATE_YEAR) y && almField k 1 (getF s F.RTC_ALM_DATE_MONTH) m &&
    almField k 0 (getF s F.RTC_ALM_DATE_DAY) d

/-- The time fields match. -/
def almTime (s : State) (h mi se : Nat) : Bool :=
  let k := getF s F.RTC_ALM_TIME_MASK
  almField k 2 (getF s F.RTC_ALM_TIME_HOUR) h && almField k 1 (getF s F.RTC_ALM_TIME_MIN) mi &&
    almField k 0 (getF s F.RTC_ALM_TIME_SEC) se

/-- The alarm is enabled and the calendar's second matches. -/
def almMatch (s : State) (r : Rtc) : Bool :=
  flag s F.RTC_ALM_DATE_EN && almDate s r.year r.month r.day && almTime s r.hour r.min r.sec

/-- A matching second lies after one calendar and before another. -/
def almPassed (s : State) (a b : Rtc) : Bool :=
  flag s F.RTC_ALM_DATE_EN && rtcSeconds a < rtcSeconds b &&
  (List.range (b.year + 1 - a.year)).any fun dy => (List.range 12).any fun m => (List.range 31).any fun d =>
    let y := a.year + dy
    d < monthDays y (m + 1) && almDate s y (m + 1) (d + 1) &&
    (List.range 24).any fun h => (List.range 60).any fun mi => (List.range 60).any fun se =>
      almTime s h mi se &&
      let t := rtcSeconds { a with year := y, month := m + 1, day := d + 1, hour := h, min := mi, sec := se }
      rtcSeconds a < t && t < rtcSeconds b

/-- The alarm fires. -/
def almFire (s : State) : State := raiseIrq (setF s F.RTC_EVENTS_ALM 1) 56

/-- The alarm fires at an adjustment (R371). -/
def almSkip (s : State) : State := almFire (setF s F.RTC_EVENTS_ALM_SKIPPED 1)

/-- The calendar adjusted from `a` to the present one. -/
def almAdjusted (s : State) (a : Rtc) : State := if almMatch s s.rtc || almPassed s a s.rtc then almSkip s else s

/-- The calendar carried on by an adjustment, past `past` where a second was left out (R371). -/
def almCarried (s : State) (past : Option Rtc) : State :=
  if almMatch s s.rtc || past.any (almMatch s) then almSkip s else s

/-! ### The countdown (R372) -/

/-- The countdown's second ends; at zero it stops. -/
def countSecond (s : State) : State :=
  let s := modRtc s fun r => { r with cnt := r.cnt - 1 }
  if s.rtc.cnt = 0 then raiseIrq (setF (setF s F.RTC_STATUS_CNT_RUN 0) F.RTC_EVENTS_CNT_ZERO 1) 57 else s

/-- Raw pulses pass, at most one second of them: the countdown's own prescaler counts them while it runs. -/
def countPulses (s : State) (n : Nat) : State :=
  if !flag s F.RTC_STATUS_CNT_RUN then s
  else if s.rtc.cntPre + n < 32768 then modRtc s fun r => { r with cntPre := r.cntPre + n }
  else countSecond (modRtc s fun r => { r with cntPre := r.cntPre + n - 32768 })

/-! ### Trim (R373) -/

/-- The trim in force: TRIM_N, and the raw pulses L of a window. -/
def trimN (s : State) : Int := sInt 16 (getF s F.RTC_TRIM_TRIM_N)
def trimL (s : State) : Nat := 32768 * getF s F.RTC_TRIM_TRIM_WIN

/-- What the first `p` raw pulses of a window move the prescaler by: a pulse is doubled or skipped where
⌊(p + 1)·n / L⌋ exceeds ⌊p·n / L⌋. -/
def trimmed (n : Int) (l p : Nat) : Int := p + n.sign * (p * n.natAbs / l : Nat)

/-- The fewest raw pulses after pulse `r` that move the prescaler by at least `d`. As n ≤ L / 32, they lie within five
of (d − 1)·L / (L + TRIM_N). -/
def pulsesFor (n : Int) (l r d : Nat) : Nat :=
  let k := ((d - 1) * l : Nat) / ((l : Int) + n).toNat
  (((List.range 6).map (k + ·)).find? fun k => (d : Int) ≤ trimmed n l (r + k) - trimmed n l r).getD (k + 5)

/-- The raw pulses that move the prescaler by `d`. -/
def pulsesTo (s : State) (d : Nat) : Nat := if d = 0 then 0 else pulsesFor (trimN s) (trimL s) s.rtc.raw d

/-- How far the next `n` raw pulses move the prescaler. -/
def movedBy (s : State) (n : Nat) : Nat :=
  (trimmed (trimN s) (trimL s) (s.rtc.raw + n) - trimmed (trimN s) (trimL s) s.rtc.raw).toNat

/-- Raw pulses pass in the window, and in the countdown. -/
def rawPulses (s : State) (n : Nat) : State :=
  countPulses (modRtc s fun r => { r with raw := (r.raw + n) % max 1 (trimL s) }) n

/-- The resonator ran until the prescaler showed `sub` within the same second; within it the prescaler never goes back from
what the latest second edge, SET, SHIFT or capture left (R363). -/
def runTo (s : State) (sub : Nat) : State :=
  modRtc (rawPulses s (pulsesTo s (sub - s.rtc.sub))) fun r => { r with sub := max r.sub sub }

/-! ### The second edge (R363, R367) -/

/-- Leap seconds of LEAP_ARM. -/
def lpINS : Nat := 1
def lpDEL : Nat := 2

/-- A carry into a new day ends an arming that was not applied, as it held for the day before (R367). -/
def leapDay (s : State) (d : Nat) : State := if s.rtc.day = d then s else setF s F.RTC_STATUS_LEAP_ARM 0

/-- One pulse of the resonator in units of 2⁻³⁹ ns. -/
def pulseUnits : Int := 1000000000 * 2 ^ 24

/-- The prescaler passes from 32 767 to 0, or to 1 where the pulse that takes it there is doubled (R373). -/
def wrapPrescaler (s : State) : State :=
  let n := pulsesTo s (32768 - s.rtc.sub)
  let sub := movedBy s n - (32768 - s.rtc.sub)
  modRtc (rawPulses s n) fun r => { r with edge := s.tim.tb0 - sub * pulseUnits, sub := sub }

/-- What a carry of the prescaler does to the calendar: its next second, the leap second that holds it, or the new day after
a second left out. -/
inductive Carry where
  | next
  | held
  | left
  deriving DecidableEq, Repr

/-- The carry that is due, by the leap second armed (R367). -/
def carryOf (s : State) : Carry :=
  let r := s.rtc
  let late := r.hour = 23 && r.min = 59
  if late && r.sec = 59 && getF s F.RTC_STATUS_LEAP_ARM = lpINS && !flag s F.RTC_STATUS_LEAP_SEC then .held
  else if late && r.sec = 58 && getF s F.RTC_STATUS_LEAP_ARM = lpDEL then .left
  else .next

/-- The calendar carried on by one second, whether by counting or by a shift (R362, R366, R367). -/
def carrySecond (s : State) : State :=
  let r := s.rtc
  match carryOf s with
  | .held => setF (setF s F.RTC_STATUS_LEAP_SEC 1) F.RTC_STATUS_LEAP_ARM 0
  | .left =>
    let s := if atEra { r with sec := 59 } then setOsf s else s
    setF (modRtc s nextDay) F.RTC_STATUS_LEAP_ARM 0
  | .next =>
    let s := if atEra r then setOsf s else s
    leapDay (setF (modRtc s nextSecond) F.RTC_STATUS_LEAP_SEC 0) r.day

/-- The prescaler wraps: the calendar enters its next second, or holds for an inserted leap second (R363, R370, R371). -/
def secondEdge (s : State) : State :=
  let s := wrapPrescaler s
  let t := carrySecond s
  match carryOf s with
  | .held => t
  | .left => almCarried t (some { s.rtc with sec := 59 })
  | .next => if almMatch t t.rtc then almFire t else t

/-- RTC_SECOND_EDGE (R363). -/
def execRtcSecondEdge (s : State) : Host.Outcome State Fault Refusal := .next (secondEdge s)

/-! ### Writes (R368, R373, R377) -/

/-- A field in a range. -/
def within (lo hi v : Nat) : Bool := lo ≤ v && v ≤ hi

/-- The values that the RTC registers discard. -/
def rtcBad (s : State) (a : Nat) (v : Nat) : Bool :=
  if a = R.RTC_ALM_DATE then !(within 2000 2999 (bitsOf 27 16 v) && within 1 12 (bitsOf 11 8 v) && within 1 31 (bitsOf 4 0 v))
  else if a = R.RTC_ALM_TIME then !(bitsOf 20 16 v ≤ 23 && bitsOf 13 8 v ≤ 59 && bitsOf 5 0 v ≤ 59)
  else if a = R.RTC_SHIFT then v % 65536 = 0x8000
  else if a = R.RTC_CMD then 10 ≤ v % 16 || (v % 16 = 7 && getF s F.RTC_CNT_LOAD_SECONDS = 0)
  else if a = R.RTC_MEAS_CFG then bitsOf 17 16 v = 0 || bitsOf 17 16 v = 3 || v % 65536 = 0
  else if a = R.RTC_TRIM then v % 65536 = 0 || 1024 * (v % 65536) < (sInt 16 (v / 65536)).natAbs
  else false

/-- RTC_DATE, RTC_TIME, RTC_SUB and RTC_CNT_VAL show the calendar and a prescaler value (R369). -/
def rtcCapture (s : State) (sub : Nat) : State :=
  let s := runTo s sub
  let r := s.rtc
  let s := setF (setF (setF s F.RTC_DATE_YEAR r.year) F.RTC_DATE_MONTH r.month) F.RTC_DATE_DAY r.day
  let s := setF (setF (setF s F.RTC_TIME_WDAY r.wday) F.RTC_TIME_HOUR r.hour) F.RTC_TIME_MIN r.min
  setF (setF (setF s F.RTC_TIME_SEC r.sec) F.RTC_SUB_VALUE r.sub) F.RTC_CNT_VAL_VALUE r.cnt

/-- A write to an RTC register; `sub` is the prescaler, for a capture and at the edge that starts a trim window. -/
def rtcWrite (s : State) (a : Nat) (v : Word) (sub : Nat) : State :=
  if a = R.RTC_EVENTS then plainWrite s a v
  else if a = R.RTC_SNAP then checkedWrite s a v fun s => if v.getLsbD 0 then rtcCapture s sub else s
  else if flag s F.RTC_STATUS_BUSY || rtcBad s a v.toNat then cfgErr s
  else if a = R.RTC_CMD then checkedWrite s a v fun s =>
    setF (modRtc s fun r => { r with cmd := some (v.toNat % 16) }) F.RTC_STATUS_BUSY 1
  else if a = R.RTC_TRIM then checkedWrite s a v fun s => modRtc (plainWrite (runTo s sub) a v) fun r => { r with raw := 0 }
  else plainWrite s a v

/-- A write to RTC_CMD. -/
def rtcCommand (s : State) (c : Nat) : State := rtcWrite s R.RTC_CMD (BitVec.ofNat 32 c) 0

/-- RTC_SET: SET waits for its resonator edge (R364, R368). -/
def execRtcSet (s : State) : Host.Outcome State Fault Refusal := .next (rtcCommand s 1)
/-- RTC_SHIFT (R366). -/
def execRtcShift (s : State) : Host.Outcome State Fault Refusal := .next (rtcCommand s 2)
/-- SET_WDAY (R365). -/
def execSetWday (s : State) : Host.Outcome State Fault Refusal := .next (rtcCommand s 3)
/-- LEAP_INS (R367). -/
def execLeapIns (s : State) : Host.Outcome State Fault Refusal := .next (rtcCommand s 4)
/-- LEAP_DEL (R367). -/
def execLeapDel (s : State) : Host.Outcome State Fault Refusal := .next (rtcCommand s 5)
/-- LEAP_CANCEL (R367). -/
def execLeapCancel (s : State) : Host.Outcome State Fault Refusal := .next (rtcCommand s 6)
/-- COUNT_START (R372). -/
def execCountStart (s : State) : Host.Outcome State Fault Refusal := .next (rtcCommand s 7)
/-- COUNT_STOP (R372). -/
def execCountStop (s : State) : Host.Outcome State Fault Refusal := .next (rtcCommand s 8)
/-- MEAS_START (R374). -/
def execMeasStart (s : State) : Host.Outcome State Fault Refusal := .next (rtcCommand s 9)

/-- RTC_SNAP (R369). -/
def execRtcSnap (sub : Fin 32768) (s : State) : Host.Outcome State Fault Refusal := .next (rtcWrite s R.RTC_SNAP 1 sub.val)

/-- TRIM_WRITE (R373): `sub` is the prescaler at the resonator edge that starts the window. -/
def execTrimWrite (v : BitVec 32) (sub : Fin 32768) (s : State) : Host.Outcome State Fault Refusal :=
  .next (rtcWrite s R.RTC_TRIM v sub.val)

/-! ### Commands at their edge (R364 to R368, R372, R374) -/

/-- A command refused for its value (R364, R365). -/
def dateErr (s : State) : State := evBit s F.RTC_EVENTS_DATE_ERR 3 []

/-- The staged date and time as a calendar. -/
def staged (s : State) : Rtc :=
  { s.rtc with year := getF s F.RTC_SET_DATE_YEAR, month := getF s F.RTC_SET_DATE_MONTH, day := getF s F.RTC_SET_DATE_DAY,
               hour := getF s F.RTC_SET_TIME_HOUR, min := getF s F.RTC_SET_TIME_MIN, sec := getF s F.RTC_SET_TIME_SEC,
               sub := 0, edge := s.tim.tb0 }

/-- A calendar is a date and time of R364. -/
def dateOk (r : Rtc) : Bool :=
  within 2000 2999 r.year && within 1 12 r.month && within 1 (monthDays r.year r.month) r.day && r.hour ≤ 23 && r.min ≤ 59 &&
    r.sec ≤ 59

/-- SET. -/
def rtcSet (s : State) : State :=
  let r := staged s
  if !dateOk r then dateErr s
  else
    let old := s.rtc
    let s := setF (setF (setF s F.RTC_STATUS_OSF 0) F.RTC_STATUS_LEAP_ARM 0) F.RTC_STATUS_LEAP_SEC 0
    almAdjusted { s with rtc := r } old

/-- SHIFT: the prescaler moves, and a carry or borrow moves the calendar as counting would (R366, R367, R371). -/
def rtcShift (s : State) : State :=
  let n := sInt 16 (getF s F.RTC_SHIFT_PULSES)
  let p := (s.rtc.sub : Int) + n
  let move := fun (s : State) (k : Int) => modRtc s fun r =>
    { r with sub := (p - 32768 * k).toNat, edge := r.edge - (n - 32768 * k) * pulseUnits }
  if 32768 ≤ p then
    let t := move (carrySecond s) 1
    match carryOf s with
    | .held => t
    | .left => almCarried t (some { s.rtc with sec := 59 })
    | .next => almCarried t none
  else if p < 0 then move (setF (modRtc s prevSecond) F.RTC_STATUS_LEAP_SEC 0) (-1)
  else move s 0

/-- The effect of a command. -/
def rtcEffect (s : State) (c : Nat) : State :=
  match c with
  | 1 => rtcSet s
  | 2 => rtcShift s
  | 3 => if getF s F.RTC_SET_TIME_WDAY = 7 then dateErr s else modRtc s fun r => { r with wday := getF s F.RTC_SET_TIME_WDAY }
  | 4 => setF s F.RTC_STATUS_LEAP_ARM lpINS
  | 5 => setF s F.RTC_STATUS_LEAP_ARM lpDEL
  | 6 => setF s F.RTC_STATUS_LEAP_ARM 0
  | 7 => setF (modRtc s fun r => { r with cnt := getF s F.RTC_CNT_LOAD_SECONDS, cntPre := 0 }) F.RTC_STATUS_CNT_RUN 1
  | 8 => setF s F.RTC_STATUS_CNT_RUN 0
  | 9 => setF (modRtc s fun r => { r with measAt := tb0Ns s, measFrom := nowNs s, crossings := 0 }) F.RTC_STATUS_MEAS_RUN 1
  | _ => s

/-- A SET that the runtime staged for a TB1 second waits for it (R375). -/
def setWaits (s : State) (c : Nat) : Bool := c = 1 && s.rtc.setAt.any fun t => nowNs s < t

/-- RTC_COMMAND_EFFECT (R368): `sub` is the prescaler at the edge. -/
def execRtcCommandEffect (sub : Fin 32768) (s : State) : Host.Outcome State Fault Refusal :=
  .next (match s.rtc.cmd with
    | none => s
    | some c =>
      if setWaits s c then s
      else
        let s := setF (modRtc (runTo s sub.val) fun r => { r with cmd := none, setAt := none }) F.RTC_STATUS_BUSY 0
        rtcEffect s c)

/-! ### Countdown and measurement (R372, R374) -/

/-- COUNTDOWN_SECOND (R372): the countdown's prescaler wraps, where it does so before the prescaler of the calendar. -/
def execCountdownSecond (s : State) : Host.Outcome State Fault Refusal :=
  .next (
    let n := 32768 - s.rtc.cntPre
    if flag s F.RTC_STATUS_CNT_RUN && n < pulsesTo s (32768 - s.rtc.sub) then
      modRtc (rawPulses s n) fun r => { r with sub := r.sub + movedBy s n }
    else s)

/-- The runtime disciplines the RTC now (R375). -/
def rtcAuto (s : State) : Bool := s.runtimeUp && flag s F.RTC_MEAS_CFG_AUTO && flag s F.TIM_STATUS_SEALED && tb1Locked s

/-- A quotient rounded half to even. -/
def divHalfEven (num : Int) (den : Nat) : Int :=
  let q := num / (den : Int)
  let r := num % (den : Int)
  if 2 * r < den then q else if (den : Int) < 2 * r then q + 1 else q + q % 2

/-- The trim that a measurement gives (R375). -/
def learnTrim (s : State) (count sub : Nat) : State :=
  let m := getF s F.RTC_MEAS_CFG_MEAS_S
  let d := (32768 * m : Int) - count
  let (n, w) : Int × Nat := if d.natAbs ≤ 32767 then (d, m)
    else let w := 32767 * m / d.natAbs; (divHalfEven (d * w) m, w)
  rtcWrite s R.RTC_TRIM (BitVec.ofNat 32 (uNat 16 n * 65536 + w)) sub

/-- A measurement abandoned. -/
def measAbandon (s : State) : State := setF (setF s F.RTC_STATUS_MEAS_RUN 0) F.RTC_EVENTS_MEAS_ERR 1

/-- A measurement that runs is to be abandoned (R374). -/
def measFails (s : State) : Bool :=
  s.rtc.measAt + 2000000000 * getF s F.RTC_MEAS_CFG_MEAS_S ≤ tb0Ns s ||
    (getF s F.RTC_MEAS_CFG_REF = 2 && !tb1Locked s) || flag s F.PWR_STATUS_FROZEN

/-- The reference interval is complete: MEAS_S·f periods of phase a, or MEAS_S seconds from the first second edge of TB1 after
the start (R374). -/
def measComplete (s : State) : Bool :=
  let m := getF s F.RTC_MEAS_CFG_MEAS_S
  if getF s F.RTC_MEAS_CFG_REF = 1 then decide (m * fNom s < s.rtc.crossings)
  else decide ((s.rtc.measFrom / 1000000000 + 1 + m) * 1000000000 ≤ nowNs s)

/-- The trim that a measurement gave is written once no command is under way, and the next measurement starts (R375). -/
def trimNow (s : State) (sub : Nat) : State :=
  match s.rtc.trimDue with
  | some n =>
    if flag s F.RTC_STATUS_BUSY then s else rtcCommand (learnTrim (modRtc s fun r => { r with trimDue := none }) n sub) 9
  | none => s

/-- MEAS_DONE (R374): the raw pulses of the interval; the runtime trims, at prescaler `sub`, and measures again (R375). -/
def execMeasDone (count : BitVec 32) (sub : Fin 32768) (s : State) : Host.Outcome State Fault Refusal :=
  .next (if !flag s F.RTC_STATUS_MEAS_RUN then s
    else if measFails s then measAbandon s
    else if !measComplete s then s
    else
      let s := setF (setF (setReg s R.RTC_MEAS_RES count) F.RTC_STATUS_MEAS_RUN 0) F.RTC_EVENTS_MEAS_DONE 1
      if rtcAuto s && getF s F.RTC_MEAS_CFG_REF = 2 then
        trimNow (modRtc s fun r => { r with trimDue := some count.toNat }) sub.val
      else s)

/-- MEAS_ERR (R374). -/
def execMeasErr (s : State) : Host.Outcome State Fault Refusal :=
  .next (if flag s F.RTC_STATUS_MEAS_RUN && measFails s then measAbandon s else s)

/-- OSCILLATOR_STOPPED (R361). -/
def execOscillatorStopped (s : State) : Host.Outcome State Fault Refusal := .next (setOsf s)

/-! ### Discipline (R375) -/

/-- The staged registers for a UTC second. -/
def stageSecond (s : State) (t : Nat) : State :=
  let day := t / 86400
  let sec := t % 86400
  -- the year, then the month, that hold the day
  let y := ((List.range 1000).foldl (fun y i => if yearDays (2000 + i) ≤ day then 2000 + i else y) 2000)
  let n := day - yearDays y
  let m := ((List.range 12).foldl (fun m i => if dayOfYear y (i + 1) 1 ≤ n then i + 1 else m) 1)
  let d := n - dayOfYear y m 1 + 1
  let s := rtcWrite s R.RTC_SET_DATE (BitVec.ofNat 32 (y * 65536 + m * 256 + d)) 0
  rtcWrite s R.RTC_SET_TIME (BitVec.ofNat 32 (getF s F.RTC_SET_TIME_WDAY * 2 ^ 24 + sec / 3600 * 65536 + sec / 60 % 60 * 256 + sec % 60)) 0

/-- The leap second that the source domain announces: 0 none, 1 insert, 2 delete; none where no domain is the
source. -/
def announcedLeap (s : State) : Option Nat :=
  let dom := if tbSrc s = srcA then some s.tim.domA else if tbSrc s = srcB then some s.tim.domB else none
  let port := getFi s F.TIM_DOM_STAT_PORT (tbSrc s - 1)
  dom.bind fun d => d.master.bind fun src => (d.masters.find? fun x => x.src = src && x.port = port).map (·.leap)

/-- Arming and disarming by the Announce, or else the next measurement. -/
def disciplineRest (s : State) : State :=
  let arm := getF s F.RTC_STATUS_LEAP_ARM
  match announcedLeap s with
  | some k =>
    if k ≠ arm && !flag s F.RTC_STATUS_LEAP_SEC then rtcCommand s (if k = 0 then 6 else k + 3)
    else if flag s F.RTC_STATUS_MEAS_RUN || getF s F.RTC_MEAS_CFG_REF ≠ 2 then s else rtcCommand s 9
  | none => if flag s F.RTC_STATUS_MEAS_RUN || getF s F.RTC_MEAS_CFG_REF ≠ 2 then s else rtcCommand s 9

/-- A SET for the target second `t` of UTC: it is staged, and issued at the last tick before that second, at which it takes
effect with the prescaler at 0 (R375; DESIGN CHOICE, log 74). -/
def setAtSecond (s : State) (t : Nat) : State :=
  let at_ := (((t : Int) + s.cfg.taiOffset) * 1000000000).toNat
  let s := stageSecond s t
  if at_ ≤ nowNs s + tickNs then rtcCommand (modRtc s fun r => { r with setAt := some at_ }) 1 else s

/-- RTC_DISCIPLINE (R375): one command at a time. -/
def execRtcDiscipline (s : State) : Host.Outcome State Fault Refusal :=
  .next (if !rtcAuto s || flag s F.RTC_STATUS_BUSY then s
    else if s.rtc.trimDue.isSome then trimNow s s.rtc.sub
    else
      let target : Int := (nowNs s : Int) - s.cfg.taiOffset * 1000000000
      let off : Int := (tb5Ns s : Int) - target
      if 1000000000 ≤ off.natAbs then setAtSecond s (target.toNat / 1000000000 + 1)
      else
        let n := divHalfEven (-off * 32768) 1000000000
        if 500000 ≤ off.natAbs && n.natAbs ≤ 32767 then
          rtcCommand (rtcWrite s R.RTC_SHIFT (BitVec.ofNat 32 (uNat 16 n)) 0) 2
        else disciplineRest s)

/-- BACKUP_SOURCE_CHANGE (R360). -/
def execBackupSourceChange (vbak : Bool) (s : State) : Host.Outcome State Fault Refusal :=
  .next (setF s F.RTC_STATUS_VSRC (bNat vbak))

end Sys2Proof.Machine
end

