-- ==== Sys2Proof/Machine/RegWrite.lean ====
section
/-!
DEFINITION. A store to a control-space register with the effect that the register's own rule gives it, and the commands
that are such stores or reads (00 R6 to R13).
-/
namespace Sys2Proof.Machine

/-! ### CTRL registers -/

/-- The block has a CLR_CNT bit in its CTRL (R302, R335, R337, ...). -/
def clearsAt (a : Nat) : Bool :=
  (regDefAt a).any fun r => r.fields.any fun f => f.kind = .wo && f.lo = 2

/-- What bit 1 of a block's CTRL does: CANCEL_STUDY (R88), CLR_SAT (R127) and CLR_MAX (R269). -/
def ctrlBit1 (s : State) (a : Nat) : State :=
  if a = R.NSA_CTRL then cancelStudies s
  else if a = R.LPE_CTRL then clearSticky s
  else if a = R.SCN_CTRL then forAll s (List.range 16) fun s t => setFi s F.SCN_TASK_MAX_VALUE t 0
  else s

/-- A write to a block's CTRL: LOCK, CLR_CNT, and the block's own bits. -/
def ctrlWrite (s : State) (a : Nat) (v : Word) : State :=
  checkedWrite s a v fun s =>
    let s := plainWrite s a v
    let s := if v.getLsbD 1 then ctrlBit1 s a else s
    let s := if v.getLsbD 2 && clearsAt a then clearCounters s a else s
    if a = R.DPO_CTRL then ctrlWritten s else s

/-! ### Registers whose range has a rule -/

/-- NSA_ALLOC with HYD = 0, LPE_CFG.MAX_LOAD and SCN_CFG.WDOG_US out of range (R88, R136, R269). -/
def rangeBad (s : State) (a n : Nat) : Bool :=
  if a = R.NSA_ALLOC then bitsOf 7 0 n = 0
  else if a = R.LPE_CFG then
    bitsOf 8 0 n = 0 || 500 < bitsOf 8 0 n || bitsOf 8 0 n < getF s F.LPE_STATUS_PEAK_LOAD
  else if a = R.SCN_CFG then bitsOf 9 0 n < 5 || 1000 < bitsOf 9 0 n
  else false

/-- The sticky flags of a loop cleared by writing ones, and its bit of LPE_SAT_SUM (R127). -/
def loopStatWrite (s : State) (a : Nat) (v : Word) : State :=
  showSatSum (plainWrite s a v) ((a - F.LPE_LOOP_STAT_MODE.addr) / 4)

/-! ### By block -/

def sysRegWrite (s : State) (a : Nat) (v : Word) : State :=
  if a = R.SYS_RESET then resetWrite s v else plainWrite s a v

def clkWrite (s : State) (a : Nat) (v : Word) : State :=
  if a = R.CLK_SRC then clkSrcWrite s v
  else if a = R.CLK_GATE_PERI then gatePeriWrite s v
  else if a = R.CLK_GATE_ENG then gateEngWrite s v
  else plainWrite s a v

def lpeWrite (s : State) (a : Nat) (v : Word) : State :=
  if 0x1000 ≤ offOf a && offOf a < 0x1800 && a % 4 = 0 then loopStatWrite s a v else plainWrite s a v

/-- RED: the keeper's register, the commands and the configuration (R276, R302). -/
def redWrite (s : State) (a : Nat) (v : Word) (pcie : Bool) : State :=
  if a = R.RED_REFRESH then checkedWrite s a v fun s => keeperRefresh s (v.toNat % 256) pcie
  else if a = R.RED_CMD then redCmdWrite s v
  else if a = R.RED_CFG || a = R.RED_STALE || a = R.RED_KEEPER then redCfgWrite s a v
  else plainWrite s a v

def sesWrite (s : State) (a : Nat) (v : Word) : State :=
  if a = R.SES_SEL then writeSesSel s v
  else if a = R.SES_CFG || a = R.SES_CFG2 then writeSesCfg s a v
  else plainWrite s a v

/-- EVR: a search, a capture, and the host's acknowledgement, which lets further records go (R451, R452). -/
def evrWrite (s : State) (a : Nat) (v : Word) : State :=
  if a = R.EVR_SEEK_HI then writeSeek s v
  else if a = R.EVR_RD_SEL then writeEvrRdSel s v
  else if a = R.EVR_HOST_ACK_LO || a = R.EVR_HOST_ACK_HI then qhcPump (plainWrite s a v)
  else plainWrite s a v

/-- What a store to a control-space register does that R9 to R11 let through. Where its effect rests on the resonator's
phase or on a frame's being on the bus, which the state does not hold, that is a free value (R369, R373, R383, R390). -/
def ctlAction (s : State) (pcie : Bool) (a : Nat) (v : Word) : State :=
  let b := blockOf a
  if b = 0x0C then
    (if a = R.RTC_SNAP || a = R.RTC_TRIM then rtcWrite (takeFree s).2 a v ((takeFree s).1 % 32768) else rtcWrite s a v 0)
  else if b = 0x0D then
    (if offOf a % 0x4000 = 0x74 || offOf a % 0x4000 = 0x08 then canWrite (takeFree s).2 a v ((takeFree s).1 % 2 = 1)
      else canWrite s a v false)
  else if b = 0x0E then
    (if offOf a % 0x400 = 0x74 && offOf a < 0x1000 then uartWrite (takeFree s).2 a v ((takeFree s).1 % 2 = 1)
      else uartWrite s a v false)
  else if offOf a = 0 then ctrlWrite s a v
  else if rangeBad s a v.toNat then cfgErr s
  else match b with
    | 0x00 => sysRegWrite s a v
    | 0x01 => clkWrite s a v
    | 0x05 => lpeWrite s a v
    | 0x06 => if a = R.MTR_RD_SEL then writeRdSel s v else plainWrite s a v
    | 0x07 => if a = R.SCN_FORCE_CMD then forceCmdWrite s v else plainWrite s a v
    | 0x08 => redWrite s a v pcie
    | 0x09 => sesWrite s a v
    | 0x0A => if 0x100 ≤ offOf a && offOf a < 0x300 then chkWrite s a v else plainWrite s a v
    | 0x0B => timWrite s a v
    | 0x0F => fioWrite s a v
    | 0x12 => evrWrite s a v
    | _ => plainWrite s a v

/-- A setting that a standby takes from the active module goes to it when it changes (R335, R359, R415). -/
def shareSetting (old s : State) (a : Nat) : State :=
  if roleOf s = roACTIVE && sharedSettings.contains a && getReg s a != getReg old a then
    furovSend s (.state (.settings [(a, getReg s a)]))
  else s

/-- A store to a control-space register that passed the bus checks: discarded whole under R9 to R11, else its action. -/
def ctlStoreFrom (s : State) (pcie : Bool) (a : Nat) (v : Word) : State :=
  checkedWrite s a v fun s => shareSetting s (ctlAction s pcie a v) a

/-- A store by supervisor code. -/
def ctlStore (s : State) (a : Nat) (v : Word) : State := ctlStoreFrom s false a v

/-- A store of `size` bytes to an address of the control space, by a system core or from the PCIe side (R6, R11, R461,
R486, R490, R491). -/
def regStore (s : State) (pcie : Bool) (a size : Nat) (v : Word) : State :=
  if ctlBusErr s pcie a size then busErr s a else ctlStoreFrom s pcie a v

/-- The CTRL register of a block, of a CAN channel, or of the UARTs (R396, R397, R492). -/
def ctrlOf (b n : Nat) : Nat :=
  ctlBase + b * 0x10000 + (if b = 0x0D then n * 0x4000 else if b = 0x0E then 0x1000 else 0)

/-! ### The commands -/

/-- REGISTER_WRITE: by field type, with the checks of R6 and R9 to R11 and the register's own rule. -/
def execRegisterWrite (a : BitVec 64) (v : BitVec 32) (size : Fin 9) (pcie : Bool) (s : State) :
    Host.Outcome State Fault Refusal :=
  .next (regStore s pcie a.toNat size.val v)

/-- LOCK: a one written to LOCK of the CTRL of a block (R10); where the block has none, bit 8 is reserved (R9). -/
def execLock (b : Fin 22) (n : Fin 4) (s : State) : Host.Outcome State Fault Refusal :=
  .next (regStore s false (ctrlOf b.val n.val) 4 0x100)

/-- CLEAR_COUNTERS: a one written to CLR_CNT of the CTRL of a block (R88); the RW bits of DPO_CTRL keep their values. -/
def execClearCounters (b : Fin 22) (n : Fin 4) (s : State) : Host.Outcome State Fault Refusal :=
  .next (regStore s false (ctrlOf b.val n.val) 4
    (if b.val = 0x04 then BitVec.ofNat 32 (4 + (getReg s R.DPO_CTRL).toNat % 4) else 4))

/-- CLR_MAX (R269). -/
def execClrMax (s : State) : Host.Outcome State Fault Refusal := .next (regStore s false R.SCN_CTRL 4 2)

/-- CANCEL_STUDY (R88). -/
def execCancelStudy (s : State) : Host.Outcome State Fault Refusal := .next (regStore s false R.NSA_CTRL 4 2)

/-- LO_REGISTER_READ: a read of a register; a _LO latches its _HI word, which the next read of _HI returns (R7). -/
def execLoRegisterRead (a : BitVec 64) (size : Fin 9) (pcie : Bool) (s : State) : Host.Outcome State Fault Refusal :=
  .next (if ctlBusErr s pcie a.toNat size.val then busErr s a.toNat else (readReg s a.toNat).2)

end Sys2Proof.Machine
end

