-- ==== Sys2Proof/Machine/IrtumMem.lean ====
section
/-!
DEFINITION. Loads, stores and atomic instructions (08 R201 R205), in scan mode over the windows of R170 and in
supervisor mode over physical addresses (07 R172, 21 R485 to R488).
-/
namespace Sys2Proof.Machine

/-! ### Supervisor mode -/

/-- A supervisor load of `n` bytes by a core (R172, R485, R486). -/
def supLoad (s : State) (c : Fin 6) (ad : Dword) (n : Nat) : Except Exc (State × Nat) :=
  let a := ad.toNat
  if a % n ≠ 0 then .error (excALIGN n ad)
  else if a ≥ 2 ^ 40 then .error (excACCESS 1 ad)
  else if !supReads c (regionOf a) then .error (excBUS ad)
  else match regionOf a with
    | .ctl =>
      if ctlBusErr s false a n then .error (excBUS ad)
      else .ok ((readReg s a).2, (readReg s a).1.toNat)
    | _ => .ok (if freeBytes a then (takeFree s).2 else s, leNat (physBytes s s.free a n))

/-- A supervisor store of `n` bytes by a core (R172, R486, R488, R57): only the system cores write MRAM. An MRAM write while
writes are frozen waits in the journal (R464, R488). -/
def supStore (s : State) (c : Fin 6) (ad : Dword) (n v : Nat) : Except Exc State :=
  let a := ad.toNat
  if a % n ≠ 0 then .error (excALIGN n ad)
  else if a ≥ 2 ^ 40 then .error (excACCESS 1 ad)
  else match regionOf a with
    | .none | .rom | .solverNsa | .mramReserved => .error (excBUS ad)
    | .ctl => if ctlBusErr s false a n then .error (excBUS ad) else .ok (ctlStore s a (BitVec.ofNat 32 v))
    | .mram => if c.val < 4 then .error (excBUS ad) else .ok (mramWrite s a (leBytes n v))
    | .solverUser | .dram => .ok { s with mem := memPut s.mem a (leBytes n v) }

/-! ### Both modes -/

/-- A load of `n` bytes on a core. -/
def coreLoad (s : State) (c : Fin 6) (ad : Dword) (n : Nat) : Except Exc (State × Nat) :=
  match scanTask s c with
  | some t => (scanLoad s t ad n).map fun v => (s, v)
  | none => supLoad s c ad n

/-- A store of `n` bytes on a core. -/
def coreStore (s : State) (c : Fin 6) (ad : Dword) (n v : Nat) : Except Exc State :=
  match scanTask s c with
  | some t => scanStore s t ad n v
  | none => supStore s c ad n v

/-- The effective address of a load or store (R201). -/
def effAddr (s : State) (c : Fin 6) (ra : Fin 32) (imm : BitVec 16) : Dword :=
  getG (ctxOf s c) ra + imm.signExtend 64

/-- A load into a general register, converted from its `n` bytes. -/
def loadG (x : Issue) (rd ra : Fin 32) (imm : BitVec 16) (n : Nat) (f : Nat → Dword) (s : State) :
    Host.Outcome State Fault Refusal :=
  issue x s (some (effAddr s x.core ra imm)) fun s => do
    let (s', v) ← coreLoad s x.core (effAddr s x.core ra imm) n
    return (setCtx s' x.core (putG (ctxOf s' x.core) rd (f v)), pc4 s x.core)

/-- A store of `n` bytes of a value. -/
def storeV (x : Issue) (ra : Fin 32) (imm : BitVec 16) (n : Nat) (v : RegCtx → Dword) (s : State) :
    Host.Outcome State Fault Refusal :=
  issue x s (some (effAddr s x.core ra imm)) fun s => do
    let s' ← coreStore s x.core (effAddr s x.core ra imm) n (v (ctxOf s x.core)).toNat
    return (s', pc4 s x.core)

/-! ### Atomics (R205) -/

/-- The checks of an atomic in scan mode, and its old value; a supervisor atomic is a load and a store of R172. -/
def atomOld (s : State) (c : Fin 6) (ad : Dword) (n : Nat) : Except Exc (State × Nat) :=
  match scanTask s c with
  | some t =>
    match scanCheck s t .atomic ad n, scanOf s t with
    | some e, _ => .error e
    | none, some sc => .ok (s, leNat (scanBytes s t sc ad.toNat n))
    | none, none => .ok (s, 0)
  | none => supLoad s c ad n

/-- An atomic's store, which may raise LIMIT (R205, R176). -/
def atomStore (s : State) (c : Fin 6) (ad : Dword) (n v : Nat) : Except Exc State :=
  match scanTask s c with
  | some t =>
    match scanOf s t with
    | some sc => storeLogged s t sc ad (leBytes n v)
    | none => .ok s
  | none => supStore s c ad n v

/-- One indivisible read-modify-write: `f` makes the new value from the old one, g[RS2] and g[RD], all on the operand
size; g[RD] takes the old value, sign-extended for 4 bytes (R205). -/
def atom (x : Issue) (rd ra rb : Fin 32) (wide : Bool) (f : Nat → Nat → Nat → Nat → Nat) (s : State) :
    Host.Outcome State Fault Refusal :=
  let n := if wide then 8 else 4
  issue x s (some (getG (ctxOf s x.core) ra)) fun s => do
    let k := ctxOf s x.core
    let ad := getG k ra
    let m := 2 ^ (8 * n)
    let (s', old) ← atomOld s x.core ad n
    let new := f (8 * n) old ((getG k rb).toNat % m) ((getG k rd).toNat % m)
    let s'' ← atomStore s' x.core ad n (new % m)
    return (setCtx s'' x.core (putG (ctxOf s'' x.core) rd (sext64 (8 * n) old)), pc4 s x.core)

/-- LB: a byte, sign-extended (R201). -/
def execLb (x : Issue) (rd ra : Fin 32) (imm : BitVec 16) (s : State) : Host.Outcome State Fault Refusal :=
  loadG x rd ra imm 1 (sext64 8) s

/-- LBU: a byte, zero-extended. -/
def execLbu (x : Issue) (rd ra : Fin 32) (imm : BitVec 16) (s : State) : Host.Outcome State Fault Refusal :=
  loadG x rd ra imm 1 (zext64 8) s

/-- LH: 2 bytes, sign-extended. -/
def execLh (x : Issue) (rd ra : Fin 32) (imm : BitVec 16) (s : State) : Host.Outcome State Fault Refusal :=
  loadG x rd ra imm 2 (sext64 16) s

/-- LHU: 2 bytes, zero-extended. -/
def execLhu (x : Issue) (rd ra : Fin 32) (imm : BitVec 16) (s : State) : Host.Outcome State Fault Refusal :=
  loadG x rd ra imm 2 (zext64 16) s

/-- LW: 4 bytes, sign-extended. -/
def execLw (x : Issue) (rd ra : Fin 32) (imm : BitVec 16) (s : State) : Host.Outcome State Fault Refusal :=
  loadG x rd ra imm 4 (sext64 32) s

/-- LWU: 4 bytes, zero-extended. -/
def execLwu (x : Issue) (rd ra : Fin 32) (imm : BitVec 16) (s : State) : Host.Outcome State Fault Refusal :=
  loadG x rd ra imm 4 (zext64 32) s

/-- LD: 8 bytes. -/
def execLd (x : Issue) (rd ra : Fin 32) (imm : BitVec 16) (s : State) : Host.Outcome State Fault Refusal :=
  loadG x rd ra imm 8 (zext64 64) s

/-- LBOOL: 0 if the byte is 0, otherwise 1. -/
def execLbool (x : Issue) (rd ra : Fin 32) (imm : BitVec 16) (s : State) : Host.Outcome State Fault Refusal :=
  loadG x rd ra imm 1 (fun v => boolD (v != 0)) s

/-- SB: stores the low 8 bits of g[RT] (R201). -/
def execSb (x : Issue) (rt ra : Fin 32) (imm : BitVec 16) (s : State) : Host.Outcome State Fault Refusal :=
  storeV x ra imm 1 (fun k => getG k rt) s

/-- SH: stores the low 16 bits of g[RT] (R201). -/
def execSh (x : Issue) (rt ra : Fin 32) (imm : BitVec 16) (s : State) : Host.Outcome State Fault Refusal :=
  storeV x ra imm 2 (fun k => getG k rt) s

/-- SW: stores the low 32 bits of g[RT] (R201). -/
def execSw (x : Issue) (rt ra : Fin 32) (imm : BitVec 16) (s : State) : Host.Outcome State Fault Refusal :=
  storeV x ra imm 4 (fun k => getG k rt) s

/-- SD: stores the low 64 bits of g[RT] (R201). -/
def execSd (x : Issue) (rt ra : Fin 32) (imm : BitVec 16) (s : State) : Host.Outcome State Fault Refusal :=
  storeV x ra imm 8 (fun k => getG k rt) s

/-- FLD: d[RD] takes 8 bytes (R201). -/
def execFld (x : Issue) (fd : Fin 16) (ra : Fin 32) (imm : BitVec 16) (s : State) : Host.Outcome State Fault Refusal :=
  issue x s (some (effAddr s x.core ra imm)) fun s => do
    let (s', v) ← coreLoad s x.core (effAddr s x.core ra imm) 8
    return (setCtx s' x.core (putD (ctxOf s' x.core) fd (BitVec.ofNat 64 v)), pc4 s x.core)

/-- FSD: stores d[RT] (R201). -/
def execFsd (x : Issue) (ft : Fin 16) (ra : Fin 32) (imm : BitVec 16) (s : State) : Host.Outcome State Fault Refusal :=
  storeV x ra imm 8 (fun k => getD k ft) s

/-- ATCAS: g[RS2] when the old value equals the expected one (R205). -/
def execAtcas (x : Issue) (rd ra rb : Fin 32) (wide : Bool) (s : State) : Host.Outcome State Fault Refusal :=
  atom x rd ra rb wide (fun _ old b e => if old = e then b else old) s

/-- ATSWP: g[RS2]. -/
def execAtswp (x : Issue) (rd ra rb : Fin 32) (wide : Bool) (s : State) : Host.Outcome State Fault Refusal :=
  atom x rd ra rb wide (fun _ _ b _ => b) s

/-- ATADD: the wrapping sum. -/
def execAtadd (x : Issue) (rd ra rb : Fin 32) (wide : Bool) (s : State) : Host.Outcome State Fault Refusal :=
  atom x rd ra rb wide (fun _ old b _ => old + b) s

/-- ATAND: bitwise and. -/
def execAtand (x : Issue) (rd ra rb : Fin 32) (wide : Bool) (s : State) : Host.Outcome State Fault Refusal :=
  atom x rd ra rb wide (fun _ old b _ => old &&& b) s

/-- ATOR: bitwise or. -/
def execAtor (x : Issue) (rd ra rb : Fin 32) (wide : Bool) (s : State) : Host.Outcome State Fault Refusal :=
  atom x rd ra rb wide (fun _ old b _ => old ||| b) s

/-- ATXOR: bitwise exclusive or. -/
def execAtxor (x : Issue) (rd ra rb : Fin 32) (wide : Bool) (s : State) : Host.Outcome State Fault Refusal :=
  atom x rd ra rb wide (fun _ old b _ => old ^^^ b) s

/-- ATMIN: signed minimum. -/
def execAtmin (x : Issue) (rd ra rb : Fin 32) (wide : Bool) (s : State) : Host.Outcome State Fault Refusal :=
  atom x rd ra rb wide (fun w old b _ => if sInt w old ≤ sInt w b then old else b) s

/-- ATMAX: signed maximum. -/
def execAtmax (x : Issue) (rd ra rb : Fin 32) (wide : Bool) (s : State) : Host.Outcome State Fault Refusal :=
  atom x rd ra rb wide (fun w old b _ => if sInt w old ≤ sInt w b then b else old) s

/-- ATMINU: unsigned minimum. -/
def execAtminu (x : Issue) (rd ra rb : Fin 32) (wide : Bool) (s : State) : Host.Outcome State Fault Refusal :=
  atom x rd ra rb wide (fun _ old b _ => min old b) s

/-- ATMAXU: unsigned maximum. -/
def execAtmaxu (x : Issue) (rd ra rb : Fin 32) (wide : Bool) (s : State) : Host.Outcome State Fault Refusal :=
  atom x rd ra rb wide (fun _ old b _ => max old b) s

end Sys2Proof.Machine
end

