-- ==== Sys2Proof/Machine/Queue.lean ====
section
/-!
DEFINITION. The inter-domain queues (12 R325 R326 R337).
-/
namespace Sys2Proof.Machine

/-- The clock domains at the ends of the queues (R325). -/
inductive QueueEnd where
  | xge | ge | fab | t1l | can | peri | field | time | core | solv | dram | nvm | sec | sync | pcie | rtc | ref
  deriving DecidableEq, Repr

/-- A queue: its ends, its depth in words, and the bits of a word. -/
structure QueueSpec where
  src : QueueEnd
  dst : QueueEnd
  depth : Nat
  bits : Nat
  deriving DecidableEq, Repr

/-- The table of R325, by index. -/
def queueSpec (q : Nat) : QueueSpec :=
  if q < 2 then ⟨.xge, .fab, 512, 64⟩
  else if q < 4 then ⟨.fab, .xge, 512, 64⟩
  else if q < 8 then ⟨.ge, .fab, 256, 64⟩
  else if q < 12 then ⟨.fab, .ge, 256, 64⟩
  else match q with
    | 12 => ⟨.t1l, .fab, 128, 32⟩ | 13 => ⟨.fab, .t1l, 128, 32⟩
    | 14 => ⟨.can, .fab, 128, 64⟩ | 15 => ⟨.fab, .can, 128, 64⟩
    | 16 => ⟨.peri, .fab, 64, 32⟩ | 17 => ⟨.fab, .peri, 64, 32⟩
    | 18 => ⟨.field, .fab, 32, 64⟩ | 19 => ⟨.fab, .field, 32, 64⟩
    | 20 => ⟨.field, .fab, 64, 32⟩
    | 21 => ⟨.time, .core, 16, 64⟩ | 22 => ⟨.time, .solv, 16, 64⟩ | 23 => ⟨.time, .fab, 16, 64⟩
    | 24 => ⟨.time, .field, 16, 64⟩ | 25 => ⟨.time, .can, 16, 64⟩
    | 26 => ⟨.time, .fab, 64, 128⟩
    | 27 => ⟨.fab, .solv, 256, 128⟩ | 28 => ⟨.solv, .fab, 256, 128⟩
    | 29 => ⟨.core, .fab, 256, 128⟩ | 30 => ⟨.fab, .core, 256, 128⟩
    | 31 => ⟨.fab, .dram, 512, 128⟩ | 32 => ⟨.dram, .fab, 512, 128⟩
    | 33 => ⟨.fab, .nvm, 128, 128⟩ | 34 => ⟨.nvm, .fab, 128, 128⟩
    | 35 => ⟨.fab, .sec, 64, 128⟩ | 36 => ⟨.sec, .fab, 64, 128⟩
    | 37 => ⟨.fab, .sync, 256, 64⟩ | 38 => ⟨.fab, .sync, 256, 64⟩
    | 39 => ⟨.sync, .fab, 256, 64⟩ | 40 => ⟨.sync, .fab, 256, 64⟩
    | 41 => ⟨.pcie, .fab, 256, 128⟩ | 42 => ⟨.fab, .pcie, 256, 128⟩
    | 43 => ⟨.fab, .peri, 32, 64⟩ | 44 => ⟨.peri, .fab, 32, 64⟩
    | 45 => ⟨.rtc, .peri, 4, 32⟩ | 46 => ⟨.peri, .rtc, 4, 32⟩
    | _ => ⟨.ref, .fab, 8, 32⟩

/-- A queue as it stands. -/
def queueOf (s : State) (q : Nat) : DomainQueue := (alGet? s.que q).getD { words := [], held := none }

/-- A queue changed, with LEVEL and PEAK (R337). -/
def putQueue (s : State) (q : Nat) (x : DomainQueue) : State :=
  let n := x.words.length
  let s := setFi { s with que := alPut s.que q x } F.QUE_STAT_LEVEL q n
  setFi s F.QUE_STAT_PEAK q (max (getFi s F.QUE_STAT_PEAK q) n)

/-- A producer writes a word: a full queue holds the write back and counts it, and a producer that is held back writes
nothing (R326). -/
def queueWrite (s : State) (q w : Nat) : State :=
  let x := queueOf s q
  let d := queueSpec q
  let w := w % 2 ^ d.bits
  if x.held.isSome then s
  else if x.words.length < d.depth then putQueue s q { x with words := x.words ++ [w] }
  else bumpBy (putQueue s q { x with held := some w }) F.QUE_STALL_COUNT q 1

/-- What a poisoned word does to its consumer: ECC on a core, a unit fault in the solver, a frame dropped elsewhere (R326). -/
def poison (s : State) (q : Nat) : Poisoned → State
  | .core c place addr =>
    if (queueSpec q).dst = .core && live s c then
      raise s c ⟨0x10, eccDetail place, if place = .registers then 0 else addr, false⟩
    else s
  | .cluster sel cl second steps phase its elapsed =>
    if (queueSpec q).dst = .solv then unitFault s sel cl.val second ⟨steps, phase, its⟩ elapsed else s
  | .dropped => s

/-- The consumer reads the oldest word, and a write that was held back completes (R326). -/
def queueRead (s : State) (q : Nat) (r : QueueRead) : State :=
  let x := queueOf s q
  if x.words.isEmpty then s
  else
    let s := putQueue s q { words := x.words.drop 1 ++ x.held.toList, held := none }
    match r with
    | .good => s
    | .corrected => noteCorrected (bump (bumpSat s F.QUE_STAT_CORR q 1) F.QUE_CORR_TOTAL_COUNT)
    | .poisoned v => poison (ev (bumpSat s F.QUE_STAT_UNCORR q 1) blkQUE 0x80 5 [q]) q v

/-- QUEUE_WRITE_COMPLETE (R326): a producer's write, which a full queue holds back, or the read that completes it. In reset the
queues accept no word (R471). -/
def execQueueWriteComplete (q : Fin 48) (op : QueueOp) (s : State) : Host.Outcome State Fault Refusal :=
  .next (match op with
    | .write w => if s.boot.stage = 0 then s else queueWrite s q.val w
    | .read r => queueRead s q.val r)

end Sys2Proof.Machine
end

