-- ==== Sys2Proof/Machine/Dispatch.lean ====
section
/-!
DEFINITION. The one dispatch of a command to its meaning, arm by arm.
-/
namespace Sys2Proof.Machine

def exec (i : Instr) (s : State) : Host.Outcome State Fault Refusal :=
  match i with
  | .registerWrite a v size pcie => Sys2Proof.Machine.execRegisterWrite a v size pcie s
  | .lock b n => Sys2Proof.Machine.execLock b n s
  | .clearCounters b n => Sys2Proof.Machine.execClearCounters b n s
  | .clrSat => Sys2Proof.Machine.execClrSat s
  | .clrMax => Sys2Proof.Machine.execClrMax s
  | .cancelStudy => Sys2Proof.Machine.execCancelStudy s
  | .loopEngineTick vin temp => Sys2Proof.Machine.execLoopEngineTick vin temp s
  | .pulseEnd p => Sys2Proof.Machine.execPulseEnd p s
  | .fieldCapture rb v0 v1 => Sys2Proof.Machine.execFieldCapture rb v0 v1 s
  | .diFilterAccept di level => Sys2Proof.Machine.execDiFilterAccept di level s
  | .doCurrentLimitOff ch => Sys2Proof.Machine.execDoCurrentLimitOff ch s
  | .doRetry ch => Sys2Proof.Machine.execDoRetry ch s
  | .groupOvercurrentOff g => Sys2Proof.Machine.execGroupOvercurrentOff g s
  | .groupRestore g => Sys2Proof.Machine.execGroupRestore g s
  | .safeWrite v => Sys2Proof.Machine.execSafeWrite v s
  | .afeConversion vals => Sys2Proof.Machine.execAfeConversion vals s
  | .afeSample ch ix v c => Sys2Proof.Machine.execAfeSample ch ix v c s
  | .svFrameReceive appid macLo smpCnt synch vals quals arrival => Sys2Proof.Machine.execSvFrameReceive appid macLo smpCnt synch vals quals arrival s
  | .sampleMissingTimeout ch ix => Sys2Proof.Machine.execSampleMissingTimeout ch ix s
  | .svStreamLost m => Sys2Proof.Machine.execSvStreamLost m s
  | .networkCycleInstant steps phase its => Sys2Proof.Machine.execNetworkCycleInstant steps phase its s
  | .snapshotClose => Sys2Proof.Machine.execSnapshotClose s
  | .checkComplete plugErr => Sys2Proof.Machine.execCheckComplete plugErr s
  | .refineComplete elapsed => Sys2Proof.Machine.execRefineComplete elapsed s
  | .cycleJobComplete elapsed => Sys2Proof.Machine.execCycleJobComplete elapsed s
  | .plyComplete elapsed => Sys2Proof.Machine.execPlyComplete elapsed s
  | .stateSwitch => Sys2Proof.Machine.execStateSwitch s
  | .hydraulicDeadline sel steps phase its => Sys2Proof.Machine.execHydraulicDeadline sel steps phase its s
  | .jobDeadline sel steps phase its => Sys2Proof.Machine.execJobDeadline sel steps phase its s
  | .refineDeadline steps phase its => Sys2Proof.Machine.execRefineDeadline steps phase its s
  | .factBudgetExpiry sel step => Sys2Proof.Machine.execFactBudgetExpiry sel step s
  | .unitRetry sel cluster second steps phase its elapsed => Sys2Proof.Machine.execUnitRetry sel cluster second steps phase its elapsed s
  | .studyDone elapsed => Sys2Proof.Machine.execStudyDone elapsed s
  | .modelPreparationDone => Sys2Proof.Machine.execModelPreparationDone s
  | .modelValidationDone slot sigOk => Sys2Proof.Machine.execModelValidationDone slot sigOk s
  | .dispatchInstant => Sys2Proof.Machine.execDispatchInstant s
  | .dispatchJobStart => Sys2Proof.Machine.execDispatchJobStart s
  | .dispatchJobEnd elapsed => Sys2Proof.Machine.execDispatchJobEnd elapsed s
  | .dpoDeadline iters elapsed => Sys2Proof.Machine.execDpoDeadline iters elapsed s
  | .plyOff on => Sys2Proof.Machine.execPlyOff on s
  | .dpoOff on => Sys2Proof.Machine.execDpoOff on s
  | .latchInstant => Sys2Proof.Machine.execLatchInstant s
  | .latchElectricCopy => Sys2Proof.Machine.execLatchElectricCopy s
  | .archiveSlotWrite => Sys2Proof.Machine.execArchiveSlotWrite s
  | .mtrRdSelWrite v => Sys2Proof.Machine.execMtrRdSelWrite v s
  | .taskPeriodStart => Sys2Proof.Machine.execTaskPeriodStart s
  | .wdogExpiry core => Sys2Proof.Machine.execWdogExpiry core s
  | .irqEntry core line => Sys2Proof.Machine.execIrqEntry core line s
  | .undefinedInstruction x word => Sys2Proof.Machine.execUndefinedInstruction x word s
  | .add x rd ra rb => Sys2Proof.Machine.execAdd x rd ra rb s
  | .sub x rd ra rb => Sys2Proof.Machine.execSub x rd ra rb s
  | .and x rd ra rb => Sys2Proof.Machine.execAnd x rd ra rb s
  | .or x rd ra rb => Sys2Proof.Machine.execOr x rd ra rb s
  | .xor x rd ra rb => Sys2Proof.Machine.execXor x rd ra rb s
  | .shl x rd ra rb => Sys2Proof.Machine.execShl x rd ra rb s
  | .shr x rd ra rb => Sys2Proof.Machine.execShr x rd ra rb s
  | .sar x rd ra rb => Sys2Proof.Machine.execSar x rd ra rb s
  | .slt x rd ra rb => Sys2Proof.Machine.execSlt x rd ra rb s
  | .sltu x rd ra rb => Sys2Proof.Machine.execSltu x rd ra rb s
  | .mul x rd ra rb => Sys2Proof.Machine.execMul x rd ra rb s
  | .mulh x rd ra rb => Sys2Proof.Machine.execMulh x rd ra rb s
  | .mulhu x rd ra rb => Sys2Proof.Machine.execMulhu x rd ra rb s
  | .div x rd ra rb => Sys2Proof.Machine.execDiv x rd ra rb s
  | .divu x rd ra rb => Sys2Proof.Machine.execDivu x rd ra rb s
  | .rem x rd ra rb => Sys2Proof.Machine.execRem x rd ra rb s
  | .remu x rd ra rb => Sys2Proof.Machine.execRemu x rd ra rb s
  | .min x rd ra rb => Sys2Proof.Machine.execMin x rd ra rb s
  | .max x rd ra rb => Sys2Proof.Machine.execMax x rd ra rb s
  | .minu x rd ra rb => Sys2Proof.Machine.execMinu x rd ra rb s
  | .maxu x rd ra rb => Sys2Proof.Machine.execMaxu x rd ra rb s
  | .sext x rd ra w => Sys2Proof.Machine.execSext x rd ra w s
  | .zext x rd ra w => Sys2Proof.Machine.execZext x rd ra w s
  | .addi x rd ra imm => Sys2Proof.Machine.execAddi x rd ra imm s
  | .slti x rd ra imm => Sys2Proof.Machine.execSlti x rd ra imm s
  | .sltiu x rd ra imm => Sys2Proof.Machine.execSltiu x rd ra imm s
  | .andi x rd ra imm => Sys2Proof.Machine.execAndi x rd ra imm s
  | .ori x rd ra imm => Sys2Proof.Machine.execOri x rd ra imm s
  | .xori x rd ra imm => Sys2Proof.Machine.execXori x rd ra imm s
  | .shli x rd ra n => Sys2Proof.Machine.execShli x rd ra n s
  | .shri x rd ra n => Sys2Proof.Machine.execShri x rd ra n s
  | .sari x rd ra n => Sys2Proof.Machine.execSari x rd ra n s
  | .lui x rd imm => Sys2Proof.Machine.execLui x rd imm s
  | .qadd x rd ra rb => Sys2Proof.Machine.execQadd x rd ra rb s
  | .qsub x rd ra rb => Sys2Proof.Machine.execQsub x rd ra rb s
  | .qmul x rd ra rb sh => Sys2Proof.Machine.execQmul x rd ra rb sh s
  | .qdiv x rd ra rb sh => Sys2Proof.Machine.execQdiv x rd ra rb sh s
  | .qshl x rd ra sh => Sys2Proof.Machine.execQshl x rd ra sh s
  | .qshr x rd ra sh => Sys2Proof.Machine.execQshr x rd ra sh s
  | .qneg x rd ra => Sys2Proof.Machine.execQneg x rd ra s
  | .qabs x rd ra => Sys2Proof.Machine.execQabs x rd ra s
  | .qmin x rd ra rb => Sys2Proof.Machine.execQmin x rd ra rb s
  | .qmax x rd ra rb => Sys2Proof.Machine.execQmax x rd ra rb s
  | .fadd x fd fa fb => Sys2Proof.Machine.execFadd x fd fa fb s
  | .fsub x fd fa fb => Sys2Proof.Machine.execFsub x fd fa fb s
  | .fmul x fd fa fb => Sys2Proof.Machine.execFmul x fd fa fb s
  | .fdiv x fd fa fb => Sys2Proof.Machine.execFdiv x fd fa fb s
  | .fsqrt x fd fa => Sys2Proof.Machine.execFsqrt x fd fa s
  | .fmin x fd fa fb => Sys2Proof.Machine.execFmin x fd fa fb s
  | .fmax x fd fa fb => Sys2Proof.Machine.execFmax x fd fa fb s
  | .fneg x fd fa => Sys2Proof.Machine.execFneg x fd fa s
  | .fabs x fd fa => Sys2Proof.Machine.execFabs x fd fa s
  | .feq x rd fa fb => Sys2Proof.Machine.execFeq x rd fa fb s
  | .flt x rd fa fb => Sys2Proof.Machine.execFlt x rd fa fb s
  | .fle x rd fa fb => Sys2Proof.Machine.execFle x rd fa fb s
  | .fcvtdi x fd ra => Sys2Proof.Machine.execFcvtdi x fd ra s
  | .fcvtid x rd fa => Sys2Proof.Machine.execFcvtid x rd fa s
  | .fcvtdq x fd ra n => Sys2Proof.Machine.execFcvtdq x fd ra n s
  | .fcvtqd x rd fa n => Sys2Proof.Machine.execFcvtqd x rd fa n s
  | .fmvdg x fd ra => Sys2Proof.Machine.execFmvdg x fd ra s
  | .fmvgd x rd fa => Sys2Proof.Machine.execFmvgd x rd fa s
  | .lb x rd ra imm => Sys2Proof.Machine.execLb x rd ra imm s
  | .lbu x rd ra imm => Sys2Proof.Machine.execLbu x rd ra imm s
  | .lh x rd ra imm => Sys2Proof.Machine.execLh x rd ra imm s
  | .lhu x rd ra imm => Sys2Proof.Machine.execLhu x rd ra imm s
  | .lw x rd ra imm => Sys2Proof.Machine.execLw x rd ra imm s
  | .lwu x rd ra imm => Sys2Proof.Machine.execLwu x rd ra imm s
  | .ld x rd ra imm => Sys2Proof.Machine.execLd x rd ra imm s
  | .lbool x rd ra imm => Sys2Proof.Machine.execLbool x rd ra imm s
  | .sb x rt ra imm => Sys2Proof.Machine.execSb x rt ra imm s
  | .sh x rt ra imm => Sys2Proof.Machine.execSh x rt ra imm s
  | .sw x rt ra imm => Sys2Proof.Machine.execSw x rt ra imm s
  | .sd x rt ra imm => Sys2Proof.Machine.execSd x rt ra imm s
  | .fld x fd ra imm => Sys2Proof.Machine.execFld x fd ra imm s
  | .fsd x ft ra imm => Sys2Proof.Machine.execFsd x ft ra imm s
  | .beq x ra rb imm => Sys2Proof.Machine.execBeq x ra rb imm s
  | .bne x ra rb imm => Sys2Proof.Machine.execBne x ra rb imm s
  | .blt x ra rb imm => Sys2Proof.Machine.execBlt x ra rb imm s
  | .bge x ra rb imm => Sys2Proof.Machine.execBge x ra rb imm s
  | .bltu x ra rb imm => Sys2Proof.Machine.execBltu x ra rb imm s
  | .bgeu x ra rb imm => Sys2Proof.Machine.execBgeu x ra rb imm s
  | .j x imm => Sys2Proof.Machine.execJ x imm s
  | .call x imm => Sys2Proof.Machine.execCall x imm s
  | .jr x ra imm => Sys2Proof.Machine.execJr x ra imm s
  | .callr x ra imm => Sys2Proof.Machine.execCallr x ra imm s
  | .atcas x rd ra rb wide => Sys2Proof.Machine.execAtcas x rd ra rb wide s
  | .atswp x rd ra rb wide => Sys2Proof.Machine.execAtswp x rd ra rb wide s
  | .atadd x rd ra rb wide => Sys2Proof.Machine.execAtadd x rd ra rb wide s
  | .atand x rd ra rb wide => Sys2Proof.Machine.execAtand x rd ra rb wide s
  | .ator x rd ra rb wide => Sys2Proof.Machine.execAtor x rd ra rb wide s
  | .atxor x rd ra rb wide => Sys2Proof.Machine.execAtxor x rd ra rb wide s
  | .atmin x rd ra rb wide => Sys2Proof.Machine.execAtmin x rd ra rb wide s
  | .atmax x rd ra rb wide => Sys2Proof.Machine.execAtmax x rd ra rb wide s
  | .atminu x rd ra rb wide => Sys2Proof.Machine.execAtminu x rd ra rb wide s
  | .atmaxu x rd ra rb wide => Sys2Proof.Machine.execAtmaxu x rd ra rb wide s
  | .mfsr x rd num => Sys2Proof.Machine.execMfsr x rd num s
  | .mtsr x num ra => Sys2Proof.Machine.execMtsr x num ra s
  | .brk x num => Sys2Proof.Machine.execBrk x num s
  | .fence x => Sys2Proof.Machine.execFence x s
  | .exret x ra => Sys2Proof.Machine.execExret x ra s
  | .idlew x => Sys2Proof.Machine.execIdlew x s
  | .ldt x rd ra imm => Sys2Proof.Machine.execLdt x rd ra imm s
  | .ldtf x rd ra imm => Sys2Proof.Machine.execLdtf x rd ra imm s
  | .tfst x rd ra imm => Sys2Proof.Machine.execTfst x rd ra imm s
  | .stt x rt ra imm => Sys2Proof.Machine.execStt x rt ra imm s
  | .tmrTon x rd ra rb => Sys2Proof.Machine.execTmrTon x rd ra rb s
  | .tmrTof x rd ra rb => Sys2Proof.Machine.execTmrTof x rd ra rb s
  | .tmrTp x rd ra rb => Sys2Proof.Machine.execTmrTp x rd ra rb s
  | .edgeRise x rd ra rb => Sys2Proof.Machine.execEdgeRise x rd ra rb s
  | .edgeFall x rd ra rb => Sys2Proof.Machine.execEdgeFall x rd ra rb s
  | .edgeAny x rd ra rb => Sys2Proof.Machine.execEdgeAny x rd ra rb s
  | .ecall x rd ra rb engine fn => Sys2Proof.Machine.execEcall x rd ra rb engine fn s
  | .ereadNode x rd ra sel => Sys2Proof.Machine.execEreadNode x rd ra sel s
  | .ereadBranch x rd ra sel => Sys2Proof.Machine.execEreadBranch x rd ra sel s
  | .ereadNodeix x rd ra sel => Sys2Proof.Machine.execEreadNodeix x rd ra sel s
  | .ereadBranchix x rd ra sel => Sys2Proof.Machine.execEreadBranchix x rd ra sel s
  | .ereadState x rd ra sel => Sys2Proof.Machine.execEreadState x rd ra sel s
  | .ereadDec x rd ra sel => Sys2Proof.Machine.execEreadDec x rd ra sel s
  | .ereadDemand x rd ra sel => Sys2Proof.Machine.execEreadDemand x rd ra sel s
  | .ereadLoop x rd ra sel => Sys2Proof.Machine.execEreadLoop x rd ra sel s
  | .ereadGroup x rd ra sel => Sys2Proof.Machine.execEreadGroup x rd ra sel s
  | .ereadExp x rd ra sel => Sys2Proof.Machine.execEreadExp x rd ra sel s
  | .ckpt x => Sys2Proof.Machine.execCkpt x s
  | .scanend x scanNs => Sys2Proof.Machine.execScanend x scanNs s
  | .nsaInstall task ticket body => Sys2Proof.Machine.execNsaInstall task ticket body s
  | .nsaStudy task ticket body => Sys2Proof.Machine.execNsaStudy task ticket body s
  | .nsaWriteUser task ticket body => Sys2Proof.Machine.execNsaWriteUser task ticket body s
  | .nsaReadUser task ticket body => Sys2Proof.Machine.execNsaReadUser task ticket body s
  | .nsaMask task ticket body => Sys2Proof.Machine.execNsaMask task ticket body s
  | .lpeLoop task ticket body => Sys2Proof.Machine.execLpeLoop task ticket body s
  | .lpeGroup task ticket body => Sys2Proof.Machine.execLpeGroup task ticket body s
  | .lpeMode task ticket body => Sys2Proof.Machine.execLpeMode task ticket body s
  | .mtrConfig task ticket body => Sys2Proof.Machine.execMtrConfig task ticket body s
  | .chkRun task ticket body => Sys2Proof.Machine.execChkRun task ticket body s
  | .sesSend task ticket body => Sys2Proof.Machine.execSesSend task ticket body s
  | .sesRead task ticket body => Sys2Proof.Machine.execSesRead task ticket body s
  | .forceRead => Sys2Proof.Machine.execForceRead s
  | .forceSet => Sys2Proof.Machine.execForceSet s
  | .forceClear => Sys2Proof.Machine.execForceClear s
  | .forceApply => Sys2Proof.Machine.execForceApply s
  | .progExchange r payload v => Sys2Proof.Machine.execProgExchange r payload v s
  | .exchangeInstant => Sys2Proof.Machine.execExchangeInstant s
  | .exchangeConfirmTimeout => Sys2Proof.Machine.execExchangeConfirmTimeout s
  | .tokenHoldInFall ns => Sys2Proof.Machine.execTokenHoldInFall ns s
  | .tokenHoldInRise => Sys2Proof.Machine.execTokenHoldInRise s
  | .tokenTake => Sys2Proof.Machine.execTokenTake s
  | .takeEmission => Sys2Proof.Machine.execTakeEmission s
  | .addressAnnounceRepeat => Sys2Proof.Machine.execAddressAnnounceRepeat s
  | .tokenContention => Sys2Proof.Machine.execTokenContention s
  | .keeperRefresh key pcie => Sys2Proof.Machine.execKeeperRefresh key pcie s
  | .keeperTrip => Sys2Proof.Machine.execKeeperTrip s
  | .stalemateHoldExpiry => Sys2Proof.Machine.execStalemateHoldExpiry s
  | .coldTake => Sys2Proof.Machine.execColdTake s
  | .switch => Sys2Proof.Machine.execSwitch s
  | .resync => Sys2Proof.Machine.execResync s
  | .releaseLockout => Sys2Proof.Machine.execReleaseLockout s
  | .take => Sys2Proof.Machine.execTake s
  | .arbitration => Sys2Proof.Machine.execArbitration s
  | .arbitrationLinkTimeout => Sys2Proof.Machine.execArbitrationLinkTimeout s
  | .resyncInstant => Sys2Proof.Machine.execResyncInstant s
  | .furovHello tagOk h => Sys2Proof.Machine.execFurovHello tagOk h s
  | .furovAck h seq => Sys2Proof.Machine.execFurovAck h seq s
  | .furovInput h task period inputs forces shared => Sys2Proof.Machine.execFurovInput h task period inputs forces shared s
  | .furovTick h tick samples forces => Sys2Proof.Machine.execFurovTick h tick samples forces s
  | .furovSnapshot h k recs thermal electric missing samples => Sys2Proof.Machine.execFurovSnapshot h k recs thermal electric missing samples s
  | .furovDigest h source task inst digest => Sys2Proof.Machine.execFurovDigest h source task inst digest s
  | .furovHealth h x => Sys2Proof.Machine.execFurovHealth h x s
  | .furovForward h typ at_ body v => Sys2Proof.Machine.execFurovForward h typ at_ body v s
  | .furovState h part => Sys2Proof.Machine.execFurovState h part s
  | .furovTime h ownTx peerRx peerTx ownRx => Sys2Proof.Machine.execFurovTime h ownTx peerRx peerTx ownRx s
  | .furovToken h held release tick => Sys2Proof.Machine.execFurovToken h held release tick s
  | .furovJob h e => Sys2Proof.Machine.execFurovJob h e s
  | .furovRetransmit seq => Sys2Proof.Machine.execFurovRetransmit seq s
  | .laneLockLoss l => Sys2Proof.Machine.execLaneLockLoss l s
  | .linkTrainingStart step lanes => Sys2Proof.Machine.execLinkTrainingStart step lanes s
  | .forwardTimeout => Sys2Proof.Machine.execForwardTimeout s
  | .digestEntryTimeout => Sys2Proof.Machine.execDigestEntryTimeout s
  | .diagnosisComplete answer scrub seqs => Sys2Proof.Machine.execDiagnosisComplete answer scrub seqs s
  | .qspJoinReceive h => Sys2Proof.Machine.execQspJoinReceive h s
  | .qspTelemetryReceive h typ payload => Sys2Proof.Machine.execQspTelemetryReceive h typ payload s
  | .qspLeaveReceive h => Sys2Proof.Machine.execQspLeaveReceive h s
  | .pendingTimeout n => Sys2Proof.Machine.execPendingTimeout n s
  | .sessionDrop n => Sys2Proof.Machine.execSessionDrop n s
  | .commandTransmit => Sys2Proof.Machine.execCommandTransmit s
  | .sesSelWrite v => Sys2Proof.Machine.execSesSelWrite v s
  | .chkStart u => Sys2Proof.Machine.execChkStart u s
  | .resetPip u => Sys2Proof.Machine.execResetPip u s
  | .chkJobDone u err => Sys2Proof.Machine.execChkJobDone u err s
  | .queueWriteComplete q op => Sys2Proof.Machine.execQueueWriteComplete q op s
  | .qhcFragmentReceive r d v => Sys2Proof.Machine.execQhcFragmentReceive r d v s
  | .qhcReassemblyTimeout => Sys2Proof.Machine.execQhcReassemblyTimeout s
  | .statusRead r payload => Sys2Proof.Machine.execStatusRead r payload s
  | .imageWrite r payload => Sys2Proof.Machine.execImageWrite r payload s
  | .imageCheck r payload v => Sys2Proof.Machine.execImageCheck r payload v s
  | .imageSelect r payload v => Sys2Proof.Machine.execImageSelect r payload v s
  | .forecast r payload => Sys2Proof.Machine.execForecast r payload s
  | .mask r payload => Sys2Proof.Machine.execMask r payload s
  | .meterConfig r payload => Sys2Proof.Machine.execMeterConfig r payload s
  | .meterClear r payload => Sys2Proof.Machine.execMeterClear r payload s
  | .meterRead r payload => Sys2Proof.Machine.execMeterRead r payload s
  | .meterAck r payload => Sys2Proof.Machine.execMeterAck r payload s
  | .safeValues r payload => Sys2Proof.Machine.execSafeValues r payload s
  | .setting r payload => Sys2Proof.Machine.execSetting r payload s
  | .attest r payload => Sys2Proof.Machine.execAttest r payload s
  | .evrAck r payload => Sys2Proof.Machine.execEvrAck r payload s
  | .stateAck r payload => Sys2Proof.Machine.execStateAck r payload s
  | .qhcHostReply r => Sys2Proof.Machine.execQhcHostReply r s
  | .qhcUnsolRetry => Sys2Proof.Machine.execQhcUnsolRetry s
  | .hostChannelLoss => Sys2Proof.Machine.execHostChannelLoss s
  | .pcieMailboxIn op => Sys2Proof.Machine.execPcieMailboxIn op s
  | .pcieMailboxOutTaken => Sys2Proof.Machine.execPcieMailboxOutTaken s
  | .keyUpdate r payload v => Sys2Proof.Machine.execKeyUpdate r payload v s
  | .protect r payload v => Sys2Proof.Machine.execProtect r payload v s
  | .ownerAdd r payload v => Sys2Proof.Machine.execOwnerAdd r payload v s
  | .ownerRevoke r payload v => Sys2Proof.Machine.execOwnerRevoke r payload v s
  | .newIdentity r payload v => Sys2Proof.Machine.execNewIdentity r payload v s
  | .decommission r payload v => Sys2Proof.Machine.execDecommission r payload v s
  | .svnCommit r payload v => Sys2Proof.Machine.execSvnCommit r payload v s
  | .provision r payload v => Sys2Proof.Machine.execProvision r payload v s
  | .keyStoreWriteDone => Sys2Proof.Machine.execKeyStoreWriteDone s
  | .fuseBurnStart => Sys2Proof.Machine.execFuseBurnStart s
  | .fuseBurnDone => Sys2Proof.Machine.execFuseBurnDone s
  | .keyRemask => Sys2Proof.Machine.execKeyRemask s
  | .ptpSyncReceive m twoStep delayReq origin => Sys2Proof.Machine.execPtpSyncReceive m twoStep delayReq origin s
  | .ptpFollowUpReceive m origin => Sys2Proof.Machine.execPtpFollowUpReceive m origin s
  | .ptpAnnounceReceive m a => Sys2Proof.Machine.execPtpAnnounceReceive m a s
  | .ptpDelayReqSend d seq => Sys2Proof.Machine.execPtpDelayReqSend d seq s
  | .ptpDelayRespReceive m t4 => Sys2Proof.Machine.execPtpDelayRespReceive m t4 s
  | .ptpPdelayReqSend p seq => Sys2Proof.Machine.execPtpPdelayReqSend p seq s
  | .ptpPdelayReqReceive m tx => Sys2Proof.Machine.execPtpPdelayReqReceive m tx s
  | .ptpPdelayRespReceive m followUp twoStep stamp => Sys2Proof.Machine.execPtpPdelayRespReceive m followUp twoStep stamp s
  | .tcFollowUpTimeout => Sys2Proof.Machine.execTcFollowUpTimeout s
  | .announceTimeout d => Sys2Proof.Machine.execAnnounceTimeout d s
  | .syncTimeout d => Sys2Proof.Machine.execSyncTimeout d s
  | .slewEnd => Sys2Proof.Machine.execSlewEnd s
  | .sourceRevert => Sys2Proof.Machine.execSourceRevert s
  | .tbSelWrite v => Sys2Proof.Machine.execTbSelWrite v s
  | .tb7Set => Sys2Proof.Machine.execTb7Set s
  | .tb7Add => Sys2Proof.Machine.execTb7Add s
  | .tb7Sub => Sys2Proof.Machine.execTb7Sub s
  | .txTimestamp p id base time => Sys2Proof.Machine.execTxTimestamp p id base time s
  | .txtsPop => Sys2Proof.Machine.execTxtsPop s
  | .ptpWaitLimit => Sys2Proof.Machine.execPtpWaitLimit s
  | .rtcSecondEdge => Sys2Proof.Machine.execRtcSecondEdge s
  | .rtcSet => Sys2Proof.Machine.execRtcSet s
  | .rtcShift => Sys2Proof.Machine.execRtcShift s
  | .setWday => Sys2Proof.Machine.execSetWday s
  | .leapIns => Sys2Proof.Machine.execLeapIns s
  | .leapDel => Sys2Proof.Machine.execLeapDel s
  | .leapCancel => Sys2Proof.Machine.execLeapCancel s
  | .countStart => Sys2Proof.Machine.execCountStart s
  | .countStop => Sys2Proof.Machine.execCountStop s
  | .measStart => Sys2Proof.Machine.execMeasStart s
  | .rtcCommandEffect sub => Sys2Proof.Machine.execRtcCommandEffect sub s
  | .rtcSnap sub => Sys2Proof.Machine.execRtcSnap sub s
  | .trimWrite v sub => Sys2Proof.Machine.execTrimWrite v sub s
  | .countdownSecond => Sys2Proof.Machine.execCountdownSecond s
  | .measDone count sub => Sys2Proof.Machine.execMeasDone count sub s
  | .measErr => Sys2Proof.Machine.execMeasErr s
  | .oscillatorStopped => Sys2Proof.Machine.execOscillatorStopped s
  | .rtcDiscipline => Sys2Proof.Machine.execRtcDiscipline s
  | .canFrameReceive n f ts => Sys2Proof.Machine.execCanFrameReceive n f ts s
  | .canFrameSent n ok ts => Sys2Proof.Machine.execCanFrameSent n ok ts s
  | .canError n tec rec => Sys2Proof.Machine.execCanError n tec rec s
  | .recover n => Sys2Proof.Machine.execRecover n s
  | .busOffRecoveryDone n => Sys2Proof.Machine.execBusOffRecoveryDone n s
  | .canAutoRecover n => Sys2Proof.Machine.execCanAutoRecover n s
  | .canAbort n started => Sys2Proof.Machine.execCanAbort n started s
  | .canModeWrite n v busy => Sys2Proof.Machine.execCanModeWrite n v busy s
  | .canWakeEdge n => Sys2Proof.Machine.execCanWakeEdge n s
  | .wakeFrame n f ts => Sys2Proof.Machine.execWakeFrame n f ts s
  | .rxAckWrite ch v => Sys2Proof.Machine.execRxAckWrite ch v s
  | .txPutWrite ch v => Sys2Proof.Machine.execTxPutWrite ch v s
  | .txAckWrite ch v => Sys2Proof.Machine.execTxAckWrite ch v s
  | .uartSlotClose n data gap framing parity brk ts => Sys2Proof.Machine.execUartSlotClose n data gap framing parity brk ts s
  | .uartFrameSent n echoErr ts => Sys2Proof.Machine.execUartFrameSent n echoErr ts s
  | .uartAbort n started => Sys2Proof.Machine.execUartAbort n started s
  | .uartEnableWrite n v => Sys2Proof.Machine.execUartEnableWrite n v s
  | .evrRecordWrite bad => Sys2Proof.Machine.execEvrRecordWrite bad s
  | .evrRebuildDone bad => Sys2Proof.Machine.execEvrRebuildDone bad s
  | .evrSeek v => Sys2Proof.Machine.execEvrSeek v s
  | .evrSearchDone => Sys2Proof.Machine.execEvrSearchDone s
  | .evrRdSel v => Sys2Proof.Machine.execEvrRdSel v s
  | .supplyWarning unit => Sys2Proof.Machine.execSupplyWarning unit s
  | .warmSaveDone => Sys2Proof.Machine.execWarmSaveDone s
  | .supplyRecovery minMv us => Sys2Proof.Machine.execSupplyRecovery minMv us s
  | .supplyResetLevel lost => Sys2Proof.Machine.execSupplyResetLevel lost s
  | .supplyOvervoltage => Sys2Proof.Machine.execSupplyOvervoltage s
  | .powerGood => Sys2Proof.Machine.execPowerGood s
  | .overtempReset => Sys2Proof.Machine.execOvertempReset s
  | .clkrefQualified recovery code => Sys2Proof.Machine.execClkrefQualified recovery code s
  | .pllLock p => Sys2Proof.Machine.execPllLock p s
  | .pllLockTimeout p => Sys2Proof.Machine.execPllLockTimeout p s
  | .clkrefLost => Sys2Proof.Machine.execClkrefLost s
  | .pllUnlock p => Sys2Proof.Machine.execPllUnlock p s
  | .pllRelockTimeout p => Sys2Proof.Machine.execPllRelockTimeout p s
  | .clockSwitchDone b fallback => Sys2Proof.Machine.execClockSwitchDone b fallback s
  | .clkSrcWrite v => Sys2Proof.Machine.execClkSrcWrite v s
  | .gatePeriWrite v => Sys2Proof.Machine.execGatePeriWrite v s
  | .gateEngWrite v => Sys2Proof.Machine.execGateEngWrite v s
  | .resetWarm src => Sys2Proof.Machine.execResetWarm src s
  | .resetCold host => Sys2Proof.Machine.execResetCold host s
  | .resetFull => Sys2Proof.Machine.execResetFull s
  | .resetRelease slot before => Sys2Proof.Machine.execResetRelease slot before s
  | .runtimeStart b => Sys2Proof.Machine.execRuntimeStart b s
  | .mramRestoreDone v => Sys2Proof.Machine.execMramRestoreDone v s
  | .runStateEntry => Sys2Proof.Machine.execRunStateEntry s
  | .ethPortLinkChange p up => Sys2Proof.Machine.execEthPortLinkChange p up s
  | .loRegisterRead a size pcie => Sys2Proof.Machine.execLoRegisterRead a size pcie s
  | .canIntegrationDone n => Sys2Proof.Machine.execCanIntegrationDone n s
  | .backupSourceChange vbak => Sys2Proof.Machine.execBackupSourceChange vbak s
  | .overtempRelease => Sys2Proof.Machine.execOvertempRelease s
  | .pcieLinkChange up => Sys2Proof.Machine.execPcieLinkChange up s

end Sys2Proof.Machine
end

