-- ==== Sys2Proof/Safety.lean ====
section
/-!
DEFINITION. The terms that claims use: a safe step, a core that executes an instruction without a hardware fault, and
what a step may do to the state at most.
-/
namespace Sys2Proof.Machine

/-- A step answers a next state. -/
def StepsSafely (s : State) : Prop := ∃ t, step s = .next t

/-- The core of an issue executes instructions, and the instruction meets no hardware fault (R184). -/
def Runs (x : Issue) (s : State) : Prop := live s x.core = true ∧ x.fault = .none

/-- The state in which a core goes on at an address with its registers replaced: where the next fetch is allowed, the
state with those registers and that PC; else the fetch's exception (R191, R204). -/
def goOnAt (s : State) (c : Fin 6) (k : RegCtx) (pc : Dword) : State := goTo (setCtx s c k) c pc

/-- As `goOnAt`, at PC + 4. -/
def goOn (s : State) (c : Fin 6) (k : RegCtx) : State := goOnAt s c k ((ctxOf s c).pc + 4)

/-- The command answers a next state of which a property holds. -/
def Gives (c : Instr) (s : State) (p : State → Prop) : Prop := ∃ t, exec c s = .next t ∧ p t

/-- The other cores and everything beside the cores are as before. -/
def OnlyCore (c : Fin 6) (s t : State) : Prop :=
  { t with cores := s.cores } = s ∧ ∀ d, d ≠ c → coreOf t d = coreOf s d

/-- A core's registers are as before, but for the PC and the general registers of a list. -/
def KeepsRegs (c : Fin 6) (written : List (Fin 32)) (s t : State) : Prop :=
  (∀ r, r ∉ written → getG (ctxOf t c) r = getG (ctxOf s c) r) ∧ (ctxOf t c).d = (ctxOf s c).d ∧
    (ctxOf t c).flg = (ctxOf s c).flg ∧ { coreOf t c with ctx := ctxOf s c } = coreOf s c

/-- Every memory of the module reads as before at every address. -/
def SameMemory (s t : State) : Prop :=
  ∀ a, memRead t.mem a = memRead s.mem a ∧ memRead t.inst a = memRead s.inst a ∧ memRead t.mbox a = memRead s.mbox a ∧
    memRead t.inImg a = memRead s.inImg a ∧ memRead t.outImg a = memRead s.outImg a

/-- Every register but those of a list reads as before. -/
def SameRegsBut (but : List Nat) (s t : State) : Prop := ∀ a, a ∉ but → getReg t a = getReg s a

/-- The sparse maps of the state are in their canonical form. -/
def Canonical (s : State) : Prop :=
  amWf resetWord s.regs = true ∧ Memory.wf s.mem = true ∧ Memory.wf s.inst = true ∧ Memory.wf s.mbox = true ∧
    Memory.wf s.inImg = true ∧ Memory.wf s.outImg = true

/-- A register takes a write of a value: it is defined, no reserved bit is written, and no lock bars it (R9 to R11). -/
def Takes (s : State) (a : Nat) (v : Word) : Prop := ∃ r, regDefAt a = some r ∧ writeBarred s a r v = false

/-- A completion record of an engine call waits for its task's posts of the next period. -/
def Posted (s u : State) (task : Fin 16) (p : PostItem) : Prop :=
  (taskOf u task).posts = (taskOf s task).posts ++ [{ p with duePeriod := (taskOf s task).pidx + 1 }]

/-- A host request of a type is heard, new, protected where it came by Ethernet and its type asks for it, and for a service
at a service address of the token's holder (R327, R328, R330, R331, R334). -/
def Heard (s : State) (r : HostReq) (typ : Nat) (p : List Byte) : Prop :=
  hears s r = true ∧ s.qhc.lost = false ∧ (∀ e ∈ s.qhc.kept, e.1 ≠ r.sender ∨ e.2.1 ≠ r.reqId.toNat) ∧
    (r.via = none ∨ r.secured = true ∨ openType typ = true) ∧
    (serviceOnly typ p = true → holds s = true ∧ (r.via.all fun f => serviceAddr s f.dst) = true)

/-- The latest reply is the one to a request, with a status and a payload (R331). -/
def Replied (u : State) (r : HostReq) (typ status : Nat) (p : List Byte) : Prop :=
  u.qhc.kept.getLast? = some (r.sender, r.reqId.toNat, typ, status, p)

/-- A burned fuse bit stays burned (R418). -/
def FusesKept (s t : State) : Prop := ∀ w i, (fuseWord s w).testBit i = true → (fuseWord t w).testBit i = true

/-- The DRAM of R485: `n` aligned bytes of it in supervisor mode (R172). -/
def inDram (s : State) (c : Fin 6) (ad : Dword) (n : Nat) : Prop :=
  isSup s c = true ∧ 0x100000000 ≤ ad.toNat ∧ ad.toNat < 0x480000000 ∧ ad.toNat % n = 0

/-- `n` aligned bytes of a task's own page of instance memory, with room in the undo log, on a core that may fetch its
next instruction (R170, R171, R173, R176). -/
def ownBytes (s : State) (c : Fin 6) (t : Nat) (sc : Scan) (a n : Nat) : Prop :=
  scanTask s c = some t ∧ scanOf s t = some sc ∧ t < 16 ∧ winRet ≤ a ∧ a < winConst ∧ inExtent s a n = true ∧
    pageOwner s a = some t ∧ a % n = 0 ∧ sc.undo.length < 4096 ∧ fetchExc s c ((ctxOf s c).pc + 4) = none

end Sys2Proof.Machine
end

