-- ==== Sys2Proof/Certificates/Slice0/Obligations.lean ====
section
/-!
DEFINITION. The obligations: statements about the block for the provers, from the numbered rules of the manual.
-/
open Sys2Proof Sys2Proof.Machine

/-! ### The step -/

/-- A step takes the command at the front of the queue and is exec of it on the state with the queue's rest. -/
def Obligations.StepRunsFront : Prop :=
  ∀ (c : Instr) (rest : List Instr) (s : State), step { s with pending := c :: rest } = exec c { s with pending := rest }

/-! ### Irtum: integer, fixed-point and binary64 instructions -/

/-- R195: the integer functions without a flag, on a core that executes. -/
def Obligations.IntegerResults : Prop :=
  ∀ (x : Issue) (rd ra rb : Fin 32) (w : Fin 3) (s : State), Runs x s →
    let k := ctxOf s x.core
    let a := getG k ra
    let b := getG k rb
    let n := b.toNat % 64
    let res (v : Dword) : Host.Outcome State Fault Refusal := .next (goOn s x.core (putG k rd v))
    exec (.add x rd ra rb) s = res (a + b) ∧
    exec (.sub x rd ra rb) s = res (a - b) ∧
    exec (.and x rd ra rb) s = res (a &&& b) ∧
    exec (.or x rd ra rb) s = res (a ||| b) ∧
    exec (.xor x rd ra rb) s = res (a ^^^ b) ∧
    exec (.shl x rd ra rb) s = res (a <<< n) ∧
    exec (.shr x rd ra rb) s = res (a >>> n) ∧
    exec (.sar x rd ra rb) s = res (a.sshiftRight n) ∧
    exec (.slt x rd ra rb) s = res (if a.toInt < b.toInt then 1 else 0) ∧
    exec (.sltu x rd ra rb) s = res (if a.toNat < b.toNat then 1 else 0) ∧
    exec (.mul x rd ra rb) s = res (BitVec.ofInt 64 (a.toInt * b.toInt)) ∧
    exec (.mulh x rd ra rb) s = res (BitVec.ofInt 64 (a.toInt * b.toInt / 2 ^ 64)) ∧
    exec (.mulhu x rd ra rb) s = res (BitVec.ofNat 64 (a.toNat * b.toNat / 2 ^ 64)) ∧
    exec (.min x rd ra rb) s = res (if a.toInt < b.toInt then a else b) ∧
    exec (.max x rd ra rb) s = res (if a.toInt < b.toInt then b else a) ∧
    exec (.minu x rd ra rb) s = res (if a.toNat < b.toNat then a else b) ∧
    exec (.maxu x rd ra rb) s = res (if a.toNat < b.toNat then b else a) ∧
    exec (.sext x rd ra w) s = res ((a.setWidth (8 * 2 ^ w.val)).signExtend 64) ∧
    exec (.zext x rd ra w) s = res ((a.setWidth (8 * 2 ^ w.val)).setWidth 64)

/-- R196, R168: the divisions, with their results and FLG.DZ for a zero divisor. -/
def Obligations.IntegerDivision : Prop :=
  ∀ (x : Issue) (rd ra rb : Fin 32) (s : State), Runs x s →
    let k := ctxOf s x.core
    let a := getG k ra
    let b := getG k rb
    let res (v z : Dword) : Host.Outcome State Fault Refusal :=
      .next (goOn s x.core (if b = 0 then { putG k rd z with flg := k.flg ||| BitVec.ofNat 32 flgDZ } else putG k rd v))
    exec (.div x rd ra rb) s = res (BitVec.ofInt 64 (a.toInt.tdiv b.toInt)) 0 ∧
    exec (.divu x rd ra rb) s = res (BitVec.ofNat 64 (a.toNat / b.toNat)) 0 ∧
    exec (.rem x rd ra rb) s = res (BitVec.ofInt 64 (a.toInt.tmod b.toInt)) a ∧
    exec (.remu x rd ra rb) s = res (BitVec.ofNat 64 (a.toNat % b.toNat)) a

/-- R197: the immediate instructions. -/
def Obligations.ImmediateResults : Prop :=
  ∀ (x : Issue) (rd ra : Fin 32) (imm : BitVec 16) (big : BitVec 21) (n : Fin 64) (s : State), Runs x s →
    let k := ctxOf s x.core
    let a := getG k ra
    let i := imm.signExtend 64
    let z := imm.setWidth 64
    let res (v : Dword) : Host.Outcome State Fault Refusal := .next (goOn s x.core (putG k rd v))
    exec (.addi x rd ra imm) s = res (a + i) ∧
    exec (.slti x rd ra imm) s = res (if a.toInt < i.toInt then 1 else 0) ∧
    exec (.sltiu x rd ra imm) s = res (if a.toNat < i.toNat then 1 else 0) ∧
    exec (.andi x rd ra imm) s = res (a &&& z) ∧
    exec (.ori x rd ra imm) s = res (a ||| z) ∧
    exec (.xori x rd ra imm) s = res (a ^^^ z) ∧
    exec (.shli x rd ra n) s = res (a <<< n.val) ∧
    exec (.shri x rd ra n) s = res (a >>> n.val) ∧
    exec (.sari x rd ra n) s = res (a.sshiftRight n.val) ∧
    exec (.lui x rd big) s = res (BitVec.ofInt 64 (big.toInt * 2 ^ 11))

/-- R198: the fixed-point instructions, saturated to 32 bits with FLG.SAT, and FLG.DZ for a zero divisor. -/
def Obligations.FixedPointResults : Prop :=
  ∀ (x : Issue) (rd ra rb : Fin 32) (sh : Fin 63) (s : State), Runs x s →
    let k := ctxOf s x.core
    let a := ((getG k ra).setWidth 32).toInt
    let b := ((getG k rb).setWidth 32).toInt
    let res (v : Int) (more : Nat) : Host.Outcome State Fault Refusal :=
      let r := max (-2 ^ 31) (min (2 ^ 31 - 1) v)
      let f := (if r = v then 0 else flgSAT) ||| more
      .next (goOn s x.core { putG k rd (BitVec.ofInt 64 r) with flg := k.flg ||| BitVec.ofNat 32 f })
    exec (.qadd x rd ra rb) s = res (a + b) 0 ∧
    exec (.qsub x rd ra rb) s = res (a - b) 0 ∧
    exec (.qmul x rd ra rb sh) s = res (roundEven (a * b) sh.val) 0 ∧
    exec (.qshl x rd ra sh) s = res (a * 2 ^ sh.val) 0 ∧
    exec (.qshr x rd ra sh) s = res (roundEven a sh.val) 0 ∧
    exec (.qneg x rd ra) s = res (-a) 0 ∧
    exec (.qabs x rd ra) s = res (a.natAbs : Int) 0 ∧
    exec (.qmin x rd ra rb) s = res (if a < b then a else b) 0 ∧
    exec (.qmax x rd ra rb) s = res (if a < b then b else a) 0 ∧
    (b ≠ 0 → exec (.qdiv x rd ra rb sh) s = res (divEven ((if b < 0 then -a else a) * 2 ^ sh.val) b.natAbs) 0) ∧
    (b = 0 → exec (.qdiv x rd ra rb sh) s = res (if a = 0 then 0 else if 0 < a then 2 ^ 31 else -2 ^ 31 - 1) flgDZ)

/-- R169, R199, R200: every binary64 instruction on a core that executes completes: its 64-bit result goes to its one
destination and its flags are ORed into FLG. A NaN operand gives the quiet NaN of R169 (NV for a signalling one), the
comparisons give 0 for it, FMIN and FMAX give the other operand, FNEG and FABS change the sign of any other operand alone,
the zeros compare equal, and the moves copy 64 bits. -/
def Obligations.Binary64Results : Prop :=
  ∀ (x : Issue) (fd fa fb : Fin 16) (rd ra : Fin 32) (n : Fin 32) (s : State), Runs x s →
    let k := ctxOf s x.core
    let a := getD k fa
    let b := getD k fb
    let toD (r : Dword × Nat) : Host.Outcome State Fault Refusal :=
      .next (goOn s x.core { putD k fd r.1 with flg := k.flg ||| BitVec.ofNat 32 r.2 })
    let toG (r : Dword × Nat) : Host.Outcome State Fault Refusal :=
      .next (goOn s x.core { putG k rd r.1 with flg := k.flg ||| BitVec.ofNat 32 r.2 })
    let isNan (v : Dword) : Bool :=
      decide (v &&& 0x7FF0000000000000#64 = 0x7FF0000000000000#64) && decide (v &&& 0x000FFFFFFFFFFFFF#64 ≠ 0)
    let sig (v : Dword) : Bool := isNan v && !v.getLsbD 51
    let quiet : Dword := 0x7FF8000000000000#64
    let nv (v : Dword) : Nat := if sig v = true then 4 else 0
    let nv2 : Nat := if (sig a || sig b) = true then 4 else 0
    let zeros : Bool := decide (a.toNat % 2 ^ 63 = 0) && decide (b.toNat % 2 ^ 63 = 0)
    let bit (c : Bool) : Dword := if c = true then 1 else 0
    exec (.fadd x fd fa fb) s = toD (f64Add a b) ∧
    exec (.fsub x fd fa fb) s = toD (f64Add a (b ^^^ 0x8000000000000000#64)) ∧
    exec (.fmul x fd fa fb) s = toD (f64Mul a b) ∧
    exec (.fdiv x fd fa fb) s = toD (f64Div a b) ∧
    exec (.fsqrt x fd fa) s = toD (f64Sqrt a) ∧
    ((isNan a || isNan b) = true →
      f64Add a b = (quiet, nv2) ∧ f64Mul a b = (quiet, nv2) ∧ f64Div a b = (quiet, nv2)) ∧
    (isNan a = true → f64Sqrt a = (quiet, nv a)) ∧
    (a.toNat % 2 ^ 63 = 0 → f64Sqrt a = (a, 0)) ∧
    (isNan a = false → 2 ^ 63 < a.toNat → f64Sqrt a = (quiet, 4)) ∧
    (isNan a = true → isNan b = true →
      exec (.fmin x fd fa fb) s = toD (quiet, nv2) ∧ exec (.fmax x fd fa fb) s = toD (quiet, nv2)) ∧
    (isNan a = true → isNan b = false →
      exec (.fmin x fd fa fb) s = toD (b, nv2) ∧ exec (.fmax x fd fa fb) s = toD (b, nv2)) ∧
    (isNan a = false → isNan b = true →
      exec (.fmin x fd fa fb) s = toD (a, nv2) ∧ exec (.fmax x fd fa fb) s = toD (a, nv2)) ∧
    (isNan a = false → isNan b = false →
      exec (.fmin x fd fa fb) s = toD (if f64Less a b = true then a else b, 0) ∧
      exec (.fmax x fd fa fb) s = toD (if f64Less a b = true then b else a, 0)) ∧
    (isNan a = true → exec (.fneg x fd fa) s = toD (quiet, nv a) ∧ exec (.fabs x fd fa) s = toD (quiet, nv a)) ∧
    (isNan a = false → exec (.fneg x fd fa) s = toD (a ^^^ 0x8000000000000000#64, 0) ∧
      exec (.fabs x fd fa) s = toD (a &&& 0x7FFFFFFFFFFFFFFF#64, 0)) ∧
    ((isNan a || isNan b) = true → exec (.feq x rd fa fb) s = toG (0, nv2) ∧
      exec (.flt x rd fa fb) s = toG (0, 4) ∧ exec (.fle x rd fa fb) s = toG (0, 4)) ∧
    (isNan a = false → isNan b = false →
      exec (.feq x rd fa fb) s = toG (bit (decide (a = b) || zeros), 0) ∧
      exec (.flt x rd fa fb) s = toG (bit (f64Less a b && !zeros), 0) ∧
      exec (.fle x rd fa fb) s = toG (bit (f64Less a b || decide (a = b) || zeros), 0)) ∧
    exec (.fcvtdi x fd ra) s = toD (f64OfInt (getG k ra).toInt) ∧
    exec (.fcvtid x rd fa) s = toG (f64ToInt a) ∧ (isNan a = true → f64ToInt a = (0, 4)) ∧
    exec (.fcvtdq x fd ra n) s = toD (f64OfQ ((getG k ra).setWidth 32).toInt n.val, 0) ∧
    exec (.fcvtqd x rd fa n) s = toG (f64ToQ a n.val) ∧ (isNan a = true → f64ToQ a n.val = (0, 4)) ∧
    exec (.fmvdg x fd ra) s = toD (getG k ra, 0) ∧
    exec (.fmvgd x rd fa) s = toG (a, 0)

/-! ### Irtum: control transfer, memory and the system -/

/-- R202: a conditional branch goes on at PC + sext(IMM16)·4 when its condition holds, else at PC + 4. -/
def Obligations.BranchResults : Prop :=
  ∀ (x : Issue) (ra rb : Fin 32) (imm : BitVec 16) (s : State), Runs x s →
    let k := ctxOf s x.core
    let a := getG k ra
    let b := getG k rb
    let to_ (taken : Prop) [Decidable taken] : Host.Outcome State Fault Refusal :=
      .next (goTo s x.core (k.pc + (if taken then BitVec.ofInt 64 (imm.toInt * 4) else 4)))
    exec (.beq x ra rb imm) s = to_ (a = b) ∧
    exec (.bne x ra rb imm) s = to_ (a ≠ b) ∧
    exec (.blt x ra rb imm) s = to_ (a.toInt < b.toInt) ∧
    exec (.bge x ra rb imm) s = to_ (b.toInt ≤ a.toInt) ∧
    exec (.bltu x ra rb imm) s = to_ (a.toNat < b.toNat) ∧
    exec (.bgeu x ra rb imm) s = to_ (b.toNat ≤ a.toNat)

/-- R203: the unconditional transfers, the link in g31, the target of CALLR from g[RS1] before g31 is written; and ALIGN
with DETAIL 0 for a target that is not a multiple of 4. -/
def Obligations.JumpResults : Prop :=
  ∀ (x : Issue) (ra : Fin 32) (imm : BitVec 16) (far : BitVec 26) (s : State), Runs x s →
    let k := ctxOf s x.core
    let there := k.pc + BitVec.ofInt 64 (far.toInt * 4)
    let target := getG k ra + imm.signExtend 64
    let linked := putG k 31 (k.pc + 4)
    exec (.j x far) s = .next (goTo s x.core there) ∧
    exec (.call x far) s = .next (goOnAt s x.core linked there) ∧
    (target.toNat % 4 = 0 → exec (.jr x ra imm) s = .next (goTo s x.core target)) ∧
    (target.toNat % 4 = 0 → exec (.callr x ra imm) s = .next (goOnAt s x.core linked target)) ∧
    (target.toNat % 4 ≠ 0 → exec (.jr x ra imm) s = .next (raise s x.core ⟨0x03, 0, target, false⟩) ∧
      exec (.callr x ra imm) s = .next (raise s x.core ⟨0x03, 0, target, false⟩))

/-- R201: a load in scan mode whose address passes the checks writes the bytes at it, converted, to its register. -/
def Obligations.ScanLoads : Prop :=
  ∀ (x : Issue) (rd ra : Fin 32) (fd : Fin 16) (imm : BitVec 16) (s : State) (t : Nat) (sc : Scan),
    Runs x s → scanTask s x.core = some t → scanOf s t = some sc →
    let k := ctxOf s x.core
    let ad := getG k ra + imm.signExtend 64
    let v (n : Nat) : Nat := leNat (scanBytes s t sc ad.toNat n)
    let ok (n : Nat) : Prop := scanCheck s t .load ad n = none
    let res (w : Dword) : Host.Outcome State Fault Refusal := .next (goOn s x.core (putG k rd w))
    (ok 1 → exec (.lb x rd ra imm) s = res ((BitVec.ofNat 8 (v 1)).signExtend 64)) ∧
    (ok 1 → exec (.lbu x rd ra imm) s = res (BitVec.ofNat 64 (v 1))) ∧
    (ok 2 → exec (.lh x rd ra imm) s = res ((BitVec.ofNat 16 (v 2)).signExtend 64)) ∧
    (ok 2 → exec (.lhu x rd ra imm) s = res (BitVec.ofNat 64 (v 2))) ∧
    (ok 4 → exec (.lw x rd ra imm) s = res ((BitVec.ofNat 32 (v 4)).signExtend 64)) ∧
    (ok 4 → exec (.lwu x rd ra imm) s = res (BitVec.ofNat 64 (v 4))) ∧
    (ok 8 → exec (.ld x rd ra imm) s = res (BitVec.ofNat 64 (v 8))) ∧
    (ok 1 → exec (.lbool x rd ra imm) s = res (if v 1 = 0 then 0 else 1)) ∧
    (ok 8 → exec (.fld x fd ra imm) s = .next (goOn s x.core (putD k fd (BitVec.ofNat 64 (v 8)))))

/-- R172, R201: loads and stores of supervisor code on aligned DRAM. -/
def Obligations.SupervisorMemory : Prop :=
  ∀ (x : Issue) (rd rt ra : Fin 32) (ft : Fin 16) (imm : BitVec 16) (s : State), Runs x s →
    let k := ctxOf s x.core
    let ad := getG k ra + imm.signExtend 64
    let ok (n : Nat) : Prop := inDram s x.core ad n
    let v (n : Nat) : Nat := memLe s.mem ad.toNat n
    let load (w : Dword) : Host.Outcome State Fault Refusal := .next (goOn s x.core (putG k rd w))
    let store (n : Nat) (w : Dword) : Host.Outcome State Fault Refusal :=
      .next (goTo { s with mem := memPut s.mem ad.toNat (leBytes n w.toNat) } x.core (k.pc + 4))
    (ok 1 → exec (.lbu x rd ra imm) s = load (BitVec.ofNat 64 (v 1)) ∧
      exec (.lb x rd ra imm) s = load ((BitVec.ofNat 8 (v 1)).signExtend 64) ∧
      exec (.lbool x rd ra imm) s = load (if v 1 = 0 then 0 else 1) ∧
      exec (.sb x rt ra imm) s = store 1 (getG k rt)) ∧
    (ok 2 → exec (.lhu x rd ra imm) s = load (BitVec.ofNat 64 (v 2)) ∧
      exec (.lh x rd ra imm) s = load ((BitVec.ofNat 16 (v 2)).signExtend 64) ∧
      exec (.sh x rt ra imm) s = store 2 (getG k rt)) ∧
    (ok 4 → exec (.lwu x rd ra imm) s = load (BitVec.ofNat 64 (v 4)) ∧
      exec (.lw x rd ra imm) s = load ((BitVec.ofNat 32 (v 4)).signExtend 64) ∧
      exec (.sw x rt ra imm) s = store 4 (getG k rt)) ∧
    (ok 8 → exec (.ld x rd ra imm) s = load (BitVec.ofNat 64 (v 8)) ∧
      exec (.sd x rt ra imm) s = store 8 (getG k rt) ∧
      exec (.fsd x ft ra imm) s = store 8 (getD k ft))

/-- R201, R176: a store in scan mode to the task's own page takes effect at once, on exactly its bytes. -/
def Obligations.ScanStores : Prop :=
  ∀ (x : Issue) (rt ra : Fin 32) (ft : Fin 16) (imm : BitVec 16) (s : State) (t : Nat) (sc : Scan), Runs x s →
    let k := ctxOf s x.core
    let a := (getG k ra + imm.signExtend 64).toNat
    let stores (i : Instr) (n : Nat) (w : Dword) : Prop := ownBytes s x.core t sc a n →
      Gives i s fun u =>
        (∀ y, memRead u.inst y = if a ≤ y ∧ y < a + n then BitVec.ofNat 8 (w.toNat / 256 ^ (y - a)) else memRead s.inst y) ∧
        { ctxOf u x.core with pc := k.pc } = k ∧ (ctxOf u x.core).pc = k.pc + 4 ∧
        u.regs = s.regs ∧ u.mem = s.mem ∧ u.mbox = s.mbox ∧ u.outImg = s.outImg ∧ u.inImg = s.inImg
    stores (.sb x rt ra imm) 1 (getG k rt) ∧ stores (.sh x rt ra imm) 2 (getG k rt) ∧
    stores (.sw x rt ra imm) 4 (getG k rt) ∧ stores (.sd x rt ra imm) 8 (getG k rt) ∧
    stores (.fsd x ft ra imm) 8 (getD k ft)

/-- R205: an atomic in scan mode on the task's own page writes the new value and gives the old one. -/
def Obligations.AtomicResults : Prop :=
  ∀ (x : Issue) (rd ra rb : Fin 32) (wide : Bool) (s : State) (t : Nat) (sc : Scan), Runs x s →
    let k := ctxOf s x.core
    let n := if wide then 8 else 4
    let w := 8 * n
    let a := (getG k ra).toNat
    let old := memLe s.inst a n
    let b := (getG k rb).toNat % 2 ^ w
    let e := (getG k rd).toNat % 2 ^ w
    let less (p q : Nat) : Prop := (BitVec.ofNat w p).toInt < (BitVec.ofNat w q).toInt
    let gives (i : Instr) (new : Nat) : Prop := Gives i s fun u =>
      (∀ y, memRead u.inst y = if a ≤ y ∧ y < a + n then BitVec.ofNat 8 (new / 256 ^ (y - a)) else memRead s.inst y) ∧
      ctxOf u x.core = { putG k rd ((BitVec.ofNat w old).signExtend 64) with pc := k.pc + 4 }
    ownBytes s x.core t sc a n →
    gives (.atcas x rd ra rb wide) (if old = e then b else old) ∧
    gives (.atswp x rd ra rb wide) b ∧
    gives (.atadd x rd ra rb wide) ((old + b) % 2 ^ w) ∧
    gives (.atand x rd ra rb wide) (old &&& b) ∧
    gives (.ator x rd ra rb wide) (old ||| b) ∧
    gives (.atxor x rd ra rb wide) (old ^^^ b) ∧
    (less b old → gives (.atmin x rd ra rb wide) b ∧ gives (.atmax x rd ra rb wide) old) ∧
    (¬ less b old → gives (.atmin x rd ra rb wide) old ∧ gives (.atmax x rd ra rb wide) b) ∧
    gives (.atminu x rd ra rb wide) (min old b) ∧
    gives (.atmaxu x rd ra rb wide) (max old b)

/-- R166, R207, R208: in supervisor mode MFSR reads the exception registers and MTSR writes them, reserved bits discard
the write, and an EXRET restores STAT and goes to g[RS1]; FENCE goes on, and IDLEW on a system core waits. -/
def Obligations.SupervisorInstructions : Prop :=
  ∀ (x : Issue) (rd ra : Fin 32) (s : State), Runs x s → isSup s x.core = true →
    let q := coreOf s x.core
    let k := q.ctx
    let v := getG k ra
    let reads (n : BitVec 8) (w : Dword) : Prop := exec (.mfsr x rd n) s = .next (goOn s x.core (putG k rd w))
    let writes (n : BitVec 8) (q' : Core) : Prop :=
      exec (.mtsr x n ra) s = .next (goTo (modCore s x.core fun _ => q') x.core (k.pc + 4))
    reads 0x00 (q.stat.setWidth 64) ∧ reads 0x05 (k.flg.setWidth 64) ∧ reads 0x10 q.epc ∧
    reads 0x11 (q.ecause.setWidth 64) ∧ reads 0x12 q.eaddr ∧ reads 0x13 q.vbase ∧ reads 0x14 (q.sstat.setWidth 64) ∧
    writes 0x10 { q with epc := v } ∧ writes 0x12 { q with eaddr := v } ∧
    (v.toNat % 4096 = 0 → writes 0x13 { q with vbase := v }) ∧
    (v.toNat % 4096 ≠ 0 → exec (.mtsr x 0x13 ra) s = .next (goTo (cfgErr s) x.core (k.pc + 4))) ∧
    (v.toNat % 2 ^ 32 < 2 → writes 0x14 { q with sstat := v.setWidth 32 }) ∧
    exec (.exret x ra) s = .next (goTo (modCore s x.core fun _ => { q with stat := q.sstat }) x.core v) ∧
    exec (.fence x) s = .next (goTo s x.core (k.pc + 4)) ∧
    (4 ≤ x.core.val → s.irqs = [] → Gives (.idlew x) s fun u =>
      (coreOf u x.core).waiting = true ∧ (ctxOf u x.core).pc = k.pc + 4) ∧
    (4 ≤ x.core.val → s.irqs ≠ [] → exec (.idlew x) s = .next (goTo s x.core (k.pc + 4)))

/-- R182, R184, R513: an exception on a core that runs no scan: what is saved, the mode, and the vector. BREAK raises
code 0x08 with its immediate as DETAIL, and an undefined word raises ILLEGAL with the word in EADDR; a pending interrupt
line raises IRQ on a system core and is no longer pending. -/
def Obligations.ExceptionEntry : Prop :=
  ∀ (x : Issue) (num : BitVec 8) (word : Word) (s : State),
    let q := coreOf s x.core
    let enters (i : Instr) (s : State) (code detail : Nat) (ea : Dword) (t : State) : Prop :=
      exec i s = .next t ∧ coreOf t x.core = { q with
        epc := q.ctx.pc, ecause := BitVec.ofNat 32 (detail * 256 + code), eaddr := ea, sstat := q.stat, stat := q.stat ||| 1,
        waiting := false, ctx := { q.ctx with pc := q.vbase + BitVec.ofNat 64 (0x40 * code) } } ∧ OnlyCore x.core s t
    (Runs x s → q.running = none → ∃ t, enters (.brk x num) s 0x08 num.toNat 0 t) ∧
    (Runs x s → q.running = none → wordDefined (isSup s x.core) (x.core.val ≥ 4) word = false →
      ∃ t, enters (.undefinedInstruction x word) s 0x01 0 (word.setWidth 64) t) ∧
    (s.runtimeUp = true → 4 ≤ x.core.val → q.running = none → num.toNat ∈ s.irqs → ∃ t, num.toNat ∉ t.irqs ∧
      exec (.irqEntry x.core num) s = .next t ∧ coreOf t x.core = { q with
        epc := q.ctx.pc, ecause := BitVec.ofNat 32 (num.toNat * 256 + 0x20), eaddr := 0, sstat := q.stat, stat := q.stat ||| 1,
        waiting := false, ctx := { q.ctx with pc := q.vbase + BitVec.ofNat 64 (0x40 * 0x20) } })

/-! ### Irtum: control instructions -/

/-- R211 to R215: the tag instructions on a declared tag that is not a ts80. An STT to a tag that the task owns is read
back by the rest of the scan. -/
def Obligations.TagResults : Prop :=
  ∀ (x : Issue) (rd rt ra : Fin 32) (imm : BitVec 16) (s : State) (t : Nat) (sc : Scan) (e : TagRec),
    Runs x s → scanTask s x.core = some t → scanOf s t = some sc → t < 16 →
    let k := ctxOf s x.core
    let ix := getG k ra + imm.setWidth 64
    ix.toNat ≤ 0xFFFE → tagOf s ix.toNat = some e → e.typ ≠ 12 →
    let own := leNat (tagBytes s t sc e)
    let res (i : Instr) (w : Dword) : Prop := exec i s = .next (goOn s x.core (putG k rd w))
    let n := tagSize e.typ
    let v := getG k rt
    res (.ldt x rd ra imm) (tagConv e.typ own) ∧
    (∀ f, e.out = false → forceOn sc.frozenForces 0 e.tag = some f → res (.ldtf x rd ra imm) (tagConv e.typ f.value)) ∧
    ((e.out = true ∨ forceOn sc.frozenForces 0 e.tag = none) → res (.ldtf x rd ra imm) (tagConv e.typ own)) ∧
    (e.out = false → res (.tfst x rd ra imm) (if (forceOn sc.frozenForces 0 e.tag).isSome then 1 else 0)) ∧
    (e.out = true → ∀ p, s.prog = some p → res (.tfst x rd ra imm)
      (if (drivenBy p e.tag).any (fun ch => (forceOn sc.frozenForces 1 ch).isSome) then 2 else 0)) ∧
    (e.out = true → e.owner = t → e.off % n = 0 → (∀ j < n, tagAt s true (e.off + j) = some e) →
      winOut + e.off + n ≤ 0x19080000 → sc.buf.length < 4096 → fetchExc s x.core (k.pc + 4) = none →
      Gives (.stt x rt ra imm) s fun u => ∃ sc', scanOf u t = some sc' ∧ sc'.undo = sc.undo ∧
        scanBytes u t sc' (winOut + e.off) n = leBytes n (if e.typ = 8 then (if v = 0 then 0 else 1) else v.toNat) ∧
        ctxOf u x.core = { k with pc := k.pc + 4 } ∧ SameMemory s u)

/-- R219: the timers, on a block of the task's own page: what is written back, and Q. -/
def Obligations.TimerResults : Prop :=
  ∀ (x : Issue) (rd ra rb : Fin 32) (s : State) (t : Nat) (sc : Scan), Runs x s →
    let k := ctxOf s x.core
    let a := (getG k ra).toNat
    let b := timerOf (memBytes s.inst a 32)
    let now := sc.pstart % 2 ^ 64
    let dt := if b.init then (tdiff now b.last).toNat else 0
    let inp := decide (getG k rb ≠ 0)
    let grown := min (b.et + dt) b.pt
    let gives (i : Instr) (et : Nat) (q run : Bool) : Prop := Gives i s fun u =>
      memBytes u.inst a 32 = timerBytes { init := true, running := run, inLast := inp, q := q, pt := b.pt, et := et, last := now } ∧
      (∀ y, (y < a ∨ a + 32 ≤ y) → memRead u.inst y = memRead s.inst y) ∧
      ctxOf u x.core = { putG k rd (if q then 1 else 0) with pc := k.pc + 4 }
    let on := inp && b.inLast
    let start := !b.running && inp && !b.inLast
    let et1 := if start then 0 else if b.running then grown else b.et
    let run1 := (start || b.running) && decide (et1 < b.pt)
    ownBytes s x.core t sc a 32 →
    gives (.tmrTon x rd ra rb) (if on then grown else 0) (inp && decide (b.pt ≤ if on then grown else 0)) false ∧
    (inp = true → gives (.tmrTof x rd ra rb) 0 true false) ∧
    (inp = false → b.inLast = true → gives (.tmrTof x rd ra rb) 0 (decide (0 < b.pt)) false) ∧
    (inp = false → b.inLast = false → b.q = true → gives (.tmrTof x rd ra rb) grown (decide (grown < b.pt)) false) ∧
    (inp = false → b.inLast = false → b.q = false → gives (.tmrTof x rd ra rb) b.et false false) ∧
    gives (.tmrTp x rd ra rb) (if run1 = false ∧ inp = false then 0 else et1) run1 run1

/-- R220: the edge detectors, on a block of the task's own page. -/
def Obligations.EdgeResults : Prop :=
  ∀ (x : Issue) (rd ra rb : Fin 32) (s : State) (t : Nat) (sc : Scan), Runs x s →
    let k := ctxOf s x.core
    let a := (getG k ra).toNat
    let prev := decide (memLe s.inst a 4 % 2 = 1)
    let inp := decide (getG k rb ≠ 0)
    let gives (i : Instr) (q : Bool) : Prop := Gives i s fun u =>
      memLe u.inst a 4 = (if inp then 1 else 0) ∧ (∀ y, (y < a ∨ a + 4 ≤ y) → memRead u.inst y = memRead s.inst y) ∧
      ctxOf u x.core = { putG k rd (if q then 1 else 0) with pc := k.pc + 4 }
    ownBytes s x.core t sc a 4 →
    gives (.edgeRise x rd ra rb) (inp && !prev) ∧
    gives (.edgeFall x rd ra rb) (prev && !inp) ∧
    gives (.edgeAny x rd ra rb) (xor inp prev)

/-- R224, R225, R228: an ECALL that meets none of the ENGINE cases captures its body, gives the next ticket and leaves
every memory alone; one that names an undeclared index or leaves the submit area raises ENGINE with DETAIL 1. -/
def Obligations.EngineCallCaptured : Prop :=
  ∀ (x : Issue) (rd ra rb : Fin 32) (engine : Fin 32) (fn : Fin 64) (s : State) (t : Nat) (sc : Scan),
    Runs x s → scanTask s x.core = some t → scanOf s t = some sc → t < 16 → ecallDefined engine.val fn.val = true →
    let k := ctxOf s x.core
    let off := (getG k ra).toNat
    let len := (getG k rb).toNat
    let at_ := winMbox + 0x10000 * t + off
    let tk := if sc.ticket % 65536 = 65535 then 1 else sc.ticket % 65536 + 1
    (off % 8 = 0 → 0x1000 ≤ off → off + len ≤ 0x8000 →
      ecallLenOk engine.val fn.val len (memLe s.mbox at_ 4 / 65536) = true → sc.calls.length < 32 →
      (sc.calls.map (·.body.length)).sum + len ≤ 28672 → fetchExc s x.core (k.pc + 4) = none →
      Gives (.ecall x rd ra rb engine fn) s fun u => (∃ sc', scanOf u t = some sc' ∧ sc'.ticket = tk ∧
        sc'.calls = { ticket := tk, engine := engine.val, fn := fn.val, body := memBytes s.mbox at_ len } :: sc.calls) ∧
        ctxOf u x.core = { putG k rd (BitVec.ofNat 64 tk) with pc := k.pc + 4 } ∧ SameMemory s u) ∧
    ((off % 8 ≠ 0 ∨ off < 0x1000 ∨ 0x8000 < off + len) → exec (.ecall x rd ra rb engine fn) s =
      .next (raise s x.core ⟨0x06, 1, BitVec.ofNat 64 (winMbox + 0x10000 * t) + getG k ra, false⟩))

/-- R234, R235: what EREAD gives of the view frozen for the scan. -/
def Obligations.EngineReads : Prop :=
  ∀ (x : Issue) (rd ra : Fin 32) (s : State) (t : Nat) (sc : Scan),
    Runs x s → scanTask s x.core = some t → scanOf s t = some sc →
    let k := ctxOf s x.core
    let i := (getG k ra).toNat
    let v := sc.view
    let res (c : Instr) (w : Dword) : Prop := exec c s = .next (goOn s x.core (putG k rd w))
    let int (z : Int) : Dword := BitVec.ofInt 64 z
    let nat (z : Nat) : Dword := BitVec.ofNat 64 z
    (∀ st n, v.hasModel = true → v.state = some st → st.nodes[i]? = some n →
      res (.ereadNode x rd ra 0) (int n.p) ∧ res (.ereadNode x rd ra 1) (int n.t) ∧
      res (.ereadNode x rd ra 2) (nat n.flags) ∧ res (.ereadNode x rd ra 3) (int n.imbal)) ∧
    (∀ st b, v.hasModel = true → v.state = some st → st.branches[i]? = some b →
      res (.ereadBranch x rd ra 0) (int b.q) ∧ res (.ereadBranch x rd ra 1) (int b.tOut) ∧
      res (.ereadBranch x rd ra 2) (int b.dp) ∧ res (.ereadBranch x rd ra 3) (nat b.flags)) ∧
    (v.state = none → ∀ q : Fin 4, res (.ereadNode x rd ra (BitVec.ofNat 6 q.val)) 0 ∧
      res (.ereadBranch x rd ra (BitVec.ofNat 6 q.val)) 0) ∧
    (∀ n, v.hasModel = true → v.nodeIds.findIdx? (· = i % 2 ^ 32) = some n → res (.ereadNodeix x rd ra 0) (nat n)) ∧
    (∀ n, v.hasModel = true → v.branchIds.findIdx? (· = i % 2 ^ 32) = some n → res (.ereadBranchix x rd ra 0) (nat n)) ∧
    (v.hasModel = false → res (.ereadNodeix x rd ra 0) (BitVec.allOnes 64) ∧
      res (.ereadBranchix x rd ra 0) (BitVec.allOnes 64)) ∧
    (∀ st, i = 0 → v.state = some st → res (.ereadState x rd ra 0) 1 ∧ res (.ereadState x rd ra 1) (nat st.cycle) ∧
      res (.ereadState x rd ra 2) (nat st.hs) ∧ res (.ereadState x rd ra 3) (nat st.ht)) ∧
    (∀ d, i ≤ 159 → v.dec = some d → res (.ereadDec x rd ra 0) (int (d.values.getD i 0))) ∧
    (i ≤ 4095 → res (.ereadDemand x rd ra 0) (int (amGet (fun _ => 0) v.demThermal i))) ∧
    (i ≤ 511 → res (.ereadLoop x rd ra 1) (nat (amGet (fun _ => (0, 0)) v.loops i).2)) ∧
    (i ≤ 63 → res (.ereadGroup x rd ra 1) (nat (amGet (fun _ => (0, 0)) v.groups i).2)) ∧
    (i ≤ 15 → v.hasModel = true → res (.ereadExp x rd ra 0) (int (v.exps.getD i 0))) ∧
    (15 < i → exec (.ereadExp x rd ra 0) s = .next (raise s x.core ⟨0x06, 5, getG k ra, false⟩))

/-- R221: CKPT saves the registers, the ticket count and PC + 4, and marks the logs. -/
def Obligations.CheckpointSaved : Prop :=
  ∀ (x : Issue) (s : State) (t : Nat) (sc : Scan),
    Runs x s → scanTask s x.core = some t → scanOf s t = some sc → t < 16 →
    let k := ctxOf s x.core
    fetchExc s x.core (k.pc + 4) = none →
    Gives (.ckpt x) s fun u => scanOf u t = some { sc with ckpt :=
        { ctx := { k with pc := k.pc + 4 }, ticket := sc.ticket, undoMark := sc.undo.length, bufMark := sc.buf.length,
          callMark := sc.calls.length } } ∧
      ctxOf u x.core = { k with pc := k.pc + 4 } ∧ SameMemory s u

/-- R187, R222: the first hardware fault of a scan, met by any instruction that goes on, returns the core to the
checkpoint: its registers, the tickets and calls, the buffer, and every line logged since. -/
def Obligations.RerollRestores : Prop :=
  ∀ (x : Issue) (d : ResidueUnit) (s : State) (t : Nat) (sc : Scan),
    live s x.core = true → x.fault = .residue d → scanTask s x.core = some t → scanOf s t = some sc → t < 16 →
    sc.faulted = none →
    let since := sc.undo.take (sc.undo.length - sc.ckpt.undoMark)
    ∀ i ∈ [Instr.fence x, Instr.ckpt x, Instr.add x 1 2 3], Gives i s fun u =>
      ctxOf u x.core = sc.ckpt.ctx ∧ isSup u x.core = false ∧
      u.inst = (restoreLines s since).inst ∧ u.mbox = (restoreLines s since).mbox ∧ u.mem = s.mem ∧
      getF u F.SCN_CNT_REROLL_COUNT = (getF s F.SCN_CNT_REROLL_COUNT + 1) % 2 ^ 32 ∧
      ∃ sc', scanOf u t = some sc' ∧ sc'.ticket = sc.ckpt.ticket ∧ sc'.info % 2 = 1 ∧
        sc'.undo = sc.undo.drop (sc.undo.length - sc.ckpt.undoMark) ∧ sc'.buf = sc.buf.drop (sc.buf.length - sc.ckpt.bufMark) ∧
        sc'.calls = sc.calls.drop (sc.calls.length - sc.ckpt.callMark)

/-- R176, R186: the line that a store logs gives every byte of it back. -/
def Obligations.UndoGivesBack : Prop :=
  ∀ (s u : State) (t : Nat) (sc : Scan) (ad : Dword) (bs : List Byte),
    t < 16 → scanOf s t = some sc → storeLogged s t sc ad bs = .ok u → ad.toNat % 64 + bs.length ≤ 64 →
    (sc.undo.take (sc.undo.length - sc.ckpt.undoMark)).any (fun e => e.line = lineOf ad.toNat) = false →
    ∃ e, scanOf u t = some { sc with undo := e :: sc.undo } ∧
      ∀ y, memRead (restoreLines u [e]).inst y = memRead s.inst y ∧ memRead (restoreLines u [e]).mbox y = memRead s.mbox y

/-- R223: SCANEND commits the call queue and the tickets, and ends the scan. -/
def Obligations.ScanEndCommits : Prop :=
  ∀ (x : Issue) (ns : Nat) (s : State) (t : Fin 16) (sc : Scan),
    Runs x s → scanTask s x.core = some t.val → scanOf s t.val = some sc →
    Gives (.scanend x ns) s fun u => scanOf u t.val = none ∧ (taskOf u t).committed = true ∧ (taskOf u t).pendEmit = true ∧
      (taskOf u t).pendCalls = sc.calls.reverse ∧ (taskOf u t).tickets = sc.ticket ∧
      (taskOf u t).pendShared = (bufCells sc).filter (fun c => c.1 < winOut)

/-- The register instructions change one register of their core and its PC, and nothing else. -/
def Obligations.RegisterFrame : Prop :=
  ∀ (x : Issue) (rd ra rb : Fin 32) (imm : BitVec 16) (big : BitVec 21) (n : Fin 64) (w : Fin 3) (s u : State),
    Runs x s → fetchExc s x.core ((ctxOf s x.core).pc + 4) = none →
    ∀ i ∈ [Instr.add x rd ra rb, .sub x rd ra rb, .and x rd ra rb, .or x rd ra rb, .xor x rd ra rb, .shl x rd ra rb,
        .shr x rd ra rb, .sar x rd ra rb, .slt x rd ra rb, .sltu x rd ra rb, .mul x rd ra rb, .mulh x rd ra rb,
        .mulhu x rd ra rb, .min x rd ra rb, .max x rd ra rb, .minu x rd ra rb, .maxu x rd ra rb, .sext x rd ra w,
        .zext x rd ra w, .addi x rd ra imm, .slti x rd ra imm, .sltiu x rd ra imm, .andi x rd ra imm, .ori x rd ra imm,
        .xori x rd ra imm, .shli x rd ra n, .shri x rd ra n, .sari x rd ra n, .lui x rd big],
      exec i s = .next u → OnlyCore x.core s u ∧ KeepsRegs x.core [rd] s u ∧ SameMemory s u ∧
        getG (ctxOf u x.core) 0 = 0

/-- The flag-setting instructions: they write one register of their core, set flags and clear none, and nothing else. -/
def Obligations.FlagFrame : Prop :=
  ∀ (x : Issue) (rd ra rb : Fin 32) (fd fa fb : Fin 16) (sh : Fin 63) (n : Fin 32) (s u : State),
    Runs x s → fetchExc s x.core ((ctxOf s x.core).pc + 4) = none →
    let flags : Prop := ∀ i, (ctxOf s x.core).flg.getLsbD i = true → (ctxOf u x.core).flg.getLsbD i = true
    (∀ i ∈ [Instr.div x rd ra rb, .divu x rd ra rb, .rem x rd ra rb, .remu x rd ra rb, .qadd x rd ra rb, .qsub x rd ra rb,
        .qmul x rd ra rb sh, .qdiv x rd ra rb sh, .qshl x rd ra sh, .qshr x rd ra sh, .qneg x rd ra, .qabs x rd ra,
        .qmin x rd ra rb, .qmax x rd ra rb, .feq x rd fa fb, .flt x rd fa fb, .fle x rd fa fb, .fcvtid x rd fa,
        .fcvtqd x rd fa n, .fmvgd x rd fa],
      exec i s = .next u → OnlyCore x.core s u ∧ SameMemory s u ∧ flags ∧ (ctxOf u x.core).d = (ctxOf s x.core).d ∧
        ∀ r, r ≠ rd → getG (ctxOf u x.core) r = getG (ctxOf s x.core) r) ∧
    (∀ i ∈ [Instr.fadd x fd fa fb, .fsub x fd fa fb, .fmul x fd fa fb, .fdiv x fd fa fb, .fsqrt x fd fa,
        .fmin x fd fa fb, .fmax x fd fa fb, .fneg x fd fa, .fabs x fd fa, .fcvtdi x fd ra, .fcvtdq x fd ra n,
        .fmvdg x fd ra],
      exec i s = .next u → OnlyCore x.core s u ∧ SameMemory s u ∧ flags ∧ (ctxOf u x.core).g = (ctxOf s x.core).g ∧
        ∀ r, r ≠ fd → getD (ctxOf u x.core) r = getD (ctxOf s x.core) r)

/-- A load in scan mode changes one register of its core and its PC: no memory, no register of a block. -/
def Obligations.LoadFrame : Prop :=
  ∀ (x : Issue) (rd ra : Fin 32) (imm : BitVec 16) (s u : State) (t : Nat),
    Runs x s → scanTask s x.core = some t → fetchExc s x.core ((ctxOf s x.core).pc + 4) = none →
    scanCheck s t .load (getG (ctxOf s x.core) ra + imm.signExtend 64) 8 = none →
    ∀ i ∈ [Instr.lb x rd ra imm, .lbu x rd ra imm, .lh x rd ra imm, .lhu x rd ra imm, .lw x rd ra imm, .lwu x rd ra imm,
        .ld x rd ra imm, .lbool x rd ra imm],
      exec i s = .next u → OnlyCore x.core s u ∧ KeepsRegs x.core [rd] s u ∧ SameMemory s u

/-! ### Control registers -/

/-- R9, R11: a write with a one in a bit that no field of its register names, or to an offset where no register is defined,
is discarded whole and sets SYS_STATUS.CFG_ERR: no other register changes, and no action is triggered. -/
def Obligations.DiscardedWrites : Prop :=
  ∀ (a : BitVec 64) (v : BitVec 32) (pcie : Bool) (s : State), ctlBusErr s pcie a.toNat 4 = false →
    (regDefAt a.toNat = none ∨
      ∃ r j, regDefAt a.toNat = some r ∧ j < 32 ∧ v.getLsbD j = true ∧ ∀ f ∈ r.fields, j < f.lo ∨ f.hi < j) →
    Gives (.registerWrite a v 4 pcie) s fun u => getF u F.SYS_STATUS_CFG_ERR = 1 ∧
      SameRegsBut [R.SYS_STATUS] s u ∧ { u with regs := s.regs } = s ∧
      ∀ j, j ≠ F.SYS_STATUS_CFG_ERR.lo → (getReg u R.SYS_STATUS).getLsbD j = (getReg s R.SYS_STATUS).getLsbD j

/-- R10: a write to a register with an RWL field, its block locked, is discarded whole and sets SYS_STATUS.CFG_ERR; and a
one written to LOCK of a block's CTRL sets the lock, which changes nothing else. -/
def Obligations.LockedWrites : Prop :=
  (∀ (a : BitVec 64) (v : BitVec 32) (pcie : Bool) (s : State) (r : RegDef) (l : RegDef),
    ctlBusErr s pcie a.toNat 4 = false → regDefAt a.toNat = some r → (∃ f ∈ r.fields, f.kind = .rwl) →
    regDefAt (lockAddr a.toNat) = some l → (∃ f ∈ l.fields, f.kind = .w1s ∧ f.lo = 8) →
    (getReg s (lockAddr a.toNat)).getLsbD 8 = true →
    Gives (.registerWrite a v 4 pcie) s fun u => getF u F.SYS_STATUS_CFG_ERR = 1 ∧ SameRegsBut [R.SYS_STATUS] s u ∧
      { u with regs := s.regs } = s) ∧
  (∀ (b : Fin 22) (n : Fin 4) (s : State) (l : RegDef), ctlBusErr s false (ctrlOf b.val n.val) 4 = false →
    regDefAt (ctrlOf b.val n.val) = some l → (∃ f ∈ l.fields, f.kind = .w1s ∧ f.lo = 8) →
    Gives (.lock b n) s fun u => (getReg u (ctrlOf b.val n.val)).getLsbD 8 = true ∧
      SameRegsBut [ctrlOf b.val n.val] s u ∧ { u with regs := s.regs } = s)

/-- R8: what a write stores in each field of a register that has no rule of its own (PWR, NSA, DPO, SEC and QUE), by the
field's type; every other register keeps its value. -/
def Obligations.FieldTypes : Prop :=
  ∀ (a : BitVec 64) (v : BitVec 32) (s : State) (r : RegDef), ctlBusErr s false a.toNat 4 = false →
    blockOf a.toNat ∈ [0x02, 0x03, 0x04, 0x11, 0x13] → offOf a.toNat ≠ 0 → a.toNat ≠ R.NSA_ALLOC →
    regDefAt a.toNat = some r → writeBarred s a.toNat r v = false →
    Gives (.registerWrite a v 4 false) s fun u => SameRegsBut [a.toNat] s u ∧ { u with regs := s.regs } = s ∧
      ∀ f ∈ r.fields, ∀ j, f.lo ≤ j → j ≤ f.hi →
        (getReg u a.toNat).getLsbD j = match f.kind with
          | .rw => v.getLsbD j
          | .rwl => v.getLsbD j
          | .ro => (getReg s a.toNat).getLsbD j
          | .w1c => (getReg s a.toNat).getLsbD j && !v.getLsbD j
          | .w1s => (getReg s a.toNat).getLsbD j || v.getLsbD j
          | .wo => false

/-- R6: an access of another width than 32 bits, or a misaligned one, ends in a bus error at its address and changes no
register but the two that show the error. -/
def Obligations.BusErrors : Prop :=
  ∀ (a : BitVec 64) (v : BitVec 32) (size : Fin 9) (pcie : Bool) (s : State), size.val ≠ 4 ∨ a.toNat % 4 ≠ 0 →
    ∀ i ∈ [Instr.registerWrite a v size pcie, Instr.loRegisterRead a size pcie], Gives i s fun u =>
      getF u F.SYS_STATUS_BUS_ERR = 1 ∧ get64 u R.SYS_BUS_ERR_LO R.SYS_BUS_ERR_HI = a.toNat % 2 ^ 40 ∧
      SameRegsBut [R.SYS_STATUS, R.SYS_BUS_ERR_LO, R.SYS_BUS_ERR_HI] s u ∧ { u with regs := s.regs } = s

/-- R7: reading _LO latches the _HI word of that moment; the next read of _HI takes the latch, and the one after that
finds the live value. -/
def Obligations.PairLatch : Prop :=
  ∀ (a h : BitVec 64) (s : State), ctlBusErr s false a.toNat 4 = false → ctlBusErr s false h.toNat 4 = false →
    hiOfLo a.toNat = some h.toNat → hiOfLo h.toNat = none →
    Gives (.loRegisterRead a 4 false) s fun u =>
      u.regs = s.regs ∧ (readReg u h.toNat).1 = getReg s h.toNat ∧
      (∀ (v : Word), (readReg (setReg u h.toNat v) h.toNat).1 = getReg s h.toNat) ∧
      Gives (.loRegisterRead h 4 false) u fun w => w.regs = s.regs ∧
        ∀ (v : Word), (readReg (setReg w h.toNat v) h.toNat).1 = v

/-- The counters of a block read 0 after CLR_CNT (of one CAN channel for CAN), every sticky flag of the loops after
CLR_SAT (R127), the longest scan of every task after CLR_MAX (R269), and no study is queued or runs after CANCEL_STUDY
(R88). -/
def Obligations.ClearCommands : Prop :=
  (∀ (b : Fin 22) (n : Fin 4) (s : State) (r : RegDef) (e : Fld × Nat) (j : Nat),
    ctlBusErr s false (ctrlOf b.val n.val) 4 = false → regDefAt (ctrlOf b.val n.val) = some r →
    (∃ f ∈ r.fields, f.kind = .wo ∧ f.lo = 2) →
    e ∈ (F.CLK_CNT_FALLBACK_COUNT, 1) :: (F.PWR_CNT_DIP_COUNT, 1) :: counterFields → blockOf e.1.addr = b.val →
    j < e.2 → (b.val = 0x0D → j = n.val) →
    Gives (.clearCounters b n) s fun u => getFi u e.1 j = 0 ∧ u.mem = s.mem ∧ u.sec = s.sec) ∧
  (∀ (s : State), (∀ e ∈ s.lpe.loops, e.1 < 512) → Gives .clrSat s fun u => u.lpe = s.lpe ∧
    ∀ e ∈ s.lpe.loops, ∀ j < 5, (getReg u (F.LPE_LOOP_STAT_MODE.at e.1)).getLsbD j = false) ∧
  (∀ (s : State), Gives .clrMax s fun u => ∀ t < 16, getFi u F.SCN_TASK_MAX_VALUE t = 0) ∧
  (∀ (s : State), Gives .cancelStudy s fun u => u.nsa.studies = [] ∧ u.nsa.committed = s.nsa.committed ∧
    u.mem = s.mem)

/-! ### The tick and the field stages -/

/-- R27, R116, R463: a tick of the loop engine on a single module in order, with no peer, at which no period, exchange or
network cycle is still to come, and a supply above the warning level: the supply and plate readings of the tick are shown, the
due loops and groups are evaluated after what comes before them, a dispatch instant among it, and the tick is over. A supply
below 12.0 V at the tick begins a full reset with cause SUPPLY instead. -/
def Obligations.TickCarriedOut : Prop :=
  ∀ (vin temp : BitVec 16) (s : State), s.boot.stage ≠ 0 → s.red.taking = false → tickDone s = false →
    isPair s = false → linkUp s = false → isFatal s = false → executes s = true → s.runState = true → roleOf s = roSINGLE →
    atExchange s = false → dueTasks s = [] → atCycle s = false → flag s F.CLK_GATE_ENG_LPE = true →
    flag s F.PWR_STATUS_WARN = false →
    let v := showSupply (meetDispatch (items14 s ⟨0, 0, 0⟩)) vin temp
    (16000 ≤ vin.toNat → Gives (.loopEngineTick vin temp) s fun u =>
      getF u F.PWR_VIN_MV = vin.toNat ∧ getF u F.PWR_TEMP_DECI_C = temp.toNat ∧
      u.lpe = (lpeEvaluate v (tickNow s)).lpe ∧ u.tim.tick = tickNow s ∧ u.tim.tb1 = s.tim.tb1 ∧
      u.inst = s.inst ∧ u.mem = v.mem ∧ (atDispatch s = false → u.mem = s.mem)) ∧
    (vin.toNat < 12000 → Gives (.loopEngineTick vin temp) s fun u =>
      u.boot.stage = 0 ∧ u.boot.kind = 1 ∧ u.boot.causes.testBit 1 = true)

/-- R126: the candidate that a loop's evaluation gives lies between OUT_MIN and OUT_MAX, and the integrator between their
values with 32 more fraction bits. -/
def Obligations.LoopOutputInRange : Prop :=
  ∀ (s : State) (l : Loop), lpOutMin l.words ≤ lpOutMax l.words →
    lpOutMin l.words ≤ (evalLoop s l).c ∧ (evalLoop s l).c ≤ lpOutMax l.words ∧
    lpOutMin l.words * 2 ^ 32 ≤ (evalLoop s l).loop.f ∧ (evalLoop s l).loop.f ≤ lpOutMax l.words * 2 ^ 32

/-- R398, R400 to R402: the capture of a tick shows the filtered inputs, the readbacks, the counts and the supplies as one
set; and a level that the filter accepts counts its rising edges. -/
def Obligations.FieldCaptured : Prop :=
  (∀ (rb : BitVec 16) (v0 v1 : Int) (s : State), s.boot.stage ≠ 0 → tickDone s = false → s.fio.capTick ≠ tickNow s + 1 →
    Gives (.fieldCapture rb v0 v1) s fun u =>
      getFi u F.FIO_VFSUP_MV 0 = uNat 32 v0 ∧ getFi u F.FIO_VFSUP_MV 1 = uNat 32 v1 ∧
      (flag u F.FIO_STATUS_FSUP0_OK = true ↔ 19200 ≤ v0 ∧ v0 ≤ 30000) ∧
      (flag u F.FIO_STATUS_FSUP1_OK = true ↔ 19200 ≤ v1 ∧ v1 ≤ 30000) ∧
      (flag u F.FIO_STATUS_REV0 = true ↔ v0 < -1000) ∧ (flag u F.FIO_STATUS_REV1 = true ↔ v1 < -1000) ∧
      getF u F.FIO_DI_VALUE = s.fio.filt % 2 ^ 32 ∧
      (∀ c < 16, (getF u F.FIO_RB_VALUE).testBit c = (rb.getLsbD c && !u.fio.held.contains (c / 8))) ∧
      (∀ j < 32, getFi u F.FIO_CNT_VALUE j = (alGet? s.fio.cnt j).getD 0 % 2 ^ 32) ∧
      u.fio.capTick = tickNow s + 1) ∧
  (∀ (di : Fin 32) (level : Bool) (s : State), s.fio.filt.testBit di.val ≠ level →
    Gives (.diFilterAccept di level) s fun u =>
      (∀ j, u.fio.filt.testBit j = if j = di.val then level else s.fio.filt.testBit j) ∧ u.regs = s.regs ∧
      (level = true → alGet? u.fio.cnt di.val = some (((alGet? s.fio.cnt di.val).getD 0 + 1) % 2 ^ 32)) ∧
      (level = false → u.fio.cnt = s.fio.cnt))

/-- R405, R409: a channel or a group turned off by its protection leaves its outputs off with FAULT 1, and after 100 ms the
turn-off ends. -/
def Obligations.OutputProtection : Prop :=
  ∀ (ch : Fin 16) (g : Fin 2) (s : State),
    (switchOn s ch.val = true → Gives (.doCurrentLimitOff ch) s fun u =>
      switchOn u ch.val = false ∧ flag u F.FIO_STATUS_FAULT = true ∧ alGet? u.fio.chOff ch.val = some (tb0Ns s + 100000000) ∧
      getF u F.FIO_DO_VALUE = getF s F.FIO_DO_VALUE) ∧
    (∀ t, alGet? s.fio.chOff ch.val = some t → t ≤ tb0Ns s → Gives (.doRetry ch) s fun u =>
      alGet? u.fio.chOff ch.val = none ∧ u.fio.grpOff = s.fio.grpOff ∧ getF u F.FIO_DO_VALUE = getF s F.FIO_DO_VALUE) ∧
    ((∃ c < 8, switchOn s (8 * g.val + c) = true) → Gives (.groupOvercurrentOff g) s fun u =>
      (∀ c < 8, switchOn u (8 * g.val + c) = false) ∧ flag u F.FIO_STATUS_FAULT = true ∧
      u.fio.chOff = s.fio.chOff ∧ alGet? u.fio.grpOff g.val = some (tb0Ns s + 100000000)) ∧
    (∀ t, alGet? s.fio.grpOff g.val = some t → t ≤ tb0Ns s → Gives (.groupRestore g) s fun u =>
      alGet? u.fio.grpOff g.val = none ∧ u.fio.chOff = s.fio.chOff)

/-- R410, R412: FIO_SAFE is copied to the token keeper; conversions beyond 1.9 × full scale are shown. -/
def Obligations.SafeAndAnalogue : Prop :=
  (∀ (v : BitVec 32) (s : State), Takes s R.FIO_SAFE v → Gives (.safeWrite v) s fun u =>
    u.fio.safe = v.toNat % 65536 ∧ getF u F.FIO_SAFE_VALUE = v.toNat % 65536 ∧ u.fio.latch = s.fio.latch) ∧
  (∀ (vals : List Int) (s : State), gateOff s R.FIO_AFE_OVR = false →
    (∃ c < 12, 19 * 2 ^ 30 < 10 * (vals.getD c 0).natAbs) → Gives (.afeConversion vals) s fun u =>
      getF u F.FIO_EVENTS_AFE_OVR = 1 ∧
      ∀ c < 12, (getF u F.FIO_AFE_OVR_OVR).testBit c =
        ((getF s F.FIO_AFE_OVR_OVR).testBit c || decide (19 * 2 ^ 30 < 10 * (vals.getD c 0).natAbs)))

/-! ### Metering -/

/-- R138 to R141, R355, R412: samples of electric channels, saturated at ±(2³¹ − 1) where the module converts them itself,
enter their line cycle, missing ones as zeros that are counted; a lost
stream is shown. -/
def Obligations.MeterSamples : Prop :=
  ∀ (s : State), metersOwn s = true →
    let open_ (c ix : Nat) : Prop := elecOn s c = true ∧ 80 * (chanOf s c).next ≤ ix ∧
      alGet? (chanOf s c).samples ix = none ∧
      ∃ j < 80, 80 * (chanOf s c).next + j ≠ ix ∧ alGet? (chanOf s c).samples (80 * (chanOf s c).next + j) = none
    let sat (x : Int) : Int := max (1 - 2 ^ 31) (min (2 ^ 31 - 1) x)
    let holds_ (u : State) (c ix : Nat) (x : ESample) : Prop :=
      alGet? (chanOf u c).samples ix = some x ∧ (chanOf u c).next = (chanOf s c).next ∧ u.mtr.regs = s.mtr.regs
    (∀ (ch : Fin 2) (ix : Nat) (v i : List Int), open_ ch.val ix → gateOff s R.FIO_AFE_OVR = false →
      v.length = 3 → i.length = 3 → Gives (.afeSample ch ix v i) s fun u =>
        holds_ u ch.val ix { v := v.map sat, i := i.map sat } ∧
        getFi u F.FIO_AFE_SMP_SAMPLE (6 * ch.val) = uNat 32 (sat (v.getD 0 0))) ∧
    (∀ (ch : Fin 34) (ix : Nat), open_ ch.val ix → sampleAge s ix 2000000 (nowNs s) = true →
      Gives (.sampleMissingTimeout ch ix) s fun u => holds_ u ch.val ix { v := [0, 0, 0], i := [0, 0, 0] } ∧
        getF u F.MTR_CNT_GAP_COUNT = (getF s F.MTR_CNT_GAP_COUNT + 1) % 2 ^ 32 ∧ getF u F.MTR_EVENTS_GAP = 1) ∧
    (∀ (m : Fin 32) (appid macLo : BitVec 16) (cnt synch : Nat) (vals : List Int) (quals : List (BitVec 32))
        (port : Fin 14) (stamp : Nat),
      svSlots s appid.toNat macLo.toNat = [m.val] → synch ≠ 0 → vals.length = 8 → (∀ q ∈ quals, q = 0) →
      let arrival := (ingress s port.val stamp).toNat
      let ix := svIndex s cnt arrival
      open_ (m.val + 2) ix → sampleAge s ix 2000000 arrival = false →
      Gives (.svFrameReceive appid macLo cnt synch vals quals ⟨port, stamp⟩) s fun u =>
        holds_ u (m.val + 2) ix { v := [vals.getD 4 0, vals.getD 5 0, vals.getD 6 0],
                                  i := [vals.getD 0 0, vals.getD 1 0, vals.getD 2 0] } ∧
        getFi u F.MTR_SV_STAT_LOST m.val = 0 ∧ getFi u F.MTR_SV_STAT_UNSYNC m.val = 0) ∧
    (∀ (m : Fin 32), (alGet? s.mtr.subs m.val).getD 0 ≠ 0 → streamSilent s m.val = true → Gives (.svStreamLost m) s fun u =>
      getFi u F.MTR_SV_STAT_LOST m.val = 1 ∧ getF u F.MTR_EVENTS_SV_LOST = 1 ∧ u.mtr.regs = s.mtr.regs ∧
      u.mtr.chans = s.mtr.chans)

/-- R147: an increment raises its register modulo 2⁹⁶ in units of 2⁻³² LSB and no other register, whatever pulses it
feeds. -/
def Obligations.EnergyAdds : Prop :=
  ∀ (s : State) (k inc : Nat), mtrReg (addReg s k inc) k = (mtrReg s k + inc) % 2 ^ 96 ∧
    (∀ j, j ≠ k → mtrReg (addReg s k inc) j = mtrReg s j) ∧ (addReg s k inc).mem = s.mem

/-- R149 to R152, R154, R161: the latch of an interval, its slot in the archive, the reads of registers, and the end of a
pulse. -/
def Obligations.MeterLatch : Prop :=
  ∀ (s : State),
    (∀ l, latchNow s = some l → s.runState = true → executes s = true → s.nsa.instant = some (nowNs s / netNs s) →
      s.mtr.latching = none → s.mtr.since < nowNs s → Gives .latchInstant s fun u => ∃ t, u.mtr.latching = some t ∧
        t.idx = l ∧ t.due = s.nsa.open_.isSome ∧ u.mtr.regs = s.mtr.regs ∧
        (s.nsa.open_ = none → t.tint = s.mtr.tint ∧ (∀ k, 4096 ≤ k → amGet (fun _ => 0) t.regs k = mtrReg s k) ∧
          u.mtr.tint = [])) ∧
    (∀ t, s.mtr.latching = some t → t.due = false → linesClosed s t.idx = true → Gives .latchElectricCopy s fun u =>
      u.mtr.latching = none ∧ u.mtr.slots = s.mtr.slots ++ [(t.idx, archSlot s t)] ∧
      u.mtr.clears = s.mtr.clears.filter (fun c => latchTime s t.idx ≤ c.1) ∧
      get64 u R.MTR_LATCH_IDX_LO R.MTR_LATCH_IDX_HI = t.idx % 2 ^ 64) ∧
    (∀ l b rest, s.mtr.slots = (l, b) :: rest →
      let h := if s.mtr.arch = [] then 0 else (getF s F.MTR_ARCH_HEAD + 1) % 256
      (flag s F.PWR_STATUS_FROZEN = false → Gives .archiveSlotWrite s fun u =>
        memBytes u.mem (0x4C000000 + 0x40000 * h) b.length = b ∧ u.mtr.slots = rest ∧ getF u F.MTR_ARCH_HEAD = h ∧
        u.mtr.arch = insertUp h s.mtr.arch ∧
        getF u F.MTR_ARCH_VALID = u.mtr.arch.length % 2 ^ F.MTR_ARCH_VALID.width ∧
        ∀ a, (a < 0x4C000000 + 0x40000 * h ∨ 0x4C000000 + 0x40000 * h + b.length ≤ a) → memRead u.mem a = memRead s.mem a) ∧
      (flag s F.PWR_STATUS_FROZEN = true → Gives .archiveSlotWrite s fun u =>
        getF u F.MTR_STATUS_ARCH_FROZEN = 1 ∧ u.mem = s.mem ∧ u.mtr = s.mtr)) ∧
    (∀ v : BitVec 32, Takes s R.MTR_RD_SEL v →
      let c := (v.toNat / 2 ^ 16) % 2 ^ 12
      let r := v.toNat % 16
      let shows (u : State) (x : Nat) : Prop := getF u F.MTR_RD_LO_DATA = x / 2 ^ 32 % 2 ^ 32 ∧
        getF u F.MTR_RD_HI_DATA = x / 2 ^ 64 % 2 ^ 32 ∧ getF u F.MTR_RD_FRAC_DATA = x % 2 ^ 32 ∧ u.mtr = s.mtr
      (v.toNat / 2 ^ 30 = 0 → c ≤ 33 → r ≤ 7 → Gives (.mtrRdSelWrite v) s fun u => shows u (mtrReg s (8 * c + r))) ∧
      (v.toNat / 2 ^ 30 = 1 → r ≤ 3 → Gives (.mtrRdSelWrite v) s fun u => shows u (mtrReg s (4096 + 4 * c + r))) ∧
      (v.toNat / 2 ^ 30 = 0 → 33 < c → Gives (.mtrRdSelWrite v) s fun u => shows u 0 ∧ getF u F.SYS_STATUS_CFG_ERR = 1)) ∧
    (∀ p : Fin 8, getFi s F.MTR_PULSE_STAT_ACTIVE p.val = 1 → (alGet? s.mtr.poff p.val).getD 0 ≤ nowNs s →
      Gives (.pulseEnd p) s fun u => getFi u F.MTR_PULSE_STAT_ACTIVE p.val = 0 ∧
        alGet? u.mtr.poff p.val = some (nowNs s + pulseWidth s p.val) ∧
        getFi u F.MTR_PULSE_STAT_BACKLOG p.val = getFi s F.MTR_PULSE_STAT_BACKLOG p.val)

/-! ### The network cycle and its jobs -/

/-- The network-cycle instant opens the snapshot of its cycle and ends what the previous one left; its close, the ends of
the cycle's jobs, and the switch that brings a committed state into force at the next tick. -/
def Obligations.NetworkCycle : Prop :=
  (∀ (s : State) (a b c : Nat), tickDone s = false → s.runState = true → executes s = true → atCycle s = true →
    atExchange s = false → dueTasks s = [] → s.nsa.activation = none →
    Gives (.networkCycleInstant a b c) s fun u => u.nsa.instant = some (cycleNow s) ∧
      (roleOf s ≠ roSTANDBY → s.nsa.model.isSome = true → u.nsa.ply = none) ∧
      (∃ sn, u.nsa.open_ = some sn ∧ sn.cycle = cycleNow s ∧ sn.time = nowNs s) ∧
      (∀ o, s.nsa.open_ = some o → u.nsa.snap = some o) ∧ u.nsa.committed = s.nsa.committed ∧
      (s.nsa.cycleOpen.isSome = true → getF u F.NSA_CNT_MISSED_COUNT = (getF s F.NSA_CNT_MISSED_COUNT + 1) % 2 ^ 32)) ∧
  (∀ (s : State) (n b c : Nat) (a : Activation), tickDone s = false → s.runState = true → executes s = true →
    atCycle s = true → atExchange s = false → dueTasks s = [] → s.nsa.activation = some a → a.at_ ≤ cycleNow s →
    a.prepared = true → (needsPeer s = true → a.confirmed = true) →
    Gives (.networkCycleInstant n b c) s fun u => u.nsa.model = some a.model ∧ u.nsa.activation = none) ∧
  (∀ (s : State) (o : Snapshot), roleOf s ≠ roSTANDBY → s.nsa.open_ = some o → Gives .snapshotClose s fun u =>
    u.nsa.snap = some o ∧ u.nsa.prevSnap = s.nsa.snap ∧ u.nsa.open_ = none ∧ u.mtr.regs = s.mtr.regs) ∧
  (∀ (s : State) (j : Job) (md : Model) (us : Nat), roleOf s ≠ roSTANDBY → s.nsa.ply = some j → s.nsa.model = some md →
    waits s .ply j = false → Gives (.plyComplete us) s fun u => u.nsa.ply = none ∧ getF u F.NSA_STATUS_PLY_BUSY = 0 ∧
      u.nsa.committed = s.nsa.committed ∧ ∃ p, u.nsa.plyDone = some p ∧ p.desc = j.desc ∧ p.snap = j.snap ∧
        p.result.cycle = j.cycle ∧ p.result.elapsed = us) ∧
  (∀ (s : State) (j : Job) (md : Model) (e : Bool), s.nsa.hyd = some j → s.nsa.model = some md → j.kind = 3 →
    s.nsa.ply = none →
    (s.nsa.open_ = none → waits s .hyd j = false → (checkReason s md j e).1 = 0 → Gives (.checkComplete e) s fun u =>
      (∃ j', u.nsa.hyd = some j' ∧ j'.kind = 4 ∧ j'.cycle = j.cycle) ∧
      getF u F.DPO_PLY_LAST_REASON = 0 ∧ getF u F.DPO_CNT_COMMIT_COUNT = (getF s F.DPO_CNT_COMMIT_COUNT + 1) % 2 ^ 32) ∧
    (∀ d, s.nsa.cycleDesc = some d → s.nsa.plyDone = none → s.nsa.plyReason = none → Gives (.checkComplete e) s fun u =>
      (∃ j', u.nsa.hyd = some j' ∧ j'.kind = 0 ∧ j'.desc = d) ∧ getF u F.DPO_PLY_LAST_REASON = 1 ∧
      getF u F.DPO_PLY_RES_P_RES = 0x7FFFFFFF ∧
      getF u F.DPO_CNT_NOPLY_COUNT = (getF s F.DPO_CNT_NOPLY_COUNT + 1) % 2 ^ 32)) ∧
  (∀ (s : State) (j : Job) (md : Model) (us : Nat), roleOf s ≠ roSTANDBY → s.nsa.hyd = some j → s.nsa.model = some md →
    waits s .hyd j = false →
    let done (u : State) : Prop := u.nsa.hyd = none ∧ u.nsa.cycleOpen = none ∧ getF u F.NSA_STATUS_HYD_BUSY = 0 ∧
      get64 u R.NSA_CYCLE_LO R.NSA_CYCLE_HI = j.cycle % 2 ^ 64 ∧
      ∃ r, u.nsa.committed = some r ∧ r.cycle = j.cycle ∧ r.ht = j.ht ∧ r.elapsed = us
    (j.kind = 0 → s.nsa.open_ = none → Gives (.cycleJobComplete us) s fun u => done u ∧
      getF u F.NSA_LAST_TIME_ELAPSED = us % 2 ^ 32) ∧
    (∀ p, j.kind = 4 → s.nsa.plyDone = some p → Gives (.refineComplete us) s done)) ∧
  (∀ s : State, s.boot.stage ≠ 0 → tickDone s = true → switchWaits s = true → roleOf s ≠ roSTANDBY → s.red.forcesAt = [] →
    Gives .stateSwitch s fun u =>
    nowNs u = (tickNow s + 1) * 250000 % (2 ^ 48 * 1000000000) ∧ u.forcesEff = s.forces ∧
    (s.nsa.committed.isSome = true → u.nsa.inForce.map (·.cycle) = s.nsa.committed.map (·.cycle)))

/-- Deadlines, budgets and faults of the jobs on a module that decides for itself (R73, R82, R83, R99, R291), the end of a
study, and the preparation and validation of a model. -/
def Obligations.SolverJobs : Prop :=
  ∀ (s : State), roleOf s ≠ roSTANDBY →
    (∀ (j : Job) (a b c : Nat), s.nsa.hyd = some j → j.stop = none →
      let sp : StopPoint := { steps := a, phase := b, its := c }
      (j.kind = 0 → a < dNewton j.desc → b ≤ 3 → c ≤ dCg j.desc → Gives (.hydraulicDeadline .hyd a b c) s fun u =>
        u.nsa.hyd = some { j with stop := some sp } ∧ u.regs = s.regs) ∧
      (j.kind = 0 → j.thermSkip = false → Gives (.jobDeadline .hyd a b c) s fun u =>
        u.nsa.hyd = some { j with thermSkip := true, thermDone := c } ∧ getF u F.NSA_EVENTS_THERM_SKIPPED = 1) ∧
      (j.kind = 4 → a < bitsOf 31 28 (dw j.desc 15) → b ≤ 3 → c ≤ bitsOf 25 16 (dw j.desc 15) →
        Gives (.refineDeadline a b c) s fun u => u.nsa.hyd = some { j with stop := some sp } ∧
          getF u F.DPO_PLY_LAST_REFINE_DL = 1) ∧
      (j.kind = 0 → factorsIn j a = true → Gives (.factBudgetExpiry .hyd a) s fun u =>
        u.nsa.hyd = some { j with abandoned := j.abandoned ++ [(a, s.nsa.factor)] } ∧ getF u F.NSA_EVENTS_PRECOND_FALLBACK = 1)) ∧
    (∀ (j : Job) (md : Model) (c : Fin 8) (a b i us : Nat), s.nsa.ply = some j → s.nsa.model = some md →
      (laneMask s .ply).testBit c.val = true →
      (Gives (.unitRetry .ply c false a b i us) s fun u => u.nsa.ply = some { j with retried := true } ∧
        getF u F.NSA_CNT_RETRY_COUNT = (getF s F.NSA_CNT_RETRY_COUNT + 1) % 2 ^ 32) ∧
      (Gives (.unitRetry .ply c true a b i us) s fun u => u.nsa.ply = none ∧ (getF u F.NSA_CLUSTER_FAULTY).testBit c.val = true ∧
        ∃ p, u.nsa.plyDone = some p ∧ p.result.outcome = 3 ∧ p.result.cycle = j.cycle)) ∧
    (∀ (j : Job) (js : List Job) (us : Nat), s.nsa.studies = j :: js → waits s .study j = false → Gives (.studyDone us) s fun u =>
      u.nsa.studies = js ∧ getF u F.NSA_STATUS_STUDY_BUSY = (if js = [] then 0 else 1) ∧
      ∃ p, (taskOf u (taskIx j.task)).posts = (taskOf s (taskIx j.task)).posts ++ [p] ∧ p.ticket = j.ticket ∧
        p.status = 1 ∧ p.isStudy = true ∧ p.dueTime = j.start + dw j.desc 2 * 1000 ∧ p.userOff = dw j.desc 10) ∧
    (∀ a, s.nsa.activation = some a → Gives .modelPreparationDone s fun u =>
      u.nsa.activation = some { a with prepared := true } ∧ getF u F.NSA_MODEL_STATUS_PREPARING = 0) ∧
    (∀ (slot : Fin 2) (n : Nat) (ok : Bool), s.nsa.validating = [(slot.val, n, false)] →
      let v := validateModel s.mem (modelSlotBase slot.val) n (ok && (ownerValid s 0 || ownerValid s 1))
      (v = none → Gives (.modelValidationDone slot ok) s fun u => slotState u slot.val = slVALID ∧ u.nsa.validating = []) ∧
      (∀ f, v = some f → Gives (.modelValidationDone slot ok) s fun u => slotState u slot.val = slINVALID ∧
        getF u F.NSA_MODEL_ERR_CODE = f.1 % 2 ^ F.NSA_MODEL_ERR_CODE.width ∧ u.nsa.validating = []))

/-- R103, R112, R113, R115: the dispatch instant brings the table of the previous job into force or keeps the old one, and
the dispatch job starts, ends and stops. -/
def Obligations.DispatchCycle : Prop :=
  ∀ (s : State),
    let j := nowNs s / dispNs s
    let at_ : Prop := s.runState = true ∧ executes s = true ∧ nowNs s % dispNs s = 0 ∧ s.nsa.instant = some (cycleNow s) ∧
      s.dpo.instant ≠ some j
    (∀ t, at_ → s.dpo.job = none → s.dpo.due = none → s.dpo.plan = none → s.dpo.ended = some (j - 1, 0) → 0 < j →
      s.dpo.next = some t → s.dpo.nextModel = s.nsa.model → Gives .dispatchInstant s fun u =>
        u.dpo.table = some t ∧ get64 u R.DPO_DEC_LO R.DPO_DEC_HI = t.index % 2 ^ 64 ∧ getF u F.DPO_STATUS_DEC_VALID = 1) ∧
    (∀ o, at_ → s.dpo.job = none → s.dpo.due = none → s.dpo.plan = none → s.dpo.ended = some (j - 1, o) → o ≠ 0 →
      Gives .dispatchInstant s fun u => u.dpo.table = s.dpo.table ∧
        getF u F.DPO_CNT_KEPT_COUNT = (getF s F.DPO_CNT_KEPT_COUNT + 1) % 2 ^ 32) ∧
    (∀ (i a : Nat) (st : NetState) (md : Model) (sn : Snapshot) (d : List Nat) (f : Forecast),
      s.dpo.due = some (i, a) → s.nsa.committed = some st → s.nsa.model = some md → s.nsa.snap = some sn →
      s.nsa.dispDesc = some d → st.cycle = a / netNs s → s.dpo.dpoOff = false → validForecast s = some f →
      descRefuse s d [5] = 0 → blockRefuse s md d = 0 → Gives .dispatchJobStart s fun u =>
        (∃ x, u.dpo.job = some x ∧ x.desc = d ∧ x.start = a ∧ x.model = some md) ∧ u.dpo.jobIndex = i ∧ u.dpo.due = none ∧
        getF u F.NSA_STATUS_DPO_BUSY = 1) ∧
    (∀ (x : Job) (f : Forecast) (md : Model) (us : Nat), roleOf s ≠ roSTANDBY → s.dpo.job = some x → s.dpo.jobFcst = some f → x.model = some md →
      waits s .dpo x = false →
      let o := dispatchRun (dinOf s x md f)
      Gives (.dispatchJobEnd us) s fun u => u.dpo.job = none ∧ getF u F.NSA_STATUS_DPO_BUSY = 0 ∧
        u.dpo.table = s.dpo.table ∧ u.dpo.ended = some (s.dpo.jobIndex, if o.rp ≤ sInt 32 (dw x.desc 14) then 0 else 6) ∧
        (o.rp ≤ sInt 32 (dw x.desc 14) → u.dpo.next = some { index := s.dpo.jobIndex, values := o.table })) ∧
    (∀ (x : Job) (f : Forecast) (md : Model) (n us : Nat), roleOf s ≠ roSTANDBY → s.dpo.job = some x →
      s.dpo.jobFcst = some f → x.model = some md → Gives (.dpoDeadline n us) s fun u =>
      u.dpo.job = none ∧ u.dpo.ended = some (s.dpo.jobIndex, 1) ∧ u.dpo.table = s.dpo.table ∧
      getF u F.DPO_LAST_TIME_ELAPSED = us % 2 ^ 32) ∧
    (∀ on : Bool, (Gives (.plyOff on) s fun u => getF u F.DPO_CTRL_PLY_OFF = bNat on ∧
        getF u F.DPO_CTRL_DPO_OFF = getF s F.DPO_CTRL_DPO_OFF ∧ u.dpo = { s.dpo with ctrlAt := nextCycle s }) ∧
      (Gives (.dpoOff on) s fun u => getF u F.DPO_CTRL_DPO_OFF = bNat on ∧
        getF u F.DPO_CTRL_PLY_OFF = getF s F.DPO_CTRL_PLY_OFF ∧ u.dpo = { s.dpo with ctrlAt := nextCycle s }))

/-! ### Tasks, forces, exchanges and engine calls -/

/-- R246, R248, R25, R26, R344: a period start completes in every state, whatever scans run. At a tick that reaches a task's
period in a module that runs, and is no exchange's, every due task has its period's index, the emission of what it committed
and the acceptance of its calls; on a module that samples for itself the new scan with its frozen views, on a standby the wait
for the INPUT frame; and a late scan is one that an overrun leaves. At any other instant nothing changes. The tasks of a program
are distinct, as R243 has them checked. And the watchdog completes on every scan core (R254): a hardware fault in a scan, the
first of which is a reroll, while a later one takes the core out of service (R255); a core that runs no scan has none. -/
def Obligations.TaskPeriods : Prop :=
  let distinct (l : List TaskRec) : Prop := (l.map (·.task)).Nodup ∧ ∀ r ∈ l, r.task < 16
  (∀ (m : Mem) (base len serial : Nat) (p : Program), loadPayload m base len serial = .ok p → distinct p.tasks) ∧
  (∀ s : State,
    let t := reachTick s
    (t.runState = true → executes t = true → atExchange t = false → dueTasks t ≠ [] → distinct (dueTasks t) →
      Gives .taskPeriodStart s fun u => u.prog = t.prog ∧ flag u F.TIM_STATUS_SEALED = true ∧ ∀ r ∈ dueTasks t,
        (taskOf u (taskIx r.task)).pidx = nowNs t / taskNs r ∧ (taskOf u (taskIx r.task)).pendEmit = false ∧
        (taskOf u (taskIx r.task)).pendCalls = [] ∧ (taskOf u (taskIx r.task)).pendShared = []) ∧
    (t.runState = false ∨ executes t = false ∨ atExchange t = true ∨ dueTasks t = [] →
      exec .taskPeriodStart s = .next s)) ∧
  (∀ s : State, tickDone s = false → s.runState = true → executes s = true → atExchange s = false → dueTasks s ≠ [] →
    distinct (dueTasks s) → (∀ r ∈ dueTasks s, scanOf s r.task = none) → Gives .taskPeriodStart s fun u =>
      u.forcesEff = s.forcesEff ∧ u.prog = s.prog ∧ flag u F.TIM_STATUS_SEALED = true ∧
      (roleOf s = roSTANDBY → u.red.inputDue = (dueTasks s).map (·.task)) ∧
      ∀ r ∈ dueTasks s,
        (taskOf u (taskIx r.task)).pidx = nowNs s / taskNs r ∧ (taskOf u (taskIx r.task)).pendEmit = false ∧
        (taskOf u (taskIx r.task)).pendCalls = [] ∧
        (roleOf s ≠ roSTANDBY → halted s r.task = false → (∃ c, healthyCore s r.core = some c) →
          (taskOf u (taskIx r.task)).nextInfo = 0 ∧
          ∃ sc, scanOf u r.task = some sc ∧ sc.period = nowNs s / taskNs r ∧ sc.late = 0 ∧ sc.undo = [] ∧ sc.buf = [] ∧
            sc.calls = [] ∧ sc.ticket = (taskOf s (taskIx r.task)).tickets ∧
            sc.info = (taskOf s (taskIx r.task)).nextInfo ∧ sc.frozenForces = s.forcesEff ∧
            sc.ckpt.ctx.pc = BitVec.ofNat 64 r.entry ∧ sc.ckpt.ctx.g = RegCtx.zero.g)) ∧
  (∀ (s : State) (r : TaskRec) (sc : Scan), tickDone s = false → s.runState = true → executes s = true →
    atExchange s = false → dueTasks s = [r] → scanOf s r.task = some sc → sc.late < r.ovrMax →
    Gives .taskPeriodStart s fun u => (taskOf u (taskIx r.task)).pidx = nowNs s / taskNs r ∧
      (sc.late = 0 → getFi u F.SCN_TASK_OVR_VALUE r.task =
        (getFi s F.SCN_TASK_OVR_VALUE r.task + 1) % 2 ^ F.SCN_TASK_OVR_VALUE.width) ∧
      ∃ sc', scanOf u r.task = some sc' ∧ sc'.late = sc.late + 1 ∧ sc'.period = sc.period ∧ sc'.undo = sc.undo ∧
        sc'.frozenForces = sc.frozenForces ∧ sc'.frozenIn = sc.frozenIn) ∧
  (∀ (core : Fin 4) (c : Fin 6) (s : State), c.val = core.val →
    (∃ u, exec (.wdogExpiry core) s = .next u) ∧
    (scanTask s c = none → exec (.wdogExpiry core) s = .next s) ∧
    (∀ t, scanTask s c = some t → t < 16 → Gives (.wdogExpiry core) s fun u =>
      getFi u F.SCN_TASK_STAT_LAST_CODE t = 0x13 ∧ u.prog = s.prog) ∧
    (∀ (t : Nat) (sc : Scan), scanTask s c = some t → scanOf s t = some sc → t < 16 →
      (sc.faulted = none → Gives (.wdogExpiry core) s fun u =>
        ctxOf u c = sc.ckpt.ctx ∧ isSup u c = false ∧ getFi u F.SCN_TASK_STAT_LAST_CODE t = 0x13 ∧
        getF u F.SCN_CNT_REROLL_COUNT = (getF s F.SCN_CNT_REROLL_COUNT + 1) % 2 ^ 32 ∧
        ∃ sc', scanOf u t = some sc' ∧ sc'.ticket = sc.ckpt.ticket ∧ sc'.faulted = some ⟨0x13, 0, 0⟩) ∧
      (sc.faulted ≠ none → Gives (.wdogExpiry core) s fun u => scanOf u t = none ∧
        (getF u F.SCN_STATUS_CORE_FAULTY).testBit core.val = true ∧ getF u F.SCN_EVENTS_CORE_FAULT = 1)))

/-- R258, R259, R269: the commands of SCN_FORCE_CMD on the entry that SCN_FORCE_SEL names, and the tick at which an
accepted change takes effect. -/
def Obligations.ForceCommands : Prop :=
  ∀ (s : State),
    let i := getF s F.SCN_FORCE_SEL_INDEX
    let f := regForce s
    let e := forceEntry s i
    (flag s F.SCN_FORCE_RES_BUSY = false →
      (Gives .forceRead s fun u => getF u F.SCN_FORCE_ENT_ENABLE = bNat e.enable ∧ getF u F.SCN_FORCE_ENT_KIND = e.kind % 2 ∧
        getF u F.SCN_FORCE_ENT_TARGET = e.target % 2 ^ 16 ∧
        get64 u R.SCN_FORCE_VAL_LO R.SCN_FORCE_VAL_HI = e.value % 2 ^ 64 ∧ u.forces = s.forces) ∧
      (forceCode s i f false = 0 → Gives .forceSet s fun u => u.forces = alPut s.forces i f ∧
        getF u F.SCN_FORCE_RES_CODE = 0 ∧ u.forcesEff = s.forcesEff) ∧
      (forceCode s i f false ≠ 0 → Gives .forceSet s fun u => u.forces = s.forces ∧
        getF u F.SCN_FORCE_RES_CODE = forceCode s i f false) ∧
      (e.enable = true → Gives .forceClear s fun u => u.forces = alDel s.forces i ∧ getF u F.SCN_FORCE_RES_CODE = 0 ∧
        u.forcesEff = s.forcesEff) ∧
      (e.enable = false → Gives .forceClear s fun u => u.forces = s.forces ∧ getF u F.SCN_FORCE_RES_CODE = 5)) ∧
    (s.boot.stage ≠ 0 → tickDone s = true → switchWaits s = true → s.red.forcesAt = [] → Gives .forceApply s fun u =>
      u.forcesEff = s.forces ∧ flag u F.SCN_STATUS_FORCED = s.forces.any (fun x => x.2.enable) ∧
      nowNs u = (tickNow s + 1) * 250000 % (2 ^ 48 * 1000000000))

/-- R266: the exchange instant puts the new program in the place of the old one; an exchange that the standby does not
confirm within 50 network cycles ends with REFUSE 5. -/
def Obligations.ProgramExchange : Prop :=
  (∀ (s : State) (x : Exchange) (old : Program), tickDone s = false → s.exch = some x → s.prog = some old →
    s.runState = true → executes s = true → atExchange s = true → Gives .exchangeInstant s fun u =>
      u.prog = some x.prog ∧ u.exch = none ∧ u.cfg.progSlot = x.slot ∧ getF u F.SCN_EXCH_STATE = 2 ∧
      getF u F.SCN_EVENTS_EXCH_DONE = 1 ∧ nowNs u = nowNs s) ∧
  (∀ (s : State) (x : Exchange), s.exch = some x → x.confirmed = false → x.accepted + 50 * netNs s ≤ nowNs s →
    Gives .exchangeConfirmTimeout s fun u => u.exch = none ∧ getF u F.SCN_EXCH_REFUSE = 5 ∧
      getF u F.SCN_EVENTS_EXCH_REFUSED = 1 ∧ u.prog = s.prog)

/-- R226, R230, R231, R233: every engine call is answered with its record. One that passes its checks is ACCEPTED or DONE, and
has its effect; one that does not is REFUSED with its code and has none but the events that show it. Each module of a pair
accepts the calls of its own scans. -/
def Obligations.EngineCallsAccepted : Prop :=
  ∀ (task : Fin 16) (ticket : BitVec 16) (body : List Byte) (s : State), s.runState = true →
    let w := bodyW body
    let ws := (bodyWords body).drop 2
    let d := bodyWords body
    let rec_ (engine fn status code data : Nat) : PostItem := recordOf ticket.toNat engine fn status code data
    let refuses (i : Instr) (engine fn code : Nat) (keeps : State → Prop) : Prop :=
      Gives i s fun u => Posted s u task (rec_ engine fn 2 code 0) ∧ keeps u
    (descRefuse s d [0, 2, 5] = 0 → Gives (.nsaInstall task ticket body) s fun u => Posted s u task (rec_ 0 0 0 0 0) ∧
      u.nsa = { s.nsa with pendDesc := s.nsa.pendDesc ++ [(nowNs s, d)] }) ∧
    (descRefuse s d [0, 2, 5] ≠ 0 → refuses (.nsaInstall task ticket body) 0 0 (descRefuse s d [0, 2, 5]) fun u =>
      u.nsa = s.nsa) ∧
    (descRefuse s d [1] = 0 → Gives (.nsaStudy task ticket body) s fun u => Posted s u task (rec_ 0 1 0 0 0) ∧
      (∃ j, u.nsa.studies = s.nsa.studies ++ [j] ∧ j.desc = d ∧ j.ticket = ticket.toNat ∧ j.task = task.val) ∧
      getF u F.NSA_STATUS_STUDY_BUSY = 1) ∧
    (descRefuse s d [1] ≠ 0 → refuses (.nsaStudy task ticket body) 0 1 (descRefuse s d [1]) fun u => u.nsa = s.nsa) ∧
    (w 1 = 0 → w 0 % 4 = 0 → w 0 + (body.length - 8) ≤ 0x800000 → Gives (.nsaWriteUser task ticket body) s fun u =>
      Posted s u task (rec_ 0 2 0 0 0) ∧ ∀ a, memRead u.mem a = if 0xE1000000 + w 0 ≤ a ∧
        a < 0xE1000000 + w 0 + (body.length - 8) then body.getD (a - (0xE1000000 + w 0) + 8) 0 else memRead s.mem a) ∧
    (w 1 ≠ 0 → refuses (.nsaWriteUser task ticket body) 0 2 5 fun u => u.mem = s.mem) ∧
    (w 1 = 0 → w 0 % 4 ≠ 0 ∨ 0x800000 < w 0 + (body.length - 8) → refuses (.nsaWriteUser task ticket body) 0 2 6 fun u =>
      u.mem = s.mem) ∧
    (let ok : Prop := w 0 % 4 = 0 ∧ w 1 % 4 = 0 ∧ 4 ≤ w 1 ∧ w 1 ≤ 32768 ∧ w 0 + w 1 ≤ 0x800000 ∧ w 2 % 4 = 0 ∧
       0x8000 ≤ w 2 ∧ w 2 + w 1 ≤ 0x10000
     (w 3 = 0 → ok → Gives (.nsaReadUser task ticket body) s fun u => u.mem = s.mem ∧
        Posted s u task { (rec_ 0 3 1 0 (w 1)) with dest := w 2, bytes := memBytes s.mem (0xE1000000 + w 0) (w 1) }) ∧
     (w 3 ≠ 0 → refuses (.nsaReadUser task ticket body) 0 3 5 fun u => u.mem = s.mem) ∧
     (w 3 = 0 → ¬ ok → refuses (.nsaReadUser task ticket body) 0 3 6 fun u => u.mem = s.mem)) ∧
    (let ok := maskRangeOk (w 0) (w 1) (body.length / 4 - 2)
     (ok = true → Gives (.nsaMask task ticket body) s fun u => Posted s u task (rec_ 0 4 0 0 0) ∧ u.nsa.mask = s.nsa.mask ∧
       u.nsa.pendMask = s.nsa.pendMask ++ [(nowNs s, w 0, maskBits ws)]) ∧
     (ok = false → refuses (.nsaMask task ticket body) 0 4 6 fun u => u.nsa = s.nsa)) ∧
    (loopRefuse s (w 0) (w 1) ws = 0 → Gives (.lpeLoop task ticket body) s fun u => Posted s u task (rec_ 2 0 0 0 0) ∧
      ∃ l, alGet? u.lpe.loops (w 0) = some l ∧ l.pendDesc = some (tickNow s, ws) ∧ l.pendMode = none) ∧
    (loopRefuse s (w 0) (w 1) ws ≠ 0 → refuses (.lpeLoop task ticket body) 2 0 (loopRefuse s (w 0) (w 1) ws) fun u =>
      u.lpe = s.lpe ∧ getF u F.LPE_EVENTS_REFUSED = 1) ∧
    (groupRefuse s (w 0) (w 1) ws = 0 → Gives (.lpeGroup task ticket body) s fun u => Posted s u task (rec_ 2 1 0 0 0) ∧
      ∃ g, alGet? u.lpe.groups (w 0) = some g ∧ g.pend = some (tickNow s, lw ws 0)) ∧
    (groupRefuse s (w 0) (w 1) ws ≠ 0 → refuses (.lpeGroup task ticket body) 2 1 (groupRefuse s (w 0) (w 1) ws) fun u =>
      u.lpe = s.lpe ∧ getF u F.LPE_EVENTS_REFUSED = 1) ∧
    (modeRefuse s (w 0) (w 1) = 0 → Gives (.lpeMode task ticket body) s fun u => Posted s u task (rec_ 2 2 0 0 0) ∧
      ∃ l, alGet? u.lpe.loops (w 0) = some l ∧ l.pendMode = some (tickNow s, w 1)) ∧
    (modeRefuse s (w 0) (w 1) ≠ 0 → refuses (.lpeMode task ticket body) 2 2 (modeRefuse s (w 0) (w 1)) fun u =>
      u.lpe = s.lpe ∧ getF u F.LPE_EVENTS_REFUSED = 1) ∧
    (let c := mtrRefuse s (w 0 / 65536) (w 0 % 65536) (w 1) ws
     (c = 0 → Gives (.mtrConfig task ticket body) s fun u => Posted s u task (rec_ 3 0 0 0 0) ∧
       getF u F.MTR_STATUS_CFG_PENDING = 1 ∧ u.mtr.pend = s.mtr.pend ++ [(nowNs s, w 0 / 65536, w 0 % 65536, ws)]) ∧
     (c ≠ 0 → refuses (.mtrConfig task ticket body) 3 0 c fun u => u.mtr = s.mtr ∧ getF u F.MTR_EVENTS_CFG_REFUSED = 1)) ∧
    (let n := w 0 % 8
     let fit : Prop := chkWidthOk s n = true ∧ getFi s F.CHK_CFG_PROG n ≠ 0 ∧ (isPair s = false ∨ n < 6)
     let res := crcOf (chkParams s n) (body.drop 16)
     let differs : Prop := getFi s F.CHK_CFG_CMP_EN n = 1 ∧ res ≠ (w 2 + w 3 * 2 ^ 32) % 2 ^ getFi s F.CHK_CFG_WIDTH n
     (fit → w 0 < 8 → w 1 = 0 → Gives (.chkRun task ticket body) s fun u => getFi u F.CHK_STAT_DONE n = 1 ∧
       getFi u F.CHK_RES_LO_RES n = res % 2 ^ 32 ∧ getFi u F.CHK_RES_HI_RES n = res / 2 ^ 32 % 2 ^ 32 ∧
       ∃ code, (code % 2 = 1 ↔ differs) ∧ Posted s u task (rec_ 4 0 1 code res)) ∧
     (fit → w 0 < 8 ∧ w 1 = 0 ∨ refuses (.chkRun task ticket body) 4 0 2 fun u => u.regs = s.regs) ∧
     (¬ fit → refuses (.chkRun task ticket body) 4 0 1 fun u => u.regs = s.regs)) ∧
    (let x := sesOf s (w 0 % 4096)
     (w 0 < 4096 → w 1 = 0 → x.state = ssADMITTED → Gives (.sesSend task ticket body) s fun u =>
       Posted s u task (rec_ 5 0 0 0 0) ∧
       (holds s = true → s.ses.txq.length < 256 →
         u.ses.txq = s.ses.txq ++ [(w 0, x.subId, x.epoch, x.txSeq + 1, body.drop 8)]) ∧
       (holds s = true → 256 ≤ s.ses.txq.length → u.ses = s.ses ∧
         getF u F.SES_CNT_TXQ_FULL_COUNT = (getF s F.SES_CNT_TXQ_FULL_COUNT + 1) % 2 ^ 32) ∧
       (holds s = false → u.ses = s.ses)) ∧
     (x.state ≠ ssADMITTED → refuses (.sesSend task ticket body) 5 0 1 fun u => u.ses = s.ses) ∧
     (x.state = ssADMITTED → 4096 ≤ w 0 ∨ w 1 ≠ 0 → refuses (.sesSend task ticket body) 5 0 2 fun u => u.ses = s.ses)) ∧
    (w 0 < 4096 → 0x8000 ≤ w 1 → w 1 ≤ 0xFFC0 → w 1 % 64 = 0 → Gives (.sesRead task ticket body) s fun u =>
      Posted s u task { (rec_ 5 1 1 0 0) with dest := w 1, read := some (w 0) } ∧ u.ses = s.ses) ∧
    (4096 ≤ w 0 → refuses (.sesRead task ticket body) 5 1 1 fun u => u.ses = s.ses) ∧
    (w 0 < 4096 → w 1 < 0x8000 ∨ 0xFFC0 < w 1 ∨ w 1 % 64 ≠ 0 → refuses (.sesRead task ticket body) 5 1 2 fun u => u.ses = s.ses)

/-! ### The pair -/

/-- R274 to R278, R296, R298, R299, R319: the lines of the token, takes, and the token keeper. -/
def Obligations.TokenAndKeeper : Prop :=
  ∀ (s : State),
    (∀ ns : Nat, tokenIn s = true → Gives (.tokenHoldInFall ns) s fun u => tokenIn u = false ∧
      u.red.fall = some ((tb0Ns s : Int) + ((ns % 250000 : Nat) : Int)) ∧ (s.red.latched = false → s.red.taking = false → u.fio.latch = s.fio.emitted)) ∧
    (tokenIn s = false → isPair s = false ∨ s.red.latched = false → Gives .tokenHoldInRise s fun u => tokenIn u = true ∧
      u.red.fall = none ∧ u.fio = s.fio) ∧
    (tokenIn s = false → isPair s = true → s.red.latched = true → s.red.restartDue = none → driveOf s = drLATCHED →
      Gives .tokenHoldInRise s fun u => u.red.latched = false ∧ driveOf u = drOFF ∧ getF u F.RED_EVENTS_SWITCH = 1) ∧
    (s.boot.stage ≠ 0 → tickDone s = true → takeAllowed (toTick s) = true → Gives .tokenTake s fun u =>
      u.red.taking = true ∧ holds u = true ∧ driveOf u = drLIVE ∧ flag u F.RED_STATUS_IN_SYNC = false ∧
      getF u F.RED_CNT_SWITCH_COUNT = (getF s F.RED_CNT_SWITCH_COUNT + 1) % 2 ^ 32) ∧
    (s.red.taking = true → s.red.forcesAt = [] → Gives .takeEmission s fun u => u.red.taking = false ∧ u.red.inputDue = [] ∧
      u.forcesEff = s.forces) ∧
    (∀ t rest, s.red.announceAt = t :: rest → holds s = true → t ≤ nowNs s → Gives .addressAnnounceRepeat s fun u =>
      u.red = { s.red with announceAt := rest } ∧ u.regs = s.regs ∧
      (∀ p < 6, (NetAddr.v4 s.net.svcV4).given = true → .arp p (vlanOf s p).1 (vlanOf s p).2 s.net.svcV4 ∈ u.sent) ∧
      (∀ p < 6, (NetAddr.v6 s.net.svcV6).given = true →
        .neighbour p (vlanOf s p).1 (vlanOf s p).2 s.net.svcV6 true ∈ u.sent)) ∧
    (isPair s = true → holds s = true → tokenIn s = true →
      (position s = 1 → Gives .tokenContention s fun u => holds u = true ∧ getF u F.RED_EVENTS_CONTENTION = 1) ∧
      (position s = 2 → s.red.latched = false → Gives .tokenContention s fun u => holds u = false ∧ driveOf u = drOFF)) ∧
    (∀ key : BitVec 8, Gives (.keeperRefresh key true) s fun u => u = cfgErr s) ∧
    (∀ key : BitVec 8, s.boot.stage < 2 → Gives (.keeperRefresh key false) s fun u => u = s) ∧
    (∀ key : BitVec 8, 2 ≤ s.boot.stage → flag s F.RED_STATUS_KEEPER_TRIPPED = false →
      let good := match s.red.keeperKey with | none => decide (key = 0x5A#8) | some k => decide (key.toNat = 255 - k)
      (good = true → Gives (.keeperRefresh key false) s fun u => u.red.keeperKey = some key.toNat ∧ u.red.keeperOk = s.red.keeperTest ∧
        u.regs = s.regs) ∧
      (good = false → s.red.keeperKey = none → Gives (.keeperRefresh key false) s fun u => u = s) ∧
      (good = false → s.red.keeperKey ≠ none → holds s = true → Gives (.keeperRefresh key false) s fun u =>
        flag u F.RED_STATUS_KEEPER_TRIPPED = true ∧ holds u = false ∧ driveOf u = drLATCHED ∧ u.red.latched = true ∧
        u.fio.latch = s.fio.emitted ∧ u.red.restartDue = some caKEEPER)) ∧
    (flag s F.RED_STATUS_KEEPER_TRIPPED = false → s.red.keeperKey ≠ none → holds s = true → Gives .keeperTrip s fun u =>
      flag u F.RED_STATUS_KEEPER_TRIPPED = true ∧ holds u = false ∧ driveOf u = drLATCHED ∧ u.red.keeperOk = false ∧
      roleOf u = roDEGRADED) ∧
    (s.red.latched = true → s.red.holdOver = false → driveOf s = drLATCHED → s.red.restartDue = none →
      s.red.taking = false → roleOf s ≠ roSTANDBY → Gives .stalemateHoldExpiry s fun u => u.red.holdOver = true ∧
        driveOf u = drSAFE ∧ ∀ c < 16, (getF u F.FIO_DO_VALUE).testBit c = s.fio.safe.testBit c) ∧
    (flag s F.RED_CFG_COLD_TAKE = true → mayColdTake (reachTick s) = true → Gives .coldTake s fun u =>
      holds u = true ∧ driveOf u = drLIVE)

/-- R290, R294, R295, R297, R299 to R302: the commands of RED_CMD, arbitration, joining, digests and mutual diagnosis. -/
def Obligations.PairCommands : Prop :=
  ∀ (s : State),
    let refused (u : State) : Prop := getF u F.RED_EVENTS_CMD_REFUSED = 1 ∧ { u with regs := s.regs } = s
    ((holds s = true ∧ peerEligible s = true) → Gives .switch s fun u => u.red.switchAsked = true ∧ u.regs = s.regs) ∧
    (¬ (holds s = true ∧ peerEligible s = true) → Gives .switch s refused) ∧
    ((roleOf s = roUNSYNCED ∧ linkUp s = true ∧ peerActive s = true) → Gives .resync s fun u => roleOf u = roSYNCING) ∧
    (¬ (roleOf s = roUNSYNCED ∧ linkUp s = true ∧ peerActive s = true) → Gives .resync s refused) ∧
    (roleOf s = roLOCKED_OUT → Gives .releaseLockout s fun u => roleOf u = roUNSYNCED ∧ u.red.lockedOut = false) ∧
    (roleOf s ≠ roLOCKED_OUT → Gives .releaseLockout s refused) ∧
    (mayColdTake (reachTick s) = true → Gives .take s fun u => holds u = true ∧ driveOf u = drLIVE) ∧
    (mayColdTake (reachTick s) = false → Gives .take s refused) ∧
    (mayArbitrate s = true →
      (s.red.lockedOut = true → Gives .arbitration s fun u => roleOf u = roLOCKED_OUT) ∧
      (s.red.lockedOut = false → isPair s = false → isFatal s = false → lineFree s = true → Gives .arbitration s fun u =>
        holds u = true ∧ roleOf u = roSINGLE ∧ driveOf u = drLIVE) ∧
      (s.red.lockedOut = false → isPair s = true → linkUp s = true → peerActive s = true → Gives .arbitration s fun u =>
        roleOf u = roSYNCING ∧ holds u = holds s) ∧
      (s.red.lockedOut = false → isPair s = true → linkUp s = true → peerActive s = false → tokenIn s = false →
        peerRole s ≠ 15 → getF s F.RED_HEALTH_PEER_SCORE < ownScore s → isFatal s = false → lineFree (reachTick s) = true →
        Gives .arbitration s fun u => holds u = true ∧ driveOf u = drLIVE) ∧
      (s.red.lockedOut = false → isPair s = true → linkUp s = false → tokenIn s = true → Gives .arbitration s fun u =>
        roleOf u = roUNSYNCED) ∧
      (s.red.lockedOut = false → isPair s = true → linkUp s = false → tokenIn s = false →
        (isFatal s = true → Gives .arbitrationLinkTimeout s fun u => roleOf u = roDEGRADED) ∧
        (isFatal s = false → lineFree (reachTick s) = true → Gives .arbitrationLinkTimeout s fun u => holds u = true ∧
          driveOf u = drLIVE))) ∧
    (tickDone s = false → linkUp s = true → nowNs s % netNs s = 0 →
      (roleOf s = roSYNCING → fullPass s = false → exec .resyncInstant s = .next s) ∧
      (roleOf s = roSYNCING → fullPass s = true → Gives .resyncInstant s fun u => roleOf u = roSTANDBY ∧ flag u F.RED_STATUS_IN_SYNC = true ∧
        getF u F.RED_CNT_RESYNC_COUNT = (getF s F.RED_CNT_RESYNC_COUNT + 1) % 2 ^ 32) ∧
      (roleOf s = roSOLO → peerRole s = roSYNCING → s.runState = true → s.boot.runAt + 200000000 ≤ nowNs s →
        s.red.sentParts ≠ [] → Gives .resyncInstant s fun u =>
        roleOf u = roACTIVE)) ∧
    ((∃ e ∈ s.red.own ++ s.red.peer, entryDue s e = true) → s.red.diagnosing = false → Gives .digestEntryTimeout s fun u =>
      u.red.diagnosing = true ∧ getF u F.RED_EVENTS_MISMATCH = 1 ∧ u.red.own = s.red.own.filter (fun e => !entryDue s e) ∧
      u.red.peer = s.red.peer.filter (fun e => !entryDue s e)) ∧
    (∀ answer scrub seqs : Bool, s.red.diagnosing = true → getF s F.RED_MISMATCH_OWN_DIAG = 1 → linkUp s = true →
      getF s F.RED_MISMATCH_PEER_DIAG < 2 → Gives (.diagnosisComplete answer scrub seqs) s fun u =>
        getF u F.RED_MISMATCH_OWN_DIAG = (if (answer && scrub && seqs) = true then 2 else 3) ∧ u.red = s.red)

/-- R282 to R287, R289, R291, R292, R301, R350: a frame is read back from its blocks, whichever of the two lanes carry them;
and the link and what its frames do on a module whose link is up. A frame whose tag or EPOCH is wrong is counted and
dropped, one that is not the next in order is acknowledged and dropped, one of an unknown TYPE has no effect but the event. -/
def Obligations.FurovFrames : Prop :=
  (∀ (bs : List Byte) (rest : List LineBlock), bs.length % 8 = 0 →
    readFrames none (frameBlocks bs ++ rest) = bs :: readFrames none rest) ∧
  (∀ (t : LaneTx) (bs : List LineBlock), t.pos % 2 = 0 → (∀ b ∈ bs, b.ctl = false ∨ b.bytes.head? ≠ some 0x4B) →
    mergeLanes (laneBlocks 0 (putBlocks [0, 1] t bs).2) (laneBlocks 1 (putBlocks [0, 1] t bs).2) = bs) ∧
  ∀ (s : State) (h : FurovHdr),
    let good : Prop := linkUp s = true ∧ h.tagOk = true ∧ h.epoch.toNat = peerEpoch s
    let up : Prop := good ∧ h.seq = s.red.rxSeq + 1 ∧ h.unknown = none
    let standby : Prop := up ∧ roleOf s = roSTANDBY
    (∀ (held : Bool) (a b c d : Nat) (x : Health) (e : JobEntry) (p : StatePart),
      ∀ i ∈ [Instr.furovToken h held a b, .furovAck h a, .furovHealth h x, .furovTime h a b c d, .furovJob h e, .furovState h p],
      (linkUp s = true → h.tagOk = false ∨ h.epoch.toNat ≠ peerEpoch s → Gives i s fun u =>
        getF u F.RED_CNT_GCM_FAIL_COUNT = (getF s F.RED_CNT_GCM_FAIL_COUNT + 1) % 2 ^ 32 ∧ u.red = s.red ∧ u.nsa = s.nsa) ∧
      (good → h.seq ≠ s.red.rxSeq + 1 → exec i s = .next (sendAck s)) ∧
      (good → h.seq = s.red.rxSeq + 1 → h.unknown ≠ none → Gives i s fun u =>
        u.red.rxSeq = h.seq ∧ u.red.peerHolds = s.red.peerHolds ∧ u.nsa = s.nsa ∧ u.regs = s.regs)) ∧
    (∀ (held : Bool) (a b : Nat), up → Gives (.furovToken h held a b) s fun u => u.red.peerHolds = held ∧
      u.red.peerRelease = (a, b) ∧ u.red.rxSeq = h.seq ∧ u.regs = s.regs) ∧
    (∀ (step : Fin 4) (lanes : BitVec 2), isPair s = true → s.runtimeUp = true → linkUp s = false →
      getF s F.RED_LINK_TRAIN = step.val →
      (step = 0 → s.red.linkDownAt = none → Gives (.linkTrainingStart step lanes) s fun u =>
        getF u F.RED_LINK_TRAIN = 1 ∧ getF u F.RED_LINK_LOCK = lanes.toNat ∧
        u.red = { s.red with furovKey := (slotWith s atFUROV).bind fun i => keyOf s i atFUROV }) ∧
      (step ≠ 0 → lanes ≠ 0 → Gives (.linkTrainingStart step lanes) s fun u =>
        getF u F.RED_LINK_TRAIN = step.val + 1 ∧ getF u F.RED_LINK_LOCK = lanes.toNat ∧
        (step = 3 → ∃ f x, u.sent = .furov f x :: s.sent ∧ f.body = .hello (ownHello s)) ∧
        (step ≠ 3 → u.sent = s.sent)) ∧
      (step ≠ 0 → lanes = 0 → Gives (.linkTrainingStart step lanes) s fun u => getF u F.RED_LINK_TRAIN = 0)) ∧
    (∀ x : Hello, getF s F.RED_LINK_TRAIN = 4 →
      (s.red.furovKey ≠ none → x.pos ≠ position s → Gives (.furovHello true x) s fun u =>
        linkUp u = true ∧ getF u F.RED_LINK_TRAIN = 5 ∧ u.cfg.furovEpoch = (max s.cfg.furovEpoch x.epoch + 1) % 2 ^ 31 ∧
        u.red.txSeq = 0 ∧ u.red.rxSeq = 0 ∧ u.red.peerSame = sameImages (ownHello s) x) ∧
      (s.red.furovKey ≠ none → x.pos = position s → Gives (.furovHello true x) s fun u =>
        getF u F.RED_LINK_TRAIN = 7 ∧ u.red = s.red) ∧
      (Gives (.furovHello false x) s fun u => getF u F.RED_LINK_TRAIN = 6 ∧ u.red = s.red)) ∧
    (∀ q : Nat, up → Gives (.furovAck h q) s fun u => (∀ e ∈ u.red.unacked, q < e.1.seq) ∧
      (∀ e ∈ s.red.unacked, q < e.1.seq → e ∈ u.red.unacked) ∧ u.regs = s.regs) ∧
    (∀ q f n, s.red.unacked.find? (fun e => e.1.seq = q) = some (f, n) →
      (n < 3 → Gives (.furovRetransmit q) s fun u =>
        u.red.unacked = s.red.unacked.map (fun e => if e.1.seq = q then (e.1, e.2 + 1) else e) ∧
        (∃ x, u.sent = .furov { f with retx := true } x :: s.sent) ∧
        getF u F.RED_CNT_RETX_COUNT = (getF s F.RED_CNT_RETX_COUNT + 1) % 2 ^ 32) ∧
      (3 ≤ n → linkUp s = true → s.red.diagnosing = false → Gives (.furovRetransmit q) s fun u => linkUp u = false ∧
        getF u F.RED_EVENTS_LINK_DOWN = 1 ∧ u.red.unacked = [])) ∧
    (∀ l : Fin 2, linkUp s = true →
      (getF s F.RED_LINK_LOCK = 3 → Gives (.laneLockLoss l) s fun u => getF u F.RED_LINK_LOCK = 3 - 2 ^ l.val ∧
        getF u F.RED_STATUS_LANES = 1 ∧ linkUp u = true ∧ getF u F.RED_EVENTS_LANE_DOWN = 1 ∧
        u.red.unacked = s.red.unacked) ∧
      (getF s F.RED_LINK_LOCK = 2 ^ l.val → s.red.diagnosing = false → Gives (.laneLockLoss l) s fun u =>
        linkUp u = false ∧ getF u F.RED_EVENTS_LANE_DOWN = 1)) ∧
    (∀ (task : Fin 16) (n : Nat) (c sh : List (Nat × BitVec 8)) (l : List (Nat × Force)), standby →
      s.red.inputDue.contains task.val = true → (taskOf s task).pidx = n → Gives (.furovInput h task n c l sh) s fun u =>
        u.inImg = memPutCells [] (imageCells c) ∧ u.red.inputDue = s.red.inputDue.erase task.val ∧
        ∀ r, taskRec s task.val = some r → scanOf s task.val = none → halted s task.val = false →
          (∃ c, healthyCore s r.core = some c) → ∃ sc, scanOf u task.val = some sc ∧ sc.frozenForces = l ∧
            sc.frozenShared = memPutCells [] sh) ∧
    (∀ (c : List (Nat × BitVec 8)) (l : List (Nat × Option Force)), standby →
      (s.red.tickDue = false → Gives (.furovTick h (tickNow s) c l) s fun u =>
        u.red.tickHeld = some (imageCells c) ∧ u.inImg = s.inImg ∧ u.lpe = s.lpe) ∧
      (s.red.tickDue = true → stateAwaited s = false → Gives (.furovTick h (tickNow s) c l) s fun u =>
        u.red.tickHeld = none ∧ u.red.tickDue = false)) ∧
    (∀ (k : Nat) (recs : List (Nat × Session)) (t x : List (Nat × Int)) (m : List Nat) (smp : List MtrFwd) (o : Snapshot),
      standby → s.nsa.open_ = some o → o.cycle = k → Gives (.furovSnapshot h k recs t x m smp) s fun u =>
        u.nsa.open_ = none ∧ u.mtr.viewT = t ∧ u.mtr.viewE = x ∧ u.mtr.viewMiss = m ∧
        ∃ sn, u.nsa.snap = some sn ∧ sn.cycle = k) ∧
    (∀ (src task : Fin 16) (inst dg : BitVec 64), up → roleOf s = roACTIVE → s.red.own = [] →
      Gives (.furovDigest h src task inst dg) s fun u => u.red.peer = s.red.peer ++
        [{ source := src.val, task := task.val, inst := inst.toNat, digest := dg.toNat, at_ := nowNs s }]) ∧
    (∀ x : Health, up → s.red.diagnosing = false → s.red.joining = false → x.score < 256 → x.role < 9 →
      Gives (.furovHealth h x) s fun u => getF u F.RED_HEALTH_PEER_SCORE = x.score ∧
        getF u F.RED_STATUS_PEER_ROLE = x.role ∧ flag u F.RED_HEALTH_PEER_FATAL = x.fatal ∧
        u.red.peerLocked = !x.penalties.testBit 8) ∧
    (∀ (t : Nat) (body : List (BitVec 8)) (v : Verdict), standby → 8 ≤ body.length → body.length % 4 = 0 →
      maskRangeOk (pn body 0 4) (pn body 4 4) (body.length / 4 - 2) = true → Gives (.furovForward h 0x07 t body v) s fun u =>
        u.nsa.pendMask = s.nsa.pendMask ++ [(t - 1, pn body 0 4, maskBits ((bodyWords body).drop 2))]) ∧
    (∀ (t : Nat) (body : List (BitVec 8)) (v : Verdict) (a : Activation), up → roleOf s = roACTIVE →
      s.nsa.activation = some a → a.confirmed = false → a.slot = pn body 0 1 → body.drop 1 = imageDigest s ikMODEL a.slot →
      Gives (.furovForward h 0x04 t body v) s fun u => u.nsa.activation = some { a with confirmed := true }) ∧
    (∀ n : Nsa, up → roleOf s = roSYNCING → Gives (.furovState h (.solver n)) s fun u => u.nsa = n) ∧
    (∀ l : List (Nat × Force), up → roleOf s = roSYNCING → Gives (.furovState h (.forces l)) s fun u => u.forces = l ∧
      u.forcesEff = l ∧ flag u F.SCN_STATUS_FORCED = l.any (fun x => x.2.enable)) ∧
    (∀ a b c d : Nat, up → flag s F.TIM_STATUS_PEER_VALID = false → Gives (.furovTime h a b c d) s fun u =>
      flag u F.TIM_STATUS_PEER_VALID = true ∧ ∃ e : Int, -20 * 2 ^ 39 ≤ e ∧ e ≤ 20 * 2 ^ 39 ∧
        u.tim.peer = (((b : Int) - a) + ((c : Int) - d)) * 2 ^ 38 + e) ∧
    (∀ (id : JobId) (n : Nat) (ok : Bool), standby → Gives (.furovJob h (.fact id n ok)) s fun u =>
      u.red.jobFacts = s.red.jobFacts ++ [(id, n, ok)] ∧ u.nsa = s.nsa ∧ u.dpo = s.dpo) ∧
    (roleOf s = roSTANDBY → flag s F.RED_STATUS_IN_SYNC = true → s.red.tickDue = true → Gives .forwardTimeout s fun u =>
      roleOf u = roUNSYNCED ∧ flag u F.RED_STATUS_IN_SYNC = false ∧ getF u F.RED_EVENTS_SYNC_LOST = 1 ∧
      u.red.tickDue = false)


/-! ### Sessions, check-value units and queues -/

/-- R304, R305, R306, R308, R309, R312, R313, R318, R322, R323, R324, R326, R335, R431, R471: joins, telemetry, leaves and timeouts of a
session, the next queued datagram, the record window; and the jobs of a check-value unit and a queue that was full. -/
def Obligations.SessionsAndChecks : Prop :=
  ∀ (s : State),
    (∀ (h : QspHdr) (typ : BitVec 8) (p : List (BitVec 8)), sesHears s h = true →
      let drops (c : Instr) : Prop := Gives c s fun u => u.ses = s.ses ∧
        getF u F.SES_CNT_AUTH_COUNT = (getF s F.SES_CNT_AUTH_COUNT + 1) % 2 ^ 32 ∧ getF u F.SES_EVENTS_AUTH = 1
      (joinEngines s = true → keyOf s (getF s F.SES_CFG_KEY_SLOT) atSES = none → drops (.qspJoinReceive h)) ∧
      (sesAdmits s h = none → drops (.qspTelemetryReceive h typ p) ∧ drops (.qspLeaveReceive h))) ∧
    (∀ (h : QspHdr) (k : List Byte), sesHears s h = true → joinEngines s = true → keyOf s (getF s F.SES_CFG_KEY_SLOT) atSES = some k →
      let sub := h.sub.toNat
      let epoch := h.epoch.toNat
      let good : Bool := qspOk h && h.tagOk && decide (h.len = 8 ∧ 0 < epoch ∧ epoch < 2 ^ 31)
      (good = false → Gives (.qspJoinReceive h) s fun u => u.ses = s.ses ∧
        getF u F.SES_CNT_AUTH_COUNT = (getF s F.SES_CNT_AUTH_COUNT + 1) % 2 ^ 32 ∧ getF u F.SES_EVENTS_AUTH = 1) ∧
      (∀ n, sesOfSub s sub = some n → topEpoch s sub < epoch → good = true →
        Gives (.qspJoinReceive h) s fun u => (sesOf u n).state = ssPENDING ∧ (sesOf u n).src = some h.src ∧
          (sesOf u n).epoch = epoch ∧ (sesOf u n).key = sesKey k sub epoch ∧
          (sesOf u n).lastJoin = nowNs s ∧ u.ses.epochs = s.ses.epochs)) ∧
    (∀ (h : QspHdr) (payload : List (BitVec 8)) (n : Nat), sesHears s h = true → sesAdmits s h = some n →
      payload.length = 32 → h.len = 32 →
      let x := sesOf s n
      (seqReplay x h.seq.toNat = true → Gives (.qspTelemetryReceive h 0x10 payload) s fun u =>
        u.ses.live = s.ses.live ∧ getF u F.SES_CNT_REPLAY_COUNT = (getF s F.SES_CNT_REPLAY_COUNT + 1) % 2 ^ 32) ∧
      (seqReplay x h.seq.toNat = false → h.seq.toNat < x.seqHi → Gives (.qspTelemetryReceive h 0x10 payload) s fun u =>
        sesOf u n = seqSeen x h.seq.toNat ∧ getF u F.SES_CNT_LATE_COUNT = (getF s F.SES_CNT_LATE_COUNT + 1) % 2 ^ 32) ∧
      (seqReplay x h.seq.toNat = false → x.seqHi < h.seq.toNat → crc32c (payload.take 28) = leNat (payload.drop 28) →
        x.pipLast = none → Gives (.qspTelemetryReceive h 0x10 payload) s fun u =>
          (sesOf u n).seqHi = h.seq.toNat ∧ (sesOf u n).rxTime = qspRx s h ∧
          (sesOf u n).age = ageAt s (qspRx s h) (s.nsa.instant.getD 0) ∧ (sesOf u n).never = false ∧
          (sesOf u n).port = h.src.eth.val ∧ (sesOf u n).src = some h.src ∧ (sesOf u n).measTime = leNat (payload.take 8) ∧
          (sesOf u n).pip = bodyW payload 2 % 65536 ∧ (sesOf u n).q = bodyW payload 3 ∧ (sesOf u n).tf = bodyW payload 4 ∧
          (sesOf u n).tr = bodyW payload 5 ∧ (sesOf u n).dp = bodyW payload 6 ∧
          getF u F.SES_CNT_OK_COUNT = (getF s F.SES_CNT_OK_COUNT + 1) % 2 ^ 32)) ∧
    (∀ (h : QspHdr) (n : Nat), sesHears s h = true → sesAdmits s h = some n → seqReplay (sesOf s n) h.seq.toNat = false →
      h.len = 0 →
      (h.seq.toNat < (sesOf s n).seqHi → Gives (.qspLeaveReceive h) s fun u =>
        sesOf u n = seqSeen (sesOf s n) h.seq.toNat ∧
        getF u F.SES_CNT_LATE_COUNT = (getF s F.SES_CNT_LATE_COUNT + 1) % 2 ^ 32) ∧
      ((sesOf s n).seqHi ≤ h.seq.toNat → Gives (.qspLeaveReceive h) s fun u =>
        sesOf u n = { (seqSeen (sesOf s n) h.seq.toNat).leave ssFREE with src := some h.src, port := h.src.eth.val })) ∧
    (∀ n : Fin 4096, (sesOf s n.val).state = ssPENDING → (sesOf s n.val).lastJoin + 10000000000 ≤ nowNs s →
      Gives (.pendingTimeout n) s fun u => sesOf u n.val = (sesOf s n.val).leave ssFREE) ∧
    (∀ n : Fin 4096, holds s = true → (sesOf s n.val).state = ssADMITTED →
      (sesOf s n.val).lastRx + getF s F.SES_CFG2_DROP_S * 1000000000 ≤ nowNs s → Gives (.sessionDrop n) s fun u =>
        sesOf u n.val = (sesOf s n.val).leave ssFREE ∧ getF u F.SES_EVENTS_DROPPED = 1) ∧
    (∀ n sub epoch q p, sesServes s = true → (s.ses.txq.find? fun e => sentOf s e.1 < 16) = some (n, sub, epoch, q, p) →
      Gives .commandTransmit s fun u => u.sent = .qsp (sesOf s n).src sub epoch 0x11 q p
        (qspBytes (epochKey s sub epoch) sub epoch 0x11 q p) :: s.sent ∧ sentOf u n = sentOf s n + 1 ∧
        u.ses.txq = s.ses.txq.erase (n, sub, epoch, q, p) ∧ u.ses.live = s.ses.live) ∧
    (∀ v : BitVec 32, Takes s R.SES_SEL v → Gives (.sesSelWrite v) s fun u => u.ses = s.ses ∧ ∀ w < 16,
      getFi u F.SES_REC_DATA w = bodyW (sesRecord (if v.getLsbD 12 then snapRecord s (v.toNat % 4096)
        else sesOf s (v.toNat % 4096))) w) ∧
    (∀ u : Fin 8, chkBusy s u.val = false →
      (Gives (.resetPip u) s fun t => getFi t F.CHK_STAT_PIP_VALID u.val = 0 ∧ chkBusy t u.val = false) ∧
      (getFi s F.CHK_CFG_PROG u.val = 0 → chkWidthOk s u.val = true → getFi s F.CHK_LEN_LEN u.val ≠ 0 →
        Gives (.chkStart u) s fun t => chkBusy t u.val = true)) ∧
    (∀ u : Fin 8, chkBusy s u.val = true → exec (.chkStart u) s = .next (cfgErr s) ∧ exec (.resetPip u) s = .next (cfgErr s) ∧
      (flag s F.CLK_GATE_ENG_CHK = true → Gives (.chkJobDone u true) s fun t => chkBusy t u.val = false ∧ getFi t F.CHK_STAT_DMA_ERR u.val = 1 ∧
        getFi t F.CHK_STAT_DONE u.val = 1) ∧
      (let a := getFi s F.CHK_SRC_LO_ADDR u.val + (getFi s F.CHK_SRC_HI_ADDR u.val % 256) * 2 ^ 32
       let n := getFi s F.CHK_LEN_LEN u.val
       let res := crcOf (chkParams s u.val) (physBytes s s.free a n)
       flag s F.CLK_GATE_ENG_CHK = true → dmaOk a n = true → Gives (.chkJobDone u false) s fun t => chkBusy t u.val = false ∧
         getFi t F.CHK_STAT_DONE u.val = 1 ∧ getFi t F.CHK_RES_LO_RES u.val = res % 2 ^ 32 ∧
         getFi t F.CHK_RES_HI_RES u.val = res / 2 ^ 32 % 2 ^ 32 ∧
         (getFi s F.CHK_CFG_CMP_EN u.val = 1 → res ≠ chkExp s u.val % 2 ^ getFi s F.CHK_CFG_WIDTH u.val →
           getFi t F.CHK_STAT_MISMATCH u.val = 1))) ∧
    (∀ q : Fin 48,
      let x := queueOf s q.val
      let d := queueSpec q.val
      x.words.length ≤ d.depth →
      (∀ w : Nat, s.boot.stage = 0 → exec (.queueWriteComplete q (.write w)) s = .next s) ∧
      (∀ w : Nat, s.boot.stage ≠ 0 → (x.held.isSome = true → exec (.queueWriteComplete q (.write w)) s = .next s) ∧
        (x.held = none → x.words.length < d.depth → Gives (.queueWriteComplete q (.write w)) s fun t =>
          queueOf t q.val = { x with words := x.words ++ [w % 2 ^ d.bits] } ∧
          getFi t F.QUE_STAT_LEVEL q.val = x.words.length + 1 ∧
          getFi t F.QUE_STAT_PEAK q.val = max (getFi s F.QUE_STAT_PEAK q.val) (x.words.length + 1) ∧
          getFi t F.QUE_STALL_COUNT q.val = getFi s F.QUE_STALL_COUNT q.val) ∧
        (x.held = none → x.words.length = d.depth → Gives (.queueWriteComplete q (.write w)) s fun t =>
          queueOf t q.val = { x with held := some (w % 2 ^ d.bits) } ∧
          getFi t F.QUE_STALL_COUNT q.val = (getFi s F.QUE_STALL_COUNT q.val + 1) % 2 ^ 32)) ∧
      (∀ (w : Nat) (ws : List Nat) (r : QueueRead), x.words = w :: ws → r ∈ [.good, .corrected, .poisoned .dropped] →
        Gives (.queueWriteComplete q (.read r)) s fun t =>
          queueOf t q.val = { words := ws ++ x.held.toList, held := none } ∧
          getFi t F.QUE_STAT_LEVEL q.val = (ws ++ x.held.toList).length ∧
          getFi t F.QUE_STAT_CORR q.val =
            (if r = .corrected then min (getFi s F.QUE_STAT_CORR q.val + 1) 255 else getFi s F.QUE_STAT_CORR q.val) ∧
          getFi t F.QUE_STAT_UNCORR q.val =
            (if r = .poisoned .dropped then min (getFi s F.QUE_STAT_UNCORR q.val + 1) 15 else getFi s F.QUE_STAT_UNCORR q.val)))

/-! ### The host channel and authority -/

/-- R46, R49, R53, R102, R152, R156 to R158, R265, R329 to R334, R410, R428, R452, R453: what a request that is heard does,
with its reply, and the datagrams, timeouts and mailboxes of the host channel. -/
def Obligations.HostRequests : Prop :=
  ∀ (s : State) (r : HostReq) (p : List (BitVec 8)) (v : Verdict),
    let h := hostHeard s r
    let ok := leBytes 4 0
    let kind := pn p 0 1
    let slot := pn p 1 1
    (hears s r = true → s.qhc.lost = false → (∀ e ∈ s.qhc.kept, e.1 ≠ r.sender ∨ e.2.1 ≠ r.reqId.toNat) → r.via ≠ none →
      r.secured = false → ∀ i ∈ [(Instr.progExchange r p v, 0x05), (.forecast r p, 0x06), (.mask r p, 0x07),
        (.meterConfig r p, 0x09), (.setting r p, 0x0F)], Gives i.1 s fun u => Replied u r i.2 6 ok ∧ u.cfg = s.cfg ∧
          u.nsa = s.nsa ∧ u.dpo = s.dpo ∧ u.mtr = s.mtr ∧ u.exch = s.exch) ∧
    (Heard s r 0x01 p → p = [] → Gives (.statusRead r p) s fun u => u.regs = s.regs ∧
      ∃ b, (qStatus s p).2 = some (0, b) ∧ Replied u r 0x01 0 b ∧ b.take 4 = leBytes 4 (getReg s R.RED_STATUS).toNat) ∧
    (Heard s r 0x02 p → 8 ≤ p.length → reqHead p = true → pn p 4 4 % 4 = 0 →
      pn p 4 4 + (p.length - 8) ≤ imageSlotLen kind → slotInUse s kind slot = false →
      flag s F.PWR_STATUS_FROZEN = false → Gives (.imageWrite r p) s fun u => Replied u r 0x02 0 ok ∧
        memBytes u.mem (imageSlot kind slot + pn p 4 4) (p.length - 8) = p.drop 8 ∧
        (kind = ikMODEL → slotState u slot = slLOADING)) ∧
    (Heard s r 0x03 p → p.length = 8 → reqHead p = true → imgState s kind = true →
      (kind = ikMODEL → slotState s slot = slLOADING → Gives (.imageCheck r p v) s fun u =>
        slotState u slot = slVALIDATING ∧ Replied u r 0x03 0 ok) ∧
      (kind = ikRUNTIME → let c := (checkImage s kind (imageSlot kind slot) (some (pn p 4 4)) v.sigOk v.plain.isSome).2
        (c = 0 → Gives (.imageCheck r p v) s fun u => Replied u r 0x03 0 ok) ∧
        (c ≠ 0 → Gives (.imageCheck r p v) s fun u => Replied u r 0x03 3 (leBytes 4 c) ∧
          getF u F.SEC_CNT_IMG_REFUSED_COUNT = (getF s F.SEC_CNT_IMG_REFUSED_COUNT + 1) % 2 ^ 32))) ∧
    (Heard s r 0x04 p → reqHead p = true → kind = ikMODEL → p.length = 12 → lifecycle s = 2 → slotState s slot = slVALID →
      (pn p 4 8 = 0 ∨ cycleNow s + 2 ≤ pn p 4 8) → Gives (.imageSelect r p v) s fun u =>
        let k := if pn p 4 8 = 0 then cycleNow s + 2 else pn p 4 8
        Replied u r 0x04 0 (leBytes 8 k) ∧ ∃ a, u.nsa.activation = some a ∧ a.slot = slot ∧ a.at_ = k) ∧
    (Heard s r 0x05 p → p.length = 4 → pn p 0 1 ≤ 1 → pn p 1 3 = 0 → lifecycle s = 2 →
      slotInUse s ikPROGRAM (pn p 0 1) = false → let x := exchangeRequest h (pn p 0 1) v
      (x.2 = 0 → Gives (.progExchange r p v) s fun u => Replied u r 0x05 0 ok ∧ u.exch = x.1.exch ∧
        getF u F.SCN_EXCH_REFUSE = 0 ∧ u.exch.isSome = true) ∧
      (x.2 ≠ 0 → Gives (.progExchange r p v) s fun u => Replied u r 0x05 3 (leBytes 4 x.2) ∧ u.exch = s.exch ∧
        getF u F.SCN_EXCH_REFUSE = x.2)) ∧
    (Heard s r 0x06 p → forecastOk s p = true → Gives (.forecast r p) s fun u => Replied u r 0x06 0 ok ∧
      u.dpo.pendForecast = some (nowNs s, forecastRead p)) ∧
    (Heard s r 0x07 p → 8 ≤ p.length → p.length % 4 = 0 →
      (maskRangeOk (pn p 0 4) (pn p 4 4) (p.length / 4 - 2) = true → Gives (.mask r p) s fun u => Replied u r 0x07 0 ok ∧
        u.nsa.pendMask = s.nsa.pendMask ++ [(nowNs s, pn p 0 4, maskBits ((bodyWords p).drop 2))]) ∧
      (maskRangeOk (pn p 0 4) (pn p 4 4) (p.length / 4 - 2) = false → Gives (.mask r p) s fun u =>
        Replied u r 0x07 3 (leBytes 4 6) ∧ u.nsa = s.nsa)) ∧
    (Heard s r 0x09 p → ecallLenOk 3 0 p.length (bodyW p 0 / 65536) = true →
      let c := mtrRefuse s (bodyW p 0 / 65536) (bodyW p 0 % 65536) (bodyW p 1) ((bodyWords p).drop 2)
      (c = 0 → Gives (.meterConfig r p) s fun u => Replied u r 0x09 0 ok ∧ flag u F.MTR_STATUS_CFG_PENDING = true ∧
        u.mtr.pend = s.mtr.pend ++ [(nowNs s, bodyW p 0 / 65536, bodyW p 0 % 65536, (bodyWords p).drop 2)]) ∧
      (c ≠ 0 → Gives (.meterConfig r p) s fun u => Replied u r 0x09 3 (leBytes 4 c) ∧ u.mtr = s.mtr ∧
        getF u F.MTR_EVENTS_CFG_REFUSED = 1)) ∧
    (Heard s r 0x0A p → p.length = 4 → pn p 0 1 ≤ 1 → pn p 1 1 = 0 → pn p 2 2 < (if pn p 0 1 = 1 then 4096 else 34) →
      Gives (.meterClear r p) s fun u => Replied u r 0x0A 0 ok ∧
        u.mtr.clears = s.mtr.clears ++ [(nowNs s, decide (pn p 0 1 = 1), pn p 2 2)]) ∧
    (Heard s r 0x0B p → p.length = 4 → pn p 0 4 < 256 → (goodSlots s).any (fun e => e.1 = pn p 0 4) = true →
      Gives (.meterRead r p) s fun u => Replied u r 0x0B 0 (memBytes s.mem (slotAddr (pn p 0 4)) 0x40000) ∧ u.mem = s.mem) ∧
    (Heard s r 0x0C p → p.length = 4 → Gives (.meterAck r p) s fun u => Replied u r 0x0C 0 ok ∧
      getF u F.MTR_ARCH_ACK_SEQ = pn p 0 4) ∧
    (Heard s r 0x0E p → p.length = 4 → pn p 2 2 = 0 → Gives (.safeValues r p) s fun u => Replied u r 0x0E 0 ok ∧
      u.cfg = { s.cfg with safe := pn p 0 2 } ∧ u.fio = s.fio) ∧
    (Heard s r 0x0F p → 4 ≤ p.length → pn p 2 2 = 0 → let key := pn p 0 2
      (key = 0 ∨ 6 < key → Gives (.setting r p) s fun u => Replied u r 0x0F 3 (leBytes 4 1) ∧ u.cfg = s.cfg) ∧
      (1 ≤ key → key ≤ 6 → settingOk key (p.drop 4) = true → Gives (.setting r p) s fun u => Replied u r 0x0F 0 ok ∧
        u.cfg = (storeSetting s key (p.drop 4)).cfg)) ∧
    (Heard s r 0x12 p → p.length = 32 → lifecycle s ≠ 3 → flag s F.SEC_STATUS_ID_READY = true →
      Gives (.attest r p) s fun u => let b := reportBody s (attestDigests s) p
        Replied u r 0x12 0 (b ++ Config.identitySign (identitySeed s "ID") (sha3_512 b))) ∧
    (Heard s r 0x14 p → p.length = 8 → Gives (.evrAck r p) s fun u => Replied u r 0x14 0 ok ∧ hostAck u = pn p 0 8) ∧
    (Heard s r 0x15 p → p.length = 8 → Gives (.stateAck r p) s fun u => Replied u r 0x15 0 ok ∧
      u.evr.states = s.evr.states.filter (fun x => pn p 0 8 < x.cycle)) ∧
    (∀ x : Unsol, hears s r = true → r.via = none ∨ r.secured = true → s.qhc.lost = false → (s.qhc.out.find? fun u => u.reqId = r.reqId.toNat) = some x →
      s.evr.index = [] → s.evr.states = [] → Gives (.qhcHostReply r) s fun u =>
        u.qhc.out = s.qhc.out.filter (fun y => y.reqId != r.reqId.toNat)) ∧
    (∀ d : List (BitVec 8), qhcGood d = true → pn d 0 1 = 1 → pn d 2 1 = qfLAST → pn d 3 1 = 0 → pn d 18 2 = 0 →
      pn d 8 4 = 0 → pn d 12 4 = (d.drop 24).length → s.qhc.lost = false → s.runtimeUp = true →
      let whole := fun (x : State) (q : HostReq) => hostRequest (hostHeard x q) { q with reqId := BitVec.ofNat 32 (pn d 4 4) }
        (pn d 1 1) (d.drop 24) v
      (r.via.isSome = true → hears s r = true → d.length ≤ 24 + etherFrag → (∀ m ∈ s.qhc.parts, m.sender ≠ r.sender) →
        exec (.qhcFragmentReceive r d v) s = .next (whole s r)) ∧
      (let word := fun i => (alGet? s.qhc.inBox (4 * i)).getD 0
       s.qhc.pcieUp = true → 24 ≤ word 1 → word 1 ≤ 32760 →
        d = ((List.range 8190).flatMap fun i => leBytes 4 (word (i + 2))).take (word 1) →
        (∀ m ∈ s.qhc.parts, m.sender ≠ 0) →
        (s.qhc.inFull = false → exec (.pcieMailboxIn (.write 0 1 v)) s = .next (whole (send s (.msi 1)) ⟨none, 0, true⟩)) ∧
        (s.qhc.inFull = true → exec (.pcieMailboxIn (.take v)) s =
          .next (whole (send { s with qhc := { s.qhc with inFull := false } } (.msi 1)) ⟨none, 0, true⟩)))) ∧
    (∀ (off : BitVec 16) (w : BitVec 32), s.qhc.pcieUp = true → 4 ≤ off.toNat → (off.toNat < 0x8000 ∨ 0x8004 ≤ off.toNat) →
      (s.qhc.inFull = true ∨ 0x8004 ≤ off.toNat → exec (.pcieMailboxIn (.write off w v)) s = .next (cfgErr s)) ∧
      (s.qhc.inFull = false → off.toNat < 0x8000 → Gives (.pcieMailboxIn (.write off w v)) s fun u =>
        mailboxRead u off.toNat = w.toNat ∧ u.regs = s.regs ∧
        ∀ a < 0x8000, a / 4 ≠ off.toNat / 4 → mailboxRead u a = mailboxRead s a)) ∧
    (s.qhc.pcieUp = true → Gives .pcieMailboxOutTaken s fun u => u.qhc.outSeen = true ∧
      (s.qhc.outQ = [] → u.qhc.outBox = [] ∧ u.sent = s.sent) ∧
      ∀ d rest, s.qhc.outQ = d :: rest → u.qhc.outBox = d ∧ u.qhc.outQ = rest ∧ u.sent = .msi 0 :: s.sent) ∧
    (exec .qhcReassemblyTimeout s = .next { s with
      qhc := { s.qhc with parts := s.qhc.parts.filter fun m => nowNs s < m.at_ + 2000000000 } }) ∧
    (s.qhc.lost = false → Gives .qhcUnsolRetry s fun u => ∀ x ∈ s.qhc.out, x.sends + 200000000 ≤ nowNs s →
      (∀ a b, hostRoute s = some (a, b) → .qhcUnsol a b x.reqId x.typ x.payload
        (msgDatagrams etherFrag x.typ qfUNSOL 0 x.reqId x.payload) ∈ u.sent) ∧ { x with sends := nowNs s } ∈ u.qhc.out) ∧
    (s.qhc.lost = false → s.qhc.lastRx + 5000000000 ≤ nowNs s → exec .hostChannelLoss s = .next { s with
      qhc := { s.qhc with lost := true, out := [], evSent := 0 } })

/-- R418, R420, R429, R433, R435, R436: an authority message is accepted to be carried out, or refused with the first check
that it fails; its store copy is written and in force, and its burns follow. -/
def Obligations.AuthorityMessages : Prop :=
  ∀ (s : State) (r : HostReq) (p : List (BitVec 8)) (v : Verdict),
    let c := amCode s r.sender p v
    let carried (i : Instr) : Prop := Heard s r 0x13 p → (r.sender = 0 → s.prot.testBit 3 = false) →
      (c = 0 → Gives i s fun u => flag u F.SEC_STATUS_UPD_BUSY = true ∧ getF u F.SEC_UPD_RES_CODE = 0 ∧ u.qhc.kept = s.qhc.kept ∧
        ∃ x, u.sec = { s.sec with msg := some x } ∧ x.typ = amType p ∧ x.counter = ksCount s + 1 ∧ x.burns = amBurns s p ∧
          x.owner = amStores p ∧ x.written = false ∧ x.sender = r.sender ∧ x.reqId = r.reqId.toNat ∧
          x.image = if amType p = amKEY_UPDATE then updatedSlots s p (v.plain.getD [])
            else if amType p = amDECOMMISSION then [] else s.sec.keys) ∧
      (c ≠ 0 → Gives i s fun u => u.sec = s.sec ∧ getF u F.SEC_UPD_RES_CODE = c ∧ Replied u r 0x13 3 (leBytes 4 c) ∧
        getF u F.SEC_CNT_UPD_REFUSED_COUNT = (getF s F.SEC_CNT_UPD_REFUSED_COUNT + 1) % 2 ^ 32)
    (amType p = amKEY_UPDATE → carried (.keyUpdate r p v)) ∧ (amType p = amPROTECT → carried (.protect r p v)) ∧
    (amType p = amOWNER_ADD → carried (.ownerAdd r p v)) ∧ (amType p = amOWNER_REVOKE → carried (.ownerRevoke r p v)) ∧
    (amType p = amNEW_IDENTITY → carried (.newIdentity r p v)) ∧ (amType p = amDECOMMISSION → carried (.decommission r p v)) ∧
    (amType p = amSVN_COMMIT → carried (.svnCommit r p v)) ∧ (amType p = amPROVISION → carried (.provision r p v)) ∧
    (∀ x : AuthMsg, s.sec.msg = some x → x.written = false → flag s F.PWR_STATUS_FROZEN = false → x.burns ≠ [] →
      x.typ ≠ amSVN_COMMIT → Gives .keyStoreWriteDone s fun u => u.sec.msg = some { x with written := true } ∧
        u.sec.keys = x.image ∧ ksCount u = x.counter % 2 ^ 64 ∧ u.sec.burning = s.sec.burning ++ x.burns ∧
        (if x.toB then u.sec.ksB else u.sec.ksA) = some { counter := x.counter, slots := x.image } ∧
        (if x.toB then u.sec.ksA = s.sec.ksA else u.sec.ksB = s.sec.ksB) ∧ u.qhc.kept = s.qhc.kept) ∧
    (∀ x : AuthMsg, s.sec.msg = some x → x.written = false → flag s F.PWR_STATUS_FROZEN = false → x.burns = [] →
      s.sec.burning = [] → x.typ ≠ amSVN_COMMIT → Gives .keyStoreWriteDone s fun u => u.sec.msg = none ∧
        u.sec.keys = x.image ∧ flag u F.SEC_STATUS_UPD_BUSY = false ∧
        u.qhc.kept.getLast? = some (x.sender, x.reqId, 0x13, 0, leBytes 4 0)) ∧
    (s.sec.burning ≠ [] → flag s F.PWR_STATUS_WARN = false → exec .fuseBurnStart s = .next (setF s F.FUSE_STATUS_BURNING 1)) ∧
    (flag s F.FUSE_STATUS_BURNING = true → Gives .fuseBurnDone s fun u => FusesKept s u ∧
      (∀ b ∈ nextBurn s, ∀ i, b.2.testBit i = true → (fuseWord u b.1).testBit i = true) ∧
      u.sec.burning = s.sec.burning.drop (nextBurn s).length ∧ flag u F.FUSE_STATUS_BURNING = false) ∧
    (Gives .keyRemask s fun u => u.sec.remask = (s.sec.remask + 1) % 64 ∧ u.sec.keys = s.sec.keys ∧ u.regs = s.regs ∧
      u.mem = s.mem ∧ (∀ i, i ≠ s.sec.remask → keyShares u i = keyShares s i) ∧
      ∀ i a b, keyShares s i = some (a, b) → ∃ m, keyShares u i = some (a ^^^ m, b ^^^ m))

/-! ### Time -/

/-- R342, R343, R346, R348, R349, R354 to R359, R478: what PTP messages, timeouts, transmit timestamps and the commands of
the TIM block do. -/
def Obligations.NetworkTime : Prop :=
  ∀ (s : State) (m : PtpHdr),
    (m.kind ≠ .plain → ∀ (a b : Bool) (n : Nat) (x : AnnounceBody), ∀ c ∈ [Instr.ptpSyncReceive m a b n, .ptpFollowUpReceive m n,
      .ptpAnnounceReceive m x, .ptpDelayRespReceive m n, .ptpPdelayReqReceive m n, .ptpPdelayRespReceive m a b n],
      exec c s = .next (bump s F.TIM_CNT_FOREIGN_COUNT)) ∧
    (m.kind = .plain → tcOfMsg s m = none → domOfMsg s m = none → (∀ e ∈ m.out, portGate s e.1.val = true) → ∀ (a b : Bool) (n : Nat) (x : AnnounceBody),
      ∀ c ∈ [(Instr.ptpSyncReceive m a b n, bNat b), (.ptpFollowUpReceive m n, 8), (.ptpAnnounceReceive m x, 0xB),
        (.ptpDelayRespReceive m n, 9), (.ptpPdelayReqReceive m n, 2), (.ptpPdelayRespReceive m a b n, if a then 0xA else 3)],
      Gives c.1 s fun u =>
        u.sent = ((m.out.filter fun e => e.1 != m.port).map fun e =>
          OutMsg.ptp e.1.val c.2 [m.domain, m.seq, m.src, uNat 64 m.corr]).reverse ++ s.sent ∧
        getF u F.TIM_CNT_FOREIGN_COUNT =
          (getF s F.TIM_CNT_FOREIGN_COUNT + bNat (ringPort m.port.val)) % 2 ^ 32) ∧
    (∀ d, m.kind = .plain → domOfMsg s m = some d →
      (∀ (twoStep : Bool) (origin : Nat), tcOfMsg s m = none → fromMaster s d m = true → -7 ≤ m.log → m.log ≤ 1 →
        (∀ f, (domOf s d).early = some f → f.1 ≠ m.seq) →
        let off := (baseAt s d (ingress s m.port.val m.rx)).1 - (origin * tbUnit + corrUnits m.corr) - (domOf s d).mpd
        Gives (.ptpSyncReceive m twoStep false origin) s fun u =>
          (twoStep = true → (domOf u d).held = some (m.seq, ingress s m.port.val m.rx, corrUnits m.corr) ∧ u.regs = s.regs) ∧
          (twoStep = false → (domOf u d).lastSync = tb0Ns s ∧
            getFi u F.TIM_DOM_OFS_VALUE d = uNat 32 (clampInt (-2 ^ 31) (2 ^ 31 - 1) (off / tbUnit)) ∧
            (domOf u d).syncs.head? = some ((origin * tbUnit + corrUnits m.corr : Int), ingress s m.port.val m.rx * tbUnit))) ∧
      (∀ (origin : Nat), tcOfMsg s m = none → fromMaster s d m = true →
        (∀ (rx c : Int), (domOf s d).held = some (m.seq, rx, c) → Gives (.ptpFollowUpReceive m origin) s fun u =>
          (domOf u d).held = none ∧
          (domOf u d).syncs.head? = some ((origin * tbUnit + (c + corrUnits m.corr) : Int), rx * tbUnit)) ∧
        ((domOf s d).held = none → Gives (.ptpFollowUpReceive m origin) s fun u => u.regs = s.regs ∧
          (domOf u d).early = some (m.seq, origin, corrUnits m.corr))) ∧
      (∀ a : AnnounceBody, 0 ≤ m.log → m.log ≤ 4 → 2 ≤ a.timeout → a.timeout ≤ 255 → a.steps < 255 →
        Gives (.ptpAnnounceReceive m a) s fun u =>
          (∃ x ∈ (domOf u d).masters, x.src = m.src ∧ x.port = m.port.val ∧ x.gm = a.gm ∧ x.last = tb0Ns s ∧
            x.rank = [a.prio1, a.cls, a.acc, a.var, a.prio2] ∧ x.topo = [a.steps, m.src, m.port.val] ∧
            x.timeout = a.timeout ∧ x.interval = 1000000000 * 2 ^ m.log.toNat) ∧
          (a.ptpTs = true → u.cfg.taiOffset = a.utc) ∧
          ∀ b, bestMaster (tb0Ns s) (domOf u d).masters = some b → (domOf u d).master = some b.src) ∧
      (∀ (t4 : Nat) (t3 : Int), (domOf s d).dreq = some (m.seq, t3) → fromMaster s d m = true →
        getFi s F.TIM_DOM_CFG_PROFILE d = 0 → -7 ≤ m.log → m.log ≤ 5 →
        let w := (domOf s d).d21 + (t4 * tbUnit - corrUnits m.corr - t3)
        w % 2 = 0 → Gives (.ptpDelayRespReceive m t4) s fun u => (domOf u d).mpd = w / 2 ∧ (domOf u d).dreq = none ∧
          getFi u F.TIM_DOM_MPD_VALUE d = uNat 32 (w / 2 / tbUnit))) ∧
    (∀ (d : Nat) (q : Fin 14) (tx origin : Nat), m.kind = .plain → tcOfMsg s m = some d →
      (∀ d', domOfMsg s m = some d' → fromMaster s d' m = false) → m.out = [(q, tx)] → ringPort q.val = true → q ≠ m.port →
      portGate s q.val = true →
      let l := linkDelay s d m.port.val
      let c := (residence l.2 d m (q, tx)).1 + l.1
      let sends (typ : Nat) (corr : Int) : OutMsg := .ptp q.val typ [m.domain, m.seq, m.src, uNat 64 corr]
      let held (isSync : Bool) (corr : Int) (org : Nat) : TcItem := TcItem.mk isSync d q.val m.src m.seq corr org (tb0Ns s)
      let counted (u : State) : Prop := getF u F.TIM_CNT_TC_FWD_COUNT = (getF s F.TIM_CNT_TC_FWD_COUNT + 1) % 2 ^ 32
      (Gives (.ptpSyncReceive m false false origin) s fun u => u.sent = sends 0 (m.corr + c) :: s.sent ∧ counted u) ∧
      (tcMatch s false d q.val m = none → Gives (.ptpSyncReceive m true false origin) s fun u =>
        u.sent = sends 0 m.corr :: s.sent ∧ u.tim.tc = s.tim.tc ++ [held true c 0]) ∧
      (getFi s F.TIM_DOM_CFG_PROFILE d = 0 → Gives (.ptpSyncReceive m false true origin) s fun u =>
        u.sent = sends 1 (m.corr + (residence s d m (q, tx)).1) :: s.sent ∧ counted u) ∧
      (getFi s F.TIM_DOM_CFG_PROFILE d = 1 → Gives (.ptpSyncReceive m false true origin) s fun u =>
        u.sent = sends 1 m.corr :: s.sent ∧ u.regs = s.regs) ∧
      (∀ y, tcMatch s true d q.val m = some y → Gives (.ptpFollowUpReceive m origin) s fun u =>
        u.sent = sends 8 (m.corr + y.corr) :: s.sent ∧ counted u ∧ u.tim.tc = s.tim.tc.erase y) ∧
      (tcMatch s true d q.val m = none → Gives (.ptpFollowUpReceive m origin) s fun u => u.sent = s.sent ∧
        u.tim.tc = s.tim.tc ++ [held false m.corr origin])) ∧
    (∀ d, m.kind = .plain → (tcOfMsg s m = some d ∨ (tcOfMsg s m = none ∧ domOfMsg s m = some d)) →
      (∀ d', domOfMsg s m = some d' → d' = d) → peerOn s d m.port.val = true →
      portGate s m.port.val = true → (∀ e ∈ m.out, portGate s e.1.val = true) →
      (∀ tx : Nat,
        let out := egressAt s m.port.val tx
        let turn := (out - ingress s m.port.val m.rx) * 2 ^ 16
        let queue := txtsOf s m.port.val
        let ans (typ : Nat) (corr : Int) : OutMsg := .ptp m.port.val typ [m.domain, m.seq, m.src, uNat 64 corr]
        let passed : List OutMsg := if ringPort m.port.val = true then s.sent
          else ((m.out.filter fun e => e.1 != m.port).map fun e =>
            OutMsg.ptp e.1.val 2 [m.domain, m.seq, m.src, uNat 64 m.corr]).reverse ++ s.sent
        (getFi s F.TIM_DOM_CFG_ONE_STEP d = 1 → Gives (.ptpPdelayReqReceive m tx) s fun u =>
          u.sent = ans 3 (m.corr + turn) :: passed ∧ txtsOf u m.port.val = queue) ∧
        (getFi s F.TIM_DOM_CFG_ONE_STEP d = 0 → queue.length < 16 → Gives (.ptpPdelayReqReceive m tx) s fun u =>
          u.sent = ans 0xA turn :: ans 3 m.corr :: passed ∧
          txtsOf u m.port.val = queue ++ [{ id := m.seq, base := 0, time := out.toNat }]) ∧
        (getFi s F.TIM_DOM_CFG_ONE_STEP d = 0 → 16 ≤ queue.length → Gives (.ptpPdelayReqReceive m tx) s fun u =>
          u.sent = ans 3 m.corr :: passed ∧ txtsOf u m.port.val = queue ∧
          (getF u F.TIM_TXTS_OVF_PORT).testBit m.port.val = true)) ∧
      (∀ (r : PdReq) (stamp : Nat), alGet? s.tim.pdelay m.port.val = some r → r.seq = m.seq →
        let t4 := ingress s m.port.val m.rx * tbUnit
        let c := corrUnits m.corr
        let measured (i : Instr) (w : Int) : Prop := w % 2 = 0 → Gives i s fun u =>
          alGet? u.tim.pdelay m.port.val = some { r with resp := none, delay := w / 2 } ∧
          (ringPort m.port.val = true → getFi u F.TIM_PORT_PDLY_NS m.port.val = uNat 32 (w / 2 / tbUnit)) ∧
          (slavePort s d = m.port.val → (domOf u d).mpd = w / 2)
        (Gives (.ptpPdelayRespReceive m false true stamp) s fun u => alGet? u.tim.pdelay m.port.val =
          some { r with resp := some (t4 - c, stamp * tbUnit) }) ∧
        measured (.ptpPdelayRespReceive m false false stamp) (t4 - r.tx - c) ∧
        ∀ t4' t2, r.resp = some (t4', t2) →
          measured (.ptpPdelayRespReceive m true false stamp) (t4' - r.tx - (stamp * tbUnit - t2) - c))) ∧
    (∀ d : Fin 2,
      (∀ x, domMaster s d.val = some x → x.last + x.timeout * x.interval ≤ tb0Ns s → Gives (.announceTimeout d) s fun u =>
        (domOf u d.val).master = none ∧ domState u d.val = dsLISTENING ∧ slavePort u d.val = 0xF) ∧
      (domState s d.val = dsLOCKED → (domOf s d.val).lastSync + 4 * (domOf s d.val).syncInt ≤ tb0Ns s →
        Gives (.syncTimeout d) s fun u => domState u d.val = dsHOLDOVER) ∧
      (∀ (q : BitVec 16) (tx : Nat), slavePort s d.val ≠ 0xF → getFi s F.TIM_DOM_CFG_PROFILE d.val = 0 →
        portGate s (slavePort s d.val) = true → Gives (.ptpDelayReqSend d ⟨q, tx⟩) s fun u =>
        (domOf u d.val).dreq = some (q.toNat, (baseAt s d.val (egressAt s (slavePort s d.val) tx)).1) ∧
        u.sent = .ptp (slavePort s d.val) 1 [getFi s F.TIM_DOM_CFG_DOMAIN d.val, q.toNat, 0, uNat 64 0] :: s.sent)) ∧
    (∀ (p : Fin 14) (q : BitVec 16) (d tx : Nat), peerPort s p.val = some d → portGate s p.val = true →
      Gives (.ptpPdelayReqSend p ⟨q, tx⟩) s fun u =>
      (∃ r, alGet? u.tim.pdelay p.val = some r ∧ r.seq = q.toNat ∧ r.resp = none ∧
        r.tx = egressAt s p.val tx * tbUnit) ∧
      u.sent = .ptp p.val 2 [getFi s F.TIM_DOM_CFG_DOMAIN d, q.toNat, 0, uNat 64 0] :: s.sent) ∧
    (Gives .tcFollowUpTimeout s fun u => ∀ i, i ∈ u.tim.tc ↔ i ∈ s.tim.tc ∧ tb0Ns s < i.at_ + 100000000) ∧
    (∀ d, slewLeft s = some d → tickDone s = true → s.tim.tb1 + d < (tickNow s + 1) * tickNs * tbUnit →
      Gives .slewEnd s fun u => u.tim.tb1 = (s.tim.tb1 + d) % tbTurn ∧ u.tim.d1 = 0 ∧ flag u F.TIM_STATUS_SLEWING = false) ∧
    (let pref := getF s F.TIM_CFG_PREF
     let rev := getF s F.TIM_CFG_REVERT_S
     roleOf s ≠ roSYNCING → roleOf s ≠ roSTANDBY → flag s F.TIM_CFG_AUTO = true → tbSrc s = (1 - pref) + 1 →
       domState s pref = dsLOCKED → rev ≠ 0 → (domOf s pref).lockedSince + rev * 1000000000 ≤ tb0Ns s →
       Gives .sourceRevert s fun u => tbSrc u = pref + 1 ∧ flag u F.TIM_STATUS_HOLDOVER = false ∧
         getF u F.TIM_CNT_SWITCH_COUNT = (getF s F.TIM_CNT_SWITCH_COUNT + 1) % 2 ^ 32) ∧
    (∀ v : BitVec 32, Takes s R.TIM_TB_SEL v → Gives (.tbSelWrite v) s fun u => let t := tbValue s (v.toNat % 8)
      getF u F.TIM_TB_NS_VALUE = t % 1000000000 ∧ getF u F.TIM_TB_SEC_LO_VALUE = t / 1000000000 % 2 ^ 32 ∧
      getF u F.TIM_TB_SEC_HI_VALUE = t / 1000000000 / 2 ^ 32 % 65536) ∧
    (getF s F.TIM_TB7_NS_VALUE < 1000000000 →
      let v := ((getF s F.TIM_TB7_SEC_LO_VALUE + getF s F.TIM_TB7_SEC_HI_VALUE * 2 ^ 32) * 1000000000 +
        getF s F.TIM_TB7_NS_VALUE) * tbUnit
      exec .tb7Set s = .next { s with tim := { s.tim with tb7 := v } } ∧
      exec .tb7Add s = .next { s with tim := { s.tim with tb7 := (s.tim.tb7 + v) % tbTurn } } ∧
      exec .tb7Sub s = .next { s with tim := { s.tim with tb7 := (s.tim.tb7 + tbTurn - v % tbTurn) % tbTurn } }) ∧
    (∀ (p : Fin 14) (id : BitVec 16) (b : Fin 8) (time : Nat), let q := txtsOf s p.val
      (q.length < 16 → Gives (.txTimestamp p id b time) s fun u =>
        txtsOf u p.val = q ++ [{ id := id.toNat, base := b.val, time := (egressAt s p.val time).toNat }]) ∧
      (16 ≤ q.length → Gives (.txTimestamp p id b time) s fun u => txtsOf u p.val = q ∧
        (getF u F.TIM_TXTS_OVF_PORT).testBit p.val = true ∧ getF u F.TIM_EVENTS_TXTS_OVF = 1 ∧
        getF u F.TIM_CNT_TXTS_LOST_COUNT = (getF s F.TIM_CNT_TXTS_LOST_COUNT + 1) % 2 ^ 32)) ∧
    (let p := getF s F.TIM_TXTS_SEL_PORT
     (txtsOf s p = [] → exec .txtsPop s = .next (cfgErr s)) ∧
     ∀ e q, txtsOf s p = e :: q → Gives .txtsPop s fun u => txtsOf u p = q ∧ getF u F.TIM_TXTS_HEAD_COUNT = q.length % 32) ∧
    (2 ≤ s.boot.stage → s.runState = false → s.boot.waitOver = false →
      (match s.boot.linkAt with
        | some t => t + 30000000000
        | none => s.boot.runtimeAt + 35000000000) ≤ tb0Ns s → Gives .ptpWaitLimit s fun u => u.boot = { s.boot with waitOver := true })

/-- R360 to R369, R372 to R375: the commands of RTC_CMD wait for their edge and then act on the calendar; captures, the
trim, countdown, measurement and discipline. -/
def Obligations.RealTimeClock : Prop :=
  ∀ (s : State),
    (∀ p ∈ [(Instr.rtcSet, 1), (.rtcShift, 2), (.setWday, 3), (.leapIns, 4), (.leapDel, 5), (.leapCancel, 6), (.countStart, 7),
        (.countStop, 8), (.measStart, 9)], Takes s R.RTC_CMD (BitVec.ofNat 32 p.2) →
      (flag s F.RTC_STATUS_BUSY = true ∨ (p.2 = 7 ∧ getF s F.RTC_CNT_LOAD_SECONDS = 0) → exec p.1 s = .next (cfgErr s)) ∧
      (flag s F.RTC_STATUS_BUSY = false → p.2 ≠ 7 ∨ getF s F.RTC_CNT_LOAD_SECONDS ≠ 0 → Gives p.1 s fun u =>
        u.rtc = { s.rtc with cmd := some p.2 } ∧ flag u F.RTC_STATUS_BUSY = true)) ∧
    (∀ (sub : Fin 32768) (c : Nat), s.rtc.cmd = some c → setWaits s c = true → exec (.rtcCommandEffect sub) s = .next s) ∧
    (∀ (sub : Fin 32768) (c : Nat), s.rtc.cmd = some c → setWaits s c = false → Gives (.rtcCommandEffect sub) s fun u =>
      let r : Rtc := { (runTo s sub.val).rtc with cmd := none, setAt := none }
      flag u F.RTC_STATUS_BUSY = false ∧
      (c = 1 → dateOk (staged s) = true → u.rtc = { staged (runTo s sub.val) with cmd := none, setAt := none } ∧
        flag u F.RTC_STATUS_OSF = false ∧
        getF u F.RTC_STATUS_LEAP_ARM = 0) ∧
      (c = 1 → dateOk (staged s) = false → u.rtc = r ∧ getF u F.RTC_EVENTS_DATE_ERR = 1) ∧
      (c = 2 → let n := sInt 16 (getF s F.RTC_SHIFT_PULSES)
        let p := (r.sub : Int) + n
        (0 ≤ p → p < 32768 → u.rtc = { r with sub := p.toNat, edge := r.edge - n * pulseUnits }) ∧
        (32768 ≤ p → getF s F.RTC_STATUS_LEAP_ARM = 0 →
          u.rtc = { nextSecond r with sub := (p - 32768).toNat, edge := r.edge - (n - 32768) * pulseUnits }) ∧
        (p < 0 → u.rtc = { prevSecond r with sub := (p + 32768).toNat, edge := r.edge - (n + 32768) * pulseUnits })) ∧
      (c = 3 → getF s F.RTC_SET_TIME_WDAY ≠ 7 → u.rtc = { r with wday := getF s F.RTC_SET_TIME_WDAY }) ∧
      (c = 3 → getF s F.RTC_SET_TIME_WDAY = 7 → u.rtc = r ∧ getF u F.RTC_EVENTS_DATE_ERR = 1) ∧
      (4 ≤ c → c ≤ 6 → u.rtc = r ∧ getF u F.RTC_STATUS_LEAP_ARM = (c - 3) % 3) ∧
      (c = 7 → u.rtc = { r with cnt := getF s F.RTC_CNT_LOAD_SECONDS, cntPre := 0 } ∧ flag u F.RTC_STATUS_CNT_RUN = true) ∧
      (c = 8 → u.rtc = r ∧ flag u F.RTC_STATUS_CNT_RUN = false) ∧
      (c = 9 → u.rtc = { r with measAt := tb0Ns s, measFrom := nowNs s, crossings := 0 } ∧ flag u F.RTC_STATUS_MEAS_RUN = true)) ∧
    (∀ (n : Int) (l : Nat), 0 < l → trimmed n l l = l + n) ∧
    (trimN s = 0 → trimL s ≠ 0 → s.rtc.sub < 32768 → flag s F.RTC_STATUS_CNT_RUN = false →
      (wrapPrescaler s).rtc = { s.rtc with sub := 0, edge := s.tim.tb0, raw := (s.rtc.raw + (32768 - s.rtc.sub)) % trimL s }) ∧
    (let r : Rtc := (wrapPrescaler s).rtc
     (getF s F.RTC_STATUS_LEAP_ARM = 0 → Gives .rtcSecondEdge s fun u => u.rtc = nextSecond r ∧
       flag u F.RTC_STATUS_LEAP_SEC = false ∧ (almMatch s u.rtc = true → getF u F.RTC_EVENTS_ALM = 1 ∧ 56 ∈ u.irqs)) ∧
     (getF s F.RTC_STATUS_LEAP_ARM = 1 → r.hour = 23 → r.min = 59 → r.sec = 59 → flag s F.RTC_STATUS_LEAP_SEC = false →
       Gives .rtcSecondEdge s fun u => u.rtc = r ∧ flag u F.RTC_STATUS_LEAP_SEC = true ∧ getF u F.RTC_STATUS_LEAP_ARM = 0) ∧
     (getF s F.RTC_STATUS_LEAP_ARM = 2 → r.hour = 23 → r.min = 59 → r.sec = 58 →
       Gives .rtcSecondEdge s fun u => u.rtc = nextDay r ∧ getF u F.RTC_STATUS_LEAP_ARM = 0)) ∧
    (∀ sub : Fin 32768, Takes s R.RTC_SNAP 1 → Gives (.rtcSnap sub) s fun u => u.rtc = (runTo s sub.val).rtc ∧ getF u F.RTC_DATE_YEAR = s.rtc.year % 4096 ∧
      getF u F.RTC_DATE_MONTH = s.rtc.month % 16 ∧ getF u F.RTC_DATE_DAY = s.rtc.day % 32 ∧
      getF u F.RTC_TIME_WDAY = s.rtc.wday % 8 ∧ getF u F.RTC_TIME_HOUR = s.rtc.hour % 32 ∧
      getF u F.RTC_TIME_MIN = s.rtc.min % 64 ∧ getF u F.RTC_TIME_SEC = s.rtc.sec % 64 ∧ getF u F.RTC_SUB_VALUE = max s.rtc.sub sub.val % 32768 ∧
      getF u F.RTC_CNT_VAL_VALUE = u.rtc.cnt % 2 ^ 24) ∧
    (∀ (v : BitVec 32) (sub : Fin 32768), Takes s R.RTC_TRIM v → flag s F.RTC_STATUS_BUSY = false →
      (1 ≤ v.toNat % 65536 → (sInt 16 (v.toNat / 65536)).natAbs ≤ 1024 * (v.toNat % 65536) → Gives (.trimWrite v sub) s fun u =>
        getReg u R.RTC_TRIM = v ∧ u.rtc = { (runTo s sub.val).rtc with raw := 0 }) ∧
      (v.toNat % 65536 = 0 → exec (.trimWrite v sub) s = .next (cfgErr s))) ∧
    (let n := 32768 - s.rtc.cntPre
     let r : Rtc := { s.rtc with cnt := s.rtc.cnt - 1, cntPre := 0, raw := (s.rtc.raw + n) % max 1 (trimL s),
                                 sub := s.rtc.sub + movedBy s n }
     (flag s F.RTC_STATUS_CNT_RUN = true → s.rtc.cntPre < 32768 → n < pulsesTo s (32768 - s.rtc.sub) →
       (2 ≤ s.rtc.cnt → Gives .countdownSecond s fun u => u.rtc = r ∧ u.regs = s.regs) ∧
       (s.rtc.cnt = 1 → Gives .countdownSecond s fun u => u.rtc = r ∧ getF u F.RTC_EVENTS_CNT_ZERO = 1 ∧
         flag u F.RTC_STATUS_CNT_RUN = false ∧ 57 ∈ u.irqs)) ∧
     (flag s F.RTC_STATUS_CNT_RUN = false ∨ pulsesTo s (32768 - s.rtc.sub) ≤ n → exec .countdownSecond s = .next s)) ∧
    (flag s F.RTC_STATUS_MEAS_RUN = true →
      (∀ (n : BitVec 32) (sub : Fin 32768), measFails s = false → measComplete s = false →
        exec (.measDone n sub) s = .next s) ∧
      (∀ (n : BitVec 32) (sub : Fin 32768), measFails s = false → measComplete s = true → rtcAuto s = false → Gives (.measDone n sub) s fun u => getReg u R.RTC_MEAS_RES = n ∧
        flag u F.RTC_STATUS_MEAS_RUN = false ∧ getF u F.RTC_EVENTS_MEAS_DONE = 1 ∧ u.rtc = s.rtc) ∧
      ((s.rtc.measAt + 2000000000 * getF s F.RTC_MEAS_CFG_MEAS_S ≤ tb0Ns s ∨
          (getF s F.RTC_MEAS_CFG_REF = 2 ∧ tb1Locked s = false) ∨ flag s F.PWR_STATUS_FROZEN = true) → Gives .measErr s fun u =>
        flag u F.RTC_STATUS_MEAS_RUN = false ∧ getF u F.RTC_EVENTS_MEAS_ERR = 1)) ∧
    (Gives .oscillatorStopped s fun u => flag u F.RTC_STATUS_OSF = true ∧ u.rtc = s.rtc) ∧
    (rtcAuto s = true → flag s F.RTC_STATUS_BUSY = false → s.rtc.trimDue = none →
      let off : Int := (tb5Ns s : Int) - ((nowNs s : Int) - s.cfg.taiOffset * 1000000000)
      let t := ((nowNs s : Int) - s.cfg.taiOffset * 1000000000).toNat / 1000000000 + 1
      let at_ := (((t : Int) + s.cfg.taiOffset) * 1000000000).toNat
      (1000000000 ≤ off.natAbs → nowNs s + tickNs < at_ → Gives .rtcDiscipline s fun u => u.rtc = s.rtc ∧
        flag u F.RTC_STATUS_BUSY = false) ∧
      (1000000000 ≤ off.natAbs → at_ ≤ nowNs s + tickNs → Takes s R.RTC_CMD 1 → Gives .rtcDiscipline s fun u =>
        u.rtc = { s.rtc with cmd := some 1, setAt := some at_ } ∧ flag u F.RTC_STATUS_BUSY = true) ∧
      (500000 ≤ off.natAbs → off.natAbs < 900000000 → Takes s R.RTC_CMD 2 → Takes s R.RTC_SHIFT (BitVec.ofNat 32 (uNat 16
          (divHalfEven (-off * 32768) 1000000000))) → Gives .rtcDiscipline s fun u => u.rtc = { s.rtc with cmd := some 2 } ∧
        getF u F.RTC_SHIFT_PULSES = uNat 16 (divHalfEven (-off * 32768) 1000000000))) ∧
    (∀ b : Bool, Gives (.backupSourceChange b) s fun u => getF u F.RTC_STATUS_VSRC = bNat b ∧ u.rtc = s.rtc)

/-! ### Serial channels -/

/-- R381 to R383, R389 to R393, R397: frames, errors, recovery, modes and aborts of a CAN channel, frames of a UART, and
the index writes of both. -/
def Obligations.SerialChannels : Prop :=
  ∀ (s : State) (n : Fin 4) (ts : BitVec 64),
    let rx := getFi s F.CAN_RX_PUT_INDEX n.val
    let tx := getFi s F.CAN_TX_DONE_INDEX n.val
    let st := canState s n.val
    let inDram (a k : Nat) : Prop := regionOf a = .dram ∧ regionOf (a + k - 1) = .dram
    (∀ f : CanFrame, canListens s n.val = true → canAccepts s n.val f = true → (canOf s n).modeTo = none → getFi s F.CAN_STATUS_REC n.val ≤ 127 →
      (rxFree s n.val = true → inDram (rxSlot s n.val rx) (32 + f.data.length) → Gives (.canFrameReceive n f ts) s fun u =>
        memBytes u.mem (rxSlot s n.val rx) (32 + f.data.length) =
          canHeader f (canOf s n).lost false (canOf s n).seq ts ++ f.data ∧
        getFi u F.CAN_RX_PUT_INDEX n.val = (rx + 1) % 65536 ∧
        getFi u F.CAN_STATUS_REC n.val = getFi s F.CAN_STATUS_REC n.val - 1 ∧ u.sent = (canSeen s n.val f).sent ∧
        getFi u F.CAN_CNT_RX_OK_COUNT n.val = (getFi s F.CAN_CNT_RX_OK_COUNT n.val + 1) % 2 ^ 32) ∧
      (rxFree s n.val = false → Gives (.canFrameReceive n f ts) s fun u => u.mem = s.mem ∧ (canOf u n).lost = true ∧
        u.sent = (canSeen s n.val f).sent ∧
        getFi u F.CAN_RX_PUT_INDEX n.val = rx ∧ getFi u F.CAN_EVENTS_RX_OVF n.val = 1 ∧
        getFi u F.CAN_CNT_RX_OVF_COUNT n.val = (getFi s F.CAN_CNT_RX_OVF_COUNT n.val + 1) % 2 ^ 32)) ∧
    (∀ f : CanFrame, canSeen s n.val f = if (canAcks s n.val || f.xl) = true then
      { s with sent := .canSeen n.val (canAcks s n.val) f.xl :: s.sent } else s) ∧
    (canSends s n.val = true → txQueued s n.val = 1 → canSendable s n.val (txSlot s n.val tx) = true →
      slotReadable (txSlot s n.val tx) (canSlotLen s (txSlot s n.val tx)) = true →
      (canOf s n).abortTo = none → (canOf s n).modeTo = none → Gives (.canFrameSent n true ts) s fun u =>
        let a := txSlot s n.val tx
        let w0 := memLe s.mem a 4
        let w1 := memLe s.mem (a + 4) 4
        let len := bitsOf 27 16 w1
        u.sent = .can n.val w0 w1 (memLe s.mem (a + 8) 4) (dlcFor (w0.testBit 31) len)
          (if canRemote w0 w1 then [] else memBytes s.mem (a + 32) len) :: s.sent ∧
        getFi u F.CAN_TX_DONE_INDEX n.val = (tx + 1) % 65536 ∧
        getFi u F.CAN_STATUS_TEC n.val = getFi s F.CAN_STATUS_TEC n.val - 1 ∧
        getFi u F.CAN_CNT_TX_OK_COUNT n.val = (getFi s F.CAN_CNT_TX_OK_COUNT n.val + 1) % 2 ^ 32) ∧
    (serialGated s n.val = false →
      (Gives (.canAbort n false) s fun u => getFi u F.CAN_TX_DONE_INDEX n.val = getFi s F.CAN_TX_PUT_INDEX n.val ∧
        (canOf u n).abortTo = none ∧ u.sent = s.sent) ∧
      (∀ tec rec : Fin 9, serialDrives s = false → (canOf s n).modeTo = none → exec (.canError n tec rec) s = .next s) ∧
      (∀ tec rec : Fin 9, serialDrives s = true → st = csACTIVE ∨ st = csPASSIVE → (canOf s n).modeTo = none → let t := getFi s F.CAN_STATUS_TEC n.val + tec.val
        (t < 256 → Gives (.canError n tec rec) s fun u => getFi u F.CAN_STATUS_TEC n.val = t ∧
          getFi u F.CAN_STATUS_REC n.val = min 255 (getFi s F.CAN_STATUS_REC n.val + rec.val) ∧
          getFi u F.CAN_CNT_ERR_COUNT n.val = (getFi s F.CAN_CNT_ERR_COUNT n.val + 1) % 2 ^ 32 ∧
          canState u n.val = if 128 ≤ t ∨ 128 ≤ min 255 (getFi s F.CAN_STATUS_REC n.val + rec.val) then csPASSIVE else csACTIVE) ∧
        (256 ≤ t → Gives (.canError n tec rec) s fun u => canState u n.val = csBUSOFF ∧
          getFi u F.CAN_EVENTS_BUS_OFF n.val = 1 ∧ 60 + n.val ∈ u.irqs ∧
          getFi u F.CAN_CNT_BOFF_COUNT n.val = (getFi s F.CAN_CNT_BOFF_COUNT n.val + 1) % 2 ^ 32)) ∧
      (st = csBUSOFF → Gives (.recover n) s fun u => canState u n.val = csRECOVERING ∧ u.ser = s.ser) ∧
      (st ≠ csBUSOFF → Gives (.recover n) s fun u => canState u n.val = st ∧ getFi u F.CAN_EVENTS_CMD_IGN n.val = 1) ∧
      (∀ p, s.prog = some p → s.runtimeUp = true → p.canRecover.getD n.val 0 ≠ 0 → st = csBUSOFF →
        (canOf s n).boffAt + p.canRecover.getD n.val 0 * 1000000 ≤ nowNs s → Gives (.canAutoRecover n) s fun u =>
          canState u n.val = csRECOVERING) ∧
      (∀ (v : BitVec 32) (busy : Bool), Takes s (F.CAN_MODE_MODE.at n.val) v → v.toNat % 8 ≤ 4 → fieldOf 15 8 v ≠ 0 →
        (v.toNat % 8 = 0 ∨ (st ≠ csBUSOFF ∧ st ≠ csRECOVERING)) →
        ((busy && canOnBus s n.val) = true → Gives (.canModeWrite n v busy) s fun u => canMode u n.val = v.toNat % 8 ∧
          canState u n.val = st ∧ (canOf u n).modeTo = some (v.toNat % 8)) ∧
        ((busy && canOnBus s n.val) = false → Gives (.canModeWrite n v busy) s fun u =>
          canMode u n.val = v.toNat % 8 ∧
          (v.toNat % 8 = 0 → canState u n.val = csOFF ∧ getFi u F.CAN_RX_PUT_INDEX n.val = 0 ∧
            getFi u F.CAN_TX_DONE_INDEX n.val = 0 ∧ canOf u n = CanCh.reset) ∧
          (v.toNat % 8 = 1 → st = csOFF ∨ st = csSLEEPING → canState u n.val = csINTEGRATING) ∧
          (v.toNat % 8 = 2 ∨ v.toNat % 8 = 3 → canState u n.val = csSLEEPING) ∧
          (v.toNat % 8 = 4 → canState u n.val = csMONITOR))) ∧
      (st = csSLEEPING → canMode s n.val = 2 → Gives (.canWakeEdge n) s fun u => canState u n.val = csWOKEN ∧
        getFi u F.CAN_STATUS_WAKE_SRC n.val = 1 ∧ getFi u F.CAN_EVENTS_WAKE n.val = 1 ∧ 60 + n.val ∈ u.irqs) ∧
      (st = csSLEEPING → canMode s n.val = 3 →
        ((canOf s n).wakeErr < 31 → Gives (.wakeFrame n none ts) s fun u => (canOf u n).wakeErr = (canOf s n).wakeErr + 1 ∧
          canState u n.val = csSLEEPING) ∧
        (31 ≤ (canOf s n).wakeErr → Gives (.wakeFrame n none ts) s fun u => canState u n.val = csWOKEN ∧
          getFi u F.CAN_STATUS_WAKE_SRC n.val = 3) ∧
        (∀ f : CanFrame, f.fdf = false → f.xl = false → wakeMatch s n.val f = true → Gives (.wakeFrame n (some f) ts) s fun u =>
          canState u n.val = csWOKEN ∧ getFi u F.CAN_STATUS_WAKE_SRC n.val = 2 ∧ 60 + n.val ∈ u.irqs))) ∧
    (serialGated s n.val = true → ∀ (v : BitVec 32) (busy : Bool),
      exec (.canModeWrite n v busy) s = .next (busErr s (F.CAN_MODE_MODE.at n.val)) ∧
      exec (.canAbort n busy) s = .next (busErr s (canCmdAddr n.val)) ∧ exec (.recover n) s = .next (busErr s (canCmdAddr n.val))) ∧
    (st = csRECOVERING → Gives (.busOffRecoveryDone n) s fun u => canState u n.val = csACTIVE ∧
      getFi u F.CAN_STATUS_TEC n.val = 0 ∧ getFi u F.CAN_STATUS_REC n.val = 0) ∧
    (st = csINTEGRATING → getFi s F.CAN_STATUS_TEC n.val < 128 → getFi s F.CAN_STATUS_REC n.val < 128 →
      Gives (.canIntegrationDone n) s fun u => canState u n.val = csACTIVE) ∧
    (∀ (ch : Fin 8) (v : BitVec 32), serialGated s ch.val = false → let r := ringOf ch.val
      (Takes s (r.rxAck.at r.n) v →
        (ixDist (getFi s r.rxAck r.n) v.toNat ≤ ixDist (getFi s r.rxAck r.n) (getFi s r.rxPut r.n) →
          Gives (.rxAckWrite ch v) s fun u => getFi u r.rxAck r.n = v.toNat % 65536 ∧ u.ser = s.ser) ∧
        (ixDist (getFi s r.rxAck r.n) (getFi s r.rxPut r.n) < ixDist (getFi s r.rxAck r.n) v.toNat →
          exec (.rxAckWrite ch v) s = .next (cfgErr s))) ∧
      (Takes s (r.txAck.at r.n) v →
        ixDist (getFi s r.txAck r.n) v.toNat ≤ ixDist (getFi s r.txAck r.n) (getFi s r.txDone r.n) →
          Gives (.txAckWrite ch v) s fun u => getFi u r.txAck r.n = v.toNat % 65536 ∧ u.ser = s.ser) ∧
      (Takes s (r.txPut.at r.n) v →
        ixDist (getFi s r.txPut r.n) v.toNat ≤ ixDist (getFi s r.txPut r.n) (getFi s r.txAck r.n + txCount s r) →
          Gives (.txPutWrite ch v) s fun u => getFi u r.txPut r.n = v.toNat % 65536)) ∧
    (uartOn s n.val = true → let i := getFi s F.UART_RX_PUT_INDEX n.val
      ∀ (data : List (BitVec 8)) (gap : Nat) (fr pa brk : Bool),
        (rxFree s (4 + n.val) = true → inDram (rxSlot s (4 + n.val) i) (16 + min 256 data.length) →
          data.length ≤ 256 ∨ getFi s F.UART_CFG_MODBUS n.val = 1 →
          Gives (.uartSlotClose n data gap fr pa brk ts) s fun u =>
            memBytes u.mem (rxSlot s (4 + n.val) i + 16) (min 256 data.length) =
              (data.map (uartChar s n.val)).take 256 ∧
            getFi u F.UART_RX_PUT_INDEX n.val = (i + 1) % 65536 ∧ 64 + n.val ∈ u.irqs ∧
            getFi u F.UART_CNT_RX_OK_COUNT n.val = (getFi s F.UART_CNT_RX_OK_COUNT n.val + 1) % 2 ^ 32) ∧
        (rxFree s (4 + n.val) = false → Gives (.uartSlotClose n data gap fr pa brk ts) s fun u => u.mem = s.mem ∧
          getFi u F.UART_EVENTS_RX_OVF n.val = 1 ∧ (uartOf u n).lost = true)) ∧
    (∀ e : Bool, uartOn s n.val = true → serialDrives s = true → txQueued s (4 + n.val) ≠ 0 → (uartOf s n).abortTo = none →
      let i := getFi s F.UART_TX_DONE_INDEX n.val
      let a := txSlot s (4 + n.val) i
      let readable := slotReadable a (16 + min 256 (bitsOf 24 16 (memLe s.mem a 4)))
      (uartSilent s n ts = false → exec (.uartFrameSent n e ts) s = .next s) ∧
      (uartSilent s n ts = true → readable = false → exec (.uartFrameSent n e ts) s = .next (busErr s a)) ∧
      (uartSilent s n ts = true → readable = true → Gives (.uartFrameSent n e ts) s fun u =>
        u.sent = uartOut s n.val a :: s.sent ∧
        getFi u F.UART_TX_DONE_INDEX n.val = (i + 1) % 65536 ∧ 64 + n.val ∈ u.irqs ∧
        getFi u F.UART_CNT_TX_OK_COUNT n.val = (getFi s F.UART_CNT_TX_OK_COUNT n.val + 1) % 2 ^ 32)) ∧
    (serialGated s (4 + n.val) = true → ∀ b : Bool, exec (.uartAbort n b) s = .next (busErr s (uartCmdAddr n.val))) ∧
    (serialGated s (4 + n.val) = false →
      (Gives (.uartAbort n false) s fun u => getFi u F.UART_TX_DONE_INDEX n.val = getFi s F.UART_TX_PUT_INDEX n.val ∧
        (uartOf u n).abortTo = none ∧ u.sent = s.sent) ∧
      (∀ v : BitVec 32, Takes s (F.UART_CFG_ENABLE.at n.val) v → fieldOf 26 25 v ≠ 3 → fieldOf 23 16 v ≠ 0 →
        uartRateOk (v.getLsbD 28) (getReg s (F.UART_BAUD_DIV_I.at n.val)).toNat = true → Gives (.uartEnableWrite n v) s fun u =>
          getFi u F.UART_CFG_ENABLE n.val = bNat (v.getLsbD 31) ∧
          (v.getLsbD 31 = false → getFi u F.UART_RX_PUT_INDEX n.val = 0 ∧ getFi u F.UART_TX_DONE_INDEX n.val = 0 ∧
            uartOf u n = UartCh.reset)))

/-! ### The recorder, the supply, clocks and start-up -/

/-- R444 to R446, R448, R451, R463 to R467, R474, R498: the recorder's writes, rebuild, search and read window; the supply's
levels with the save, and the plate's temperature. -/
def Obligations.RecorderAndSupply : Prop :=
  ∀ (s : State),
    (flag s F.EVR_STATUS_FROZEN = false ∨ s.boot.unit = 1 → flag s F.EVR_STATUS_RESTORING = false →
      ∀ r s1, takeRecord s = some (r, s1) →
        (∀ slot, chooseSlot s1 r.sev = some (slot, none) →
          (Gives (.evrRecordWrite false) s fun u =>
            memBytes u.mem (logBase + 256 * slot) 256 = slotBytes s1 r (seqNext s) ∧
            alGet? u.evr.index slot = some (seqNext s, r.sev) ∧ seqNext u = (seqNext s + 1) % 2 ^ 64 ∧
            u.evr.buf = s1.evr.buf ∧ u.evr.carried = s1.evr.carried ∧
            ∀ a, a < logBase + 256 * slot ∨ logBase + 256 * slot + 256 ≤ a → memRead u.mem a = memRead s.mem a) ∧
          (Gives (.evrRecordWrite true) s fun u => slot ∈ u.evr.retired ∧
            memLe u.mem (logBase + 256 * slot) 8 = 2 ^ 64 - 1 ∧ u.evr.buf = s.evr.buf ∧ u.evr.carried = s.evr.carried ∧
            (∀ a, a < logBase + 256 * slot ∨ logBase + 256 * slot + 8 ≤ a → memRead u.mem a = memRead s.mem a) ∧
            getF u F.EVR_EVENTS_BAD_SLOT = 1 ∧
            getF u F.EVR_CNT_BAD_SLOT_COUNT = (getF s F.EVR_CNT_BAD_SLOT_COUNT + 1) % 2 ^ 32)) ∧
        (∀ bad : Bool, chooseSlot s1 r.sev = none → r.sev < 8 → Gives (.evrRecordWrite bad) s fun u => u.mem = s.mem ∧
          getFi u F.EVR_DROP_COUNT r.sev = (getFi s F.EVR_DROP_COUNT r.sev + 1) % 2 ^ 32 ∧ getF u F.EVR_EVENTS_DROP = 1)) ∧
    (flag s F.EVR_STATUS_RESTORING = true → s.runtimeUp = true → Gives (.evrRebuildDone []) s fun u =>
      u.evr.index = rebuildIndex s.mem s.evr.retired ∧ flag u F.EVR_STATUS_RESTORING = false ∧
      seqNext u = (((rebuildIndex s.mem s.evr.retired).map fun e => e.2.1).foldl max 0 + 1) % 2 ^ 64) ∧
    (∀ v : BitVec 32, Takes s R.EVR_SEEK_HI v → Gives (.evrSeek v) s fun u => u.evr.seeking = true ∧
      getReg u R.EVR_SEEK_HI = v ∧ getF u F.EVR_SEEK_RES_DONE = 0) ∧
    (s.evr.seeking = true →
      (seekSeq s (get64 s R.EVR_SEEK_LO R.EVR_SEEK_HI) = none → Gives .evrSearchDone s fun u => u.evr.seeking = false ∧
        getF u F.EVR_SEEK_RES_DONE = 1 ∧ getF u F.EVR_SEEK_RES_FOUND = 0) ∧
      (∀ slot q, seekSeq s (get64 s R.EVR_SEEK_LO R.EVR_SEEK_HI) = some (slot, q) → slot < nSlots →
        Gives .evrSearchDone s fun u => u.evr.seeking = false ∧ getF u F.EVR_SEEK_RES_DONE = 1 ∧
          getF u F.EVR_SEEK_RES_FOUND = 1 ∧ getF u F.EVR_SEEK_RES_SLOT = slot ∧
          ∀ w < 64, getFi u F.EVR_RD_BUF_DATA w = memLe s.mem (logBase + 256 * slot + 4 * w) 4)) ∧
    (∀ v : BitVec 32, Takes s R.EVR_RD_SEL v → v.toNat < nSlots → Gives (.evrRdSel v) s fun u =>
      ∀ w < 64, getFi u F.EVR_RD_BUF_DATA w = memLe s.mem (logBase + 256 * v.toNat + 4 * w) 4) ∧
    (flag s F.EVR_STATUS_FROZEN = true → s.boot.unit ≠ 1 → ∀ bad : Bool, exec (.evrRecordWrite bad) s = .next s) ∧
    (flag s F.EVR_STATUS_FROZEN = true → s.boot.unit = 1 → flag s F.EVR_STATUS_RESTORING = false → s.boot.saveDue = true →
      ∀ bad : Bool, Gives (.evrRecordWrite bad) s fun u => u.boot.unit = 0 ∧ u.boot.saveDue = false ∧
        flag u F.PWR_STATUS_SAVING = true) ∧
    (∀ unit : Fin 3, flag s F.PWR_STATUS_WARN = false → s.boot.stage ≠ 0 → Gives (.supplyWarning unit) s fun u =>
      flag u F.PWR_STATUS_WARN = true ∧ flag u F.PWR_STATUS_FROZEN = true ∧ flag u F.EVR_STATUS_FROZEN = true ∧
      getF u F.PWR_EVENTS_WARN = 1 ∧ 72 ∈ u.irqs ∧ u.boot.dipAt = nowNs s ∧
      (unit = 0 → u.boot.unit = 0) ∧
      (unit = 1 → flag s F.EVR_STATUS_RESTORING = false → s.evr.carried ≠ [] ∨ s.evr.buf ≠ [] → u.boot.unit = 1) ∧
      (unit = 2 → ∀ m, s.sec.msg = some m → m.written = false → u.boot.unit = 2) ∧
      (s.runState = true → flag u F.PWR_STATUS_SAVE_VALID = false ∧ (u.boot.saveDue = true ↔ u.boot.unit ≠ 0) ∧
        (u.boot.unit = 0 → flag u F.PWR_STATUS_SAVING = true)) ∧
      (s.runState = false → flag u F.PWR_STATUS_SAVING = flag s F.PWR_STATUS_SAVING)) ∧
    (s.boot.unit ≠ 0 → exec .warmSaveDone s = .next s) ∧
    (s.boot.unit = 0 → flag s F.PWR_STATUS_SAVING = true → s.boot.resetDue = none → Gives .warmSaveDone s fun u =>
      flag u F.PWR_STATUS_SAVING = false ∧ flag u F.PWR_STATUS_SAVE_VALID = true ∧
      ((nextSave s).2 = true → u.saveB = some (saveNow s (nextSave s).1) ∧ u.saveA = s.saveA) ∧
      ((nextSave s).2 = false → u.saveA = some (saveNow s (nextSave s).1) ∧ u.saveB = s.saveB)) ∧
    (∀ mv us : Nat, flag s F.PWR_STATUS_WARN = true → flag s F.PWR_STATUS_SAVING = false → Gives (.supplyRecovery mv us) s fun u =>
      flag u F.PWR_STATUS_WARN = false ∧ flag u F.PWR_STATUS_FROZEN = false ∧ flag u F.EVR_STATUS_FROZEN = false ∧
      flag u F.PWR_STATUS_SAVE_VALID = false ∧ u.journal = [] ∧ u.boot.saveDue = false ∧
      u.mem = memPutCells s.mem (s.journal.filter fun c => !(inCfgPart c.1 || inCfgReserved c.1)) ∧
      getF u F.PWR_CNT_DIP_COUNT = (getF s F.PWR_CNT_DIP_COUNT + 1) % 2 ^ 32) ∧
    (s.boot.stage ≠ 0 →
      (∀ lost : Bool, Gives (.supplyResetLevel lost) s fun u => u.boot.stage = 0 ∧ u.boot.kind = rkFULL ∧ u.boot.power = false ∧
        u.boot.causes = s.boot.causes ||| 2 ^ caSUPPLY ∧ flag u F.PWR_STATUS_HOLDUP_OK = false ∧ u.inst = [] ∧ u.runState = false ∧
        (lost = true → u.red.latched = false ∧ getF u F.FIO_STATUS_DRIVE = drOFF ∧ flag u F.RED_STATUS_LATCHED = false) ∧
        (flag s F.PWR_STATUS_SAVING = true ∨ s.boot.saveDue = true → u.boot.cutOff = true)) ∧
      (Gives .overtempReset s fun u => u.boot.stage = 0 ∧ u.boot.kind = rkFULL ∧ u.boot.hot = true ∧
        u.boot.causes = s.boot.causes ||| 2 ^ caOVERTEMP ∧ u.inst = [])) ∧
    (Gives .supplyOvervoltage s fun u => getF u F.PWR_EVENTS_OVER = 1 ∧ u.boot = s.boot) ∧
    (exec .powerGood s = .next (setF { s with boot := { s.boot with power := true } } F.PWR_STATUS_HOLDUP_OK 1)) ∧
    (exec .overtempRelease s = .next { s with boot := { s.boot with hot := false } })

/-- R334, R421, R423, R425, R455 to R462, R468, R471, R475 to R478: the reference, the PLLs, clock sources and gates; the three
kinds of reset; release, the start of the runtime, the restore and run state; and the ports. -/
def Obligations.ClocksAndStartUp : Prop :=
  ∀ (s : State),
    (∀ (rec : Bool) (code : Fin 8), s.boot.stage = 0 → s.boot.kind = rkFULL → s.boot.qualified = false →
      let strap := s.boot.strap.getD code.val
      strap < 8 → Gives (.clkrefQualified rec code) s fun u => u.boot = { s.boot with qualified := true, strap := some strap } ∧
        flag u F.CLK_STATUS_REF_OK = true ∧ getF u F.CLK_STATUS_QUAL_CODE = (if rec then strap else 0) ∧
        getF u F.CLK_QUAL_N = qualCycles (if rec then strap else 0)) ∧
    (∀ p : Fin 5,
      (flag s F.CLK_STATUS_REF_OK = true → Gives (.pllLock p) s fun u => pllLocked u p.val = true ∧
        ∀ q < 5, q ≠ p.val → pllLocked u q = pllLocked s q) ∧
      (s.boot.stage = 0 → s.boot.kind = rkFULL → s.boot.qualified = true → pllLocked s p.val = false →
        Gives (.pllLockTimeout p) s fun u => u.boot.qualified = false ∧ flag u F.CLK_STATUS_REF_OK = false ∧
          getF u F.CLK_STATUS_PLL_LOCK = 0 ∧ getF u F.CLK_EVENTS_PLL_UNLOCK = 1 ∧ u.boot.pllLate = s.boot.pllLate ++ [p.val]) ∧
      (flag s F.CLK_STATUS_REF_OK = true → pllLocked s p.val = true → s.boot.stage ≠ 0 → flag s F.PWR_STATUS_SAVING = false →
        s.boot.saveDue = false →
        Gives (.pllUnlock p) s fun u => u.boot.stage = 0 ∧ u.boot.kind = rkWARM ∧ pllLocked u p.val = false ∧
          u.boot.causes = s.boot.causes ||| 2 ^ caPLL ∧ getF u F.CLK_EVENTS_PLL_UNLOCK = 1 ∧
          ∀ b ∈ pllDomains p.val, (getF u F.CLK_SRC_PLL).testBit b = false) ∧
      (s.boot.stage = 0 → s.boot.kind ≠ rkFULL → pllLocked s p.val = false → Gives (.pllRelockTimeout p) s fun u =>
        u.boot.stage = 0 ∧ u.boot.kind = rkFULL ∧ u.boot.causes = s.boot.causes ||| 2 ^ caPLL)) ∧
    (flag s F.CLK_STATUS_REF_OK = true → s.boot.stage ≠ 0 → Gives .clkrefLost s fun u => u.boot.stage = 0 ∧
      u.boot.kind = rkFULL ∧ u.boot.qualified = false ∧ flag u F.CLK_STATUS_REF_OK = false ∧
      getF u F.CLK_STATUS_PLL_LOCK = 0 ∧ u.boot.causes = s.boot.causes ||| 2 ^ caCLKREF) ∧
    (∀ (b : Fin 15) (fb : Bool), s.boot.switching.any (fun e => e.1 = b.val) = true → Gives (.clockSwitchDone b fb) s fun u =>
      u.boot.switching = s.boot.switching.filter (fun e => e.1 != b.val) ∧
      flag u F.CLK_STATUS_SWITCHING = (u.boot.switching != []) ∧
      (fb = true → getF u F.CLK_EVENTS_SW_FALLBACK = 1 ∧
        getF u F.CLK_CNT_FALLBACK_COUNT = (getF s F.CLK_CNT_FALLBACK_COUNT + 1) % 2 ^ 32)) ∧
    (∀ v : BitVec 32,
      (Takes s R.CLK_SRC v → flag s F.CLK_STATUS_SWITCHING = true → exec (.clkSrcWrite v) s = .next (cfgErr s)) ∧
      (Takes s R.CLK_SRC v → flag s F.CLK_STATUS_SWITCHING = false →
        (∀ b < 15, v.toNat.testBit b = true → pllLocked s (domainPll b) = true) → Gives (.clkSrcWrite v) s fun u =>
          ∀ b < 15, (getF u F.CLK_SRC_PLL).testBit b = v.toNat.testBit b) ∧
      (Takes s R.CLK_GATE_PERI v → Gives (.gatePeriWrite v) s fun u => getReg u R.CLK_GATE_PERI = v ∧
        ∀ n : Fin 4, (getReg s R.CLK_GATE_PERI).toNat.testBit n.val = true → v.toNat.testBit n.val = false →
          canOf u n = CanCh.reset ∧ canState u n.val = csOFF) ∧
      (Takes s R.CLK_GATE_ENG v →
        (engAccepted s v.toNat = true → Gives (.gateEngWrite v) s fun u => getReg u R.CLK_GATE_ENG = v) ∧
        (engAccepted s v.toNat = false → Gives (.gateEngWrite v) s fun u =>
          getReg u R.CLK_GATE_ENG = getReg s R.CLK_GATE_ENG ∧ getF u F.CLK_EVENTS_GATE_REFUSED = 1 ∧
          getF u F.SYS_STATUS_CFG_ERR = 1))) ∧
    (let reset (u : State) (kind cause : Nat) : Prop := u.boot.stage = 0 ∧ u.boot.kind = kind ∧
       u.boot.causes = s.boot.causes ||| 2 ^ cause ∧ u.prog = none ∧ u.runState = false ∧ u.runtimeUp = false
     let undone := forAll s (List.range 16) undoScan
     s.boot.stage ≠ 0 → s.boot.unit ≠ 1 →
      (flag s F.PWR_STATUS_SAVING = false → s.boot.saveDue = false →
        (Gives (.resetWarm 0) s fun u => reset u rkWARM caSOFTWARE ∧ u.boot.restart = rsWARM ∧ u.mem = s.mem ∧
          u.inst = undone.inst ∧ u.mbox = undone.mbox) ∧
        (Gives (.resetWarm 1) s fun u => reset u rkWARM caHOST ∧ u.boot.restart = rsWARM ∧ u.mem = s.mem ∧
          u.inst = undone.inst ∧ u.mbox = undone.mbox) ∧
        (sysCoreFailed s = true → Gives (.resetWarm 2) s fun u => reset u rkWARM caSYSCORE ∧ u.boot.restart = rsWARM) ∧
        (Gives (.resetCold false) s fun u => reset u rkCOLD caSOFTWARE ∧ u.boot.restart = rsCOLD ∧ u.mem = s.mem) ∧
        (Gives (.resetCold true) s fun u => reset u rkCOLD caHOST ∧ u.boot.restart = rsCOLD ∧ u.mem = s.mem)) ∧
      (flag s F.PWR_STATUS_SAVING = true ∨ s.boot.saveDue = true → s.boot.resetDue = none → Gives (.resetWarm 0) s fun u =>
        u.boot.resetDue = some rkWARM ∧ u.boot.stage = s.boot.stage ∧ u.prog = s.prog) ∧
      (Gives .resetFull s fun u => reset u rkFULL caSOFTWARE ∧ u.inst = [] ∧
        u.mem = memKeep (fun a => a < 0xE0000000) s.mem)) ∧
    (∀ (slot : Fin 4) (before : Nat), mayRelease s = true → Gives (.resetRelease slot before) s fun u =>
      u.boot.stage = 1 ∧ u.boot.before = before ∧ u.boot.causes = 0 ∧ getF u F.RED_STATUS_POSITION = slot.val ∧
      getF u F.SYS_RESET_CAUSE_KIND = s.boot.kind % 4 ∧ getF u F.SYS_RESET_CAUSE_CAUSE = s.boot.causes % 1024 ∧
      getF u F.SEC_STATUS_LIFECYCLE = lifecycle s ∧ getF u F.CLK_SRC_PLL = 0x7FFF ∧ u.prot = fuseWord s 1 ∧
      (flag s F.RTC_STATUS_OSF = true → u.tim.tb1 = 0)) ∧
    (∀ b : BootIn, s.boot.stage = 1 → getF s F.SEC_STATUS_BOOT_CODE = 0 →
      (b.readErr = true → Gives (.runtimeStart b) s fun u =>
        getF u F.SEC_STATUS_BOOT_CODE = 1 ∧ u.boot = s.boot ∧ u.runtimeUp = s.runtimeUp) ∧
      (b.readErr = false → lifecycle s = 0 → Gives (.runtimeStart b) s fun u =>
        getF u F.SEC_STATUS_BOOT_CODE = 2 ∧ u.boot = s.boot) ∧
      (b.readErr = false → lifecycle s ≠ 0 →
        ((chooseRuntime s b).2 = none → Gives (.runtimeStart b) s fun u =>
          getF u F.SEC_STATUS_BOOT_CODE = 5 ∧ u.boot = s.boot) ∧
        (∀ i, i < 3 → (chooseRuntime s b).2 = some i →
          Gives (.runtimeStart b) s fun u => u.runtimeUp = true ∧ u.boot.stage = 2 ∧
            getF u F.SEC_STATUS_RT_SLOT = i ∧ flag u F.SEC_STATUS_ID_READY = true ∧ flag u F.SEC_STATUS_KS_READY = true ∧
            getF u F.SCN_STATUS_RUN = (if lifecycle s = 2 then 2 else 0) ∧ flag u F.CLK_CTRL_LOCK = true ∧ u.red.keeperTest = b.keeperOk ∧
            getF u F.SCN_STATUS_CORE_FAULTY = b.cores.toNat ∧ getF u F.NSA_CLUSTER_FAULTY = b.clusters.toNat ∧
            getF u F.CLK_GATE_ENG_CL = 255 - b.clusters.toNat))) ∧
    (∀ v : Verdict, s.boot.stage = 2 → modelPending s = false → flag s F.PWR_STATUS_FROZEN = false →
      Gives (.mramRestoreDone v) s fun u => u.boot.stage = 3 ∧ u.forcesEff = u.forces ∧
        (lifecycle s ≠ 2 → u.prog = s.prog ∧ getF u F.SCN_STATUS_RUN = 0) ∧
        (lifecycle s = 2 → let r := checkImage s ikPROGRAM (programSlot s.cfg.progSlot) none v.sigOk v.plain.isSome
          (r.2 ≠ 0 → u.prog = s.prog ∧ getF u F.SCN_STATUS_RUN = 0) ∧
          ∀ p, r.2 = 0 → programPayload r.1 (programSlot s.cfg.progSlot) v.plain = .ok p → u.prog = some p)) ∧
    (runStateDue (reachTick s) = true → Gives .runStateEntry s fun u => u.runState = true ∧ u.boot.stage = 4 ∧
      ((reachTick s).boot.effect = false → (reachTick s).boot.restart ≠ rsWARM →
        u.forces = [] ∧ u.nsa.cycleDesc = none ∧ u.lpe = Lpe.reset) ∧
      ((reachTick s).boot.effect = false → u.tasks.map (·.nextInfo) =
        Vector.replicate 16 (if (reachTick s).boot.restart = rsWARM then 2 else 4)) ∧
      (executes (reachTick s) = true → flag u F.TIM_STATUS_SEALED = true)) ∧
    (∀ p : Fin 14, (portGate s p.val = true → Gives (.ethPortLinkChange p true) s fun u => p.val ∈ u.boot.ports) ∧
      (Gives (.ethPortLinkChange p false) s fun u => p.val ∉ u.boot.ports)) ∧
    (∀ up : Bool, up = false ∨ flag s F.CLK_GATE_PERI_PCIE = true → exec (.pcieLinkChange up) s =
      .next { s with qhc := { s.qhc with pcieUp := up } })

/-! ### The machine as a whole -/

/-- R8, R418: the state after reset has every register at its reset value, no bit of the fuse array burned and every map
in its canonical form; an empty queue leaves the block as it is (the model's choice, log entry 1). -/
def Obligations.ResetState : Prop :=
  (∀ a, getReg State.reset a = resetWord a) ∧ (∀ w, fuseWord State.reset w = 0) ∧ Canonical State.reset ∧
    amWf (fun _ => 0) State.reset.sec.fuses = true ∧ State.reset.pending = [] ∧
    ∀ s, s.pending = [] → step s = .next s

/-- R418: no step clears a bit of the fuse array that is burned, nor leaves the array's form. -/
def Obligations.FusesStayBurned : Prop :=
  ∀ (s t : State) (w i : Nat), amWf (fun _ => 0) s.sec.fuses = true → (fuseWord s w).testBit i = true → step s = .next t →
    amWf (fun _ => 0) t.sec.fuses = true ∧ (fuseWord t w).testBit i = true
end

