-- ==== Sys2Proof/Laws/Mem.lean ====
section
/-!
SUPPORT. Laws of the sparse maps and byte memories: a read after a write, and the canonical form that every operation
keeps.
-/
namespace Sys2Proof.Machine

variable {β : Type}

/-! ### Reads after writes -/

theorem amGet_append_left (d : Nat → β) (a b : List (Nat × β)) (k : Nat) (h : ∀ e ∈ b, e.1 ≠ k) :
    amGet d (a ++ b) k = amGet d a k := by
  induction a with
  | nil =>
    induction b with
    | nil => rfl
    | cons e b ih =>
      have h1 : k ≠ e.1 := fun x => h e (by simp) x.symm
      have := ih fun e he => h e (by simp [he])
      simp only [List.nil_append, amGet] at this ⊢
      rw [if_neg h1, this]
  | cons e a ih => simp only [List.cons_append, amGet, ih]

theorem amGet_append_right (d : Nat → β) (a b : List (Nat × β)) (k : Nat) (h : ∀ e ∈ a, e.1 ≠ k) :
    amGet d (a ++ b) k = amGet d b k := by
  induction a with
  | nil => rfl
  | cons e a ih =>
    have h1 : k ≠ e.1 := fun x => h e (by simp) x.symm
    simp only [List.cons_append, amGet]
    rw [if_neg h1, ih fun e he => h e (by simp [he])]

theorem amGet_filter (d : Nat → β) (m : List (Nat × β)) (p : Nat → Bool) (k : Nat) (h : p k = true) :
    amGet d (m.filter fun e => p e.1) k = amGet d m k := by
  induction m with
  | nil => rfl
  | cons e m ih =>
    by_cases hk : k = e.1
    · have hp : p e.1 = true := hk ▸ h
      rw [List.filter_cons_of_pos (by simpa using hp)]
      simp [amGet, hk]
    · by_cases hp : p e.1 = true
      · rw [List.filter_cons_of_pos (by simpa using hp)]
        simp [amGet, hk, ih]
      · rw [List.filter_cons_of_neg (by simpa using hp)]
        simp [amGet, hk, ih]

@[simp] theorem amGet_amSet_same [DecidableEq β] (d : Nat → β) (m : List (Nat × β)) (k : Nat) (v : β) :
    amGet d (amSet d m k v) k = v := by
  unfold amSet
  rw [amGet_append_right _ _ _ _ (by simp only [amBelow, List.mem_filter]; intro e h; have := h.2; simp at this; omega)]
  split
  · next h =>
    have := amGet_append_left d [] (amAbove m k) k
      (by simp only [amAbove, List.mem_filter]; intro e h; have := h.2; simp at this; omega)
    simpa [amGet, h] using this
  · simp [amGet]

/-- A write leaves every other key alone. -/
theorem amGet_amSet_ne [DecidableEq β] (d : Nat → β) (m : List (Nat × β)) (k j : Nat) (v : β) (h : j ≠ k) :
    amGet d (amSet d m k v) j = amGet d m j := by
  have hab : ∀ e ∈ amAbove m k, k < e.1 := by simp [amAbove]
  have hbe : ∀ e ∈ amBelow m k, e.1 < k := by simp [amBelow]
  unfold amSet
  rcases Nat.lt_or_gt_of_ne h with hj | hj
  · rw [amGet_append_left _ _ _ _ ?_]
    · exact amGet_filter d m (fun a => decide (a < k)) j (by simpa using hj)
    · intro e he
      split at he
      · have := hab e he; omega
      · rcases List.mem_cons.1 he with rfl | he
        · simp only; omega
        · have := hab e he; omega
  · rw [amGet_append_right _ _ _ _ (fun e he => by have := hbe e he; omega)]
    have : amGet d (amAbove m k) j = amGet d m j := amGet_filter d m (fun a => decide (k < a)) j (by simpa using hj)
    split
    · exact this
    · simp only [amGet]; rw [if_neg h, this]

theorem amGet_amSet [DecidableEq β] (d : Nat → β) (m : List (Nat × β)) (k j : Nat) (v : β) :
    amGet d (amSet d m k v) j = if j = k then v else amGet d m j := by
  split
  · next h => rw [h, amGet_amSet_same]
  · next h => exact amGet_amSet_ne d m k j v h

@[simp] theorem memRead_memWrite_same (m : List Host.Cell) (a : Nat) (b : Byte) : memRead (memWrite m a b) a = b :=
  amGet_amSet_same ..

theorem memRead_memWrite (m : List Host.Cell) (a x : Nat) (b : Byte) :
    memRead (memWrite m a b) x = if x = a then b else memRead m x := amGet_amSet ..

/-- Bytes written stand at their addresses, and every other byte is as before. -/
theorem memRead_memPut (m : List Host.Cell) (a x : Nat) (bs : List Byte) :
    memRead (memPut m a bs) x = if a ≤ x ∧ x < a + bs.length then bs.getD (x - a) 0 else memRead m x := by
  induction bs generalizing m a with
  | nil => rw [if_neg (by simp)]; rfl
  | cons b bs ih =>
    simp only [memPut, ih, memRead_memWrite, List.length_cons]
    by_cases h1 : a + 1 ≤ x ∧ x < a + 1 + bs.length
    · have h2 : x - a = (x - (a + 1)) + 1 := by omega
      rw [if_pos h1, if_pos (by omega), h2, List.getD_cons_succ]
    · rw [if_neg h1]
      by_cases h2 : x = a
      · simp [h2]
      · rw [if_neg h2, if_neg (by omega)]

/-! ### The canonical form -/

/-- The canonical form as a property of the entries: keys strictly rise, and no entry equals its default. -/
theorem amWfFrom_iff [DecidableEq β] (d : Nat → β) (lo : Option Nat) (m : List (Nat × β)) :
    amWfFrom d lo m = true ↔
      (∀ l ∈ lo, ∀ e ∈ m, l < e.1) ∧ m.Pairwise (fun a b => a.1 < b.1) ∧ ∀ e ∈ m, e.2 ≠ d e.1 := by
  induction m generalizing lo with
  | nil => simp [amWfFrom]
  | cons e m ih =>
    simp only [amWfFrom, Bool.and_eq_true, ih, List.pairwise_cons, List.mem_cons]
    cases lo with
    | none => simp; tauto
    | some l =>
      simp only [decide_eq_true_eq, Option.mem_def, Option.some.injEq]
      constructor
      · rintro ⟨⟨h1, h2⟩, h3, h4, h5⟩
        refine ⟨?_, ⟨fun x hx => h3 _ rfl x hx, h4⟩, ?_⟩
        · rintro _ rfl x (rfl | hx)
          · simpa using h1
          · have h6 := h3 _ rfl x hx; have h7 : l < e.1 := by simpa using h1
            omega
        · rintro x (rfl | hx)
          · simpa using h2
          · exact h5 x hx
      · rintro ⟨h1, ⟨h2, h3⟩, h4⟩
        refine ⟨⟨by simpa using h1 l rfl e (.inl rfl), by simpa using h4 e (.inl rfl)⟩, ?_, h3, fun x hx => h4 x (.inr hx)⟩
        rintro _ rfl x hx
        exact h2 x hx

theorem amWf_iff [DecidableEq β] (d : Nat → β) (m : List (Nat × β)) :
    amWf d m = true ↔ m.Pairwise (fun a b => a.1 < b.1) ∧ ∀ e ∈ m, e.2 ≠ d e.1 := by
  simp [amWf, amWfFrom_iff]

/-- A subsequence of a canonical map is canonical. -/
theorem amWf_sublist [DecidableEq β] (d : Nat → β) {m n : List (Nat × β)} (h : n.Sublist m) (hm : amWf d m = true) :
    amWf d n = true := by
  rw [amWf_iff] at hm ⊢
  exact ⟨hm.1.sublist h, fun e he => hm.2 e (h.subset he)⟩

theorem amWf_amSet [DecidableEq β] (d : Nat → β) (m : List (Nat × β)) (k : Nat) (v : β) (h : amWf d m = true) :
    amWf d (amSet d m k v) = true := by
  have hab := fun e (he : e ∈ amAbove m k) => (by simpa [amAbove] using (List.mem_filter.1 he).2 : k < e.1)
  have hbe := fun e (he : e ∈ amBelow m k) => (by simpa [amBelow] using (List.mem_filter.1 he).2 : e.1 < k)
  have ha := (amWf_iff d _).1 (amWf_sublist d (List.filter_sublist (p := fun e => decide (k < e.1))) h)
  have hb := (amWf_iff d _).1 (amWf_sublist d (List.filter_sublist (p := fun e => decide (e.1 < k))) h)
  rw [amWf_iff]
  unfold amSet
  split
  · refine ⟨List.pairwise_append.2 ⟨hb.1, ha.1, fun x hx y hy => ?_⟩, fun e he => ?_⟩
    · have := hbe x hx; have := hab y hy; omega
    · rcases List.mem_append.1 he with he | he
      · exact hb.2 e he
      · exact ha.2 e he
  · next hv =>
    refine ⟨List.pairwise_append.2 ⟨hb.1, List.pairwise_cons.2 ⟨fun y hy => hab y hy, ha.1⟩, fun x hx y hy => ?_⟩,
      fun e he => ?_⟩
    · have := hbe x hx
      rcases List.mem_cons.1 hy with rfl | hy
      · exact this
      · have := hab y hy; omega
    · rcases List.mem_append.1 he with he | he
      · exact hb.2 e he
      · rcases List.mem_cons.1 he with rfl | he
        · exact hv
        · exact ha.2 e he

theorem wf_memWrite (m : List Host.Cell) (a : Nat) (b : Byte) (h : Memory.wf m = true) :
    Memory.wf (memWrite m a b) = true := amWf_amSet unlisted m a b h

theorem wf_memPut (m : List Host.Cell) (a : Nat) (bs : List Byte) (h : Memory.wf m = true) :
    Memory.wf (memPut m a bs) = true := by
  induction bs generalizing m a with
  | nil => exact h
  | cons b bs ih => exact ih _ _ (wf_memWrite m a b h)

theorem wf_memPutCells (m : List Host.Cell) (cs : List Host.Cell) (h : Memory.wf m = true) :
    Memory.wf (memPutCells m cs) = true := by
  induction cs generalizing m with
  | nil => exact h
  | cons c cs ih => exact ih _ (wf_memWrite m c.1 c.2 h)

theorem wf_memKeep (p : Nat → Bool) (m : List Host.Cell) (h : Memory.wf m = true) : Memory.wf (memKeep p m) = true :=
  amWf_sublist unlisted List.filter_sublist h

theorem wf_memClear (m : List Host.Cell) (lo hi : Nat) (h : Memory.wf m = true) : Memory.wf (memClear m lo hi) = true :=
  wf_memKeep _ m h

theorem wf_memSlice (m : List Host.Cell) (lo hi : Nat) (h : Memory.wf m = true) : Memory.wf (memSlice m lo hi) = true :=
  wf_memKeep _ m h

theorem wf_memCopyRange (src dst : List Host.Cell) (lo hi : Nat) (h : Memory.wf dst = true) :
    Memory.wf (memCopyRange src dst lo hi) = true := wf_memPutCells _ _ (wf_memClear dst lo hi h)

/-- The cells of a block lie in it, rise, and hold no byte that an unlisted address reads as. -/
theorem cellsOf_spec (a : Nat) (bs : List Byte) :
    (∀ c ∈ cellsOf a bs, a ≤ c.1 ∧ c.1 < a + bs.length) ∧ (cellsOf a bs).Pairwise (fun x y => x.1 < y.1) ∧
      ∀ c ∈ cellsOf a bs, c.2 ≠ 0 := by
  induction bs generalizing a with
  | nil => simp [cellsOf]
  | cons b bs ih =>
    obtain ⟨h1, h2, h3⟩ := ih (a + 1)
    have h1' : ∀ c ∈ cellsOf (a + 1) bs, a < c.1 ∧ c.1 < a + (bs.length + 1) := fun c hc => by have := h1 c hc; omega
    unfold cellsOf
    split
    · exact ⟨fun c hc => by have := h1' c hc; simp; omega, h2, h3⟩
    · next hb =>
      refine ⟨?_, List.pairwise_cons.2 ⟨fun c hc => (h1' c hc).1, h2⟩, ?_⟩
      · intro c hc
        rcases List.mem_cons.1 hc with rfl | hc
        · simp
        · have := h1' c hc; simp; omega
      · intro c hc
        rcases List.mem_cons.1 hc with rfl | hc
        · exact hb
        · exact h3 c hc

theorem wf_memBlock (m : List Host.Cell) (a : Nat) (bs : List Byte) (h : Memory.wf m = true) :
    Memory.wf (memBlock m a bs) = true := by
  obtain ⟨c1, c2, c3⟩ := cellsOf_spec a bs
  have lo := (amWf_iff unlisted _).1 (amWf_sublist unlisted (List.filter_sublist (p := fun c => decide (c.1 < a))) h)
  have hi := (amWf_iff unlisted _).1 (amWf_sublist unlisted (List.filter_sublist (p := fun c => decide (a + bs.length ≤ c.1))) h)
  refine (amWf_iff unlisted _).2 ⟨List.pairwise_append.2 ⟨List.pairwise_append.2 ⟨lo.1, c2, ?_⟩, hi.1, ?_⟩, ?_⟩
  · intro x hx y hy
    have := (List.mem_filter.1 hx).2; have := c1 y hy; simp at *; omega
  · intro x hx y hy
    have hy := (List.mem_filter.1 hy).2
    rcases List.mem_append.1 hx with hx | hx
    · have := (List.mem_filter.1 hx).2; simp at *; omega
    · have := c1 x hx; simp at *; omega
  · intro e he
    rcases List.mem_append.1 he with he | he
    · rcases List.mem_append.1 he with he | he
      · exact lo.2 e he
      · exact c3 e he
    · exact hi.2 e he

end Sys2Proof.Machine
end

