-- ==== Sys2Proof/Laws/State.lean ====
section
/-!
SUPPORT. What each named update of the state leaves alone: one lemma per field, so that no later proof unfolds a record
update.
-/
namespace Sys2Proof.Machine

/-! ### A register set -/

@[simp] theorem setReg_hiLatch (s : State) (a : Nat) (v : Word) : (setReg s a v).hiLatch = s.hiLatch := rfl
@[simp] theorem setReg_mem (s : State) (a : Nat) (v : Word) : (setReg s a v).mem = s.mem := rfl
@[simp] theorem setReg_inst (s : State) (a : Nat) (v : Word) : (setReg s a v).inst = s.inst := rfl
@[simp] theorem setReg_mbox (s : State) (a : Nat) (v : Word) : (setReg s a v).mbox = s.mbox := rfl
@[simp] theorem setReg_inImg (s : State) (a : Nat) (v : Word) : (setReg s a v).inImg = s.inImg := rfl
@[simp] theorem setReg_outImg (s : State) (a : Nat) (v : Word) : (setReg s a v).outImg = s.outImg := rfl
@[simp] theorem setReg_journal (s : State) (a : Nat) (v : Word) : (setReg s a v).journal = s.journal := rfl
@[simp] theorem setReg_cores (s : State) (a : Nat) (v : Word) : (setReg s a v).cores = s.cores := rfl
@[simp] theorem setReg_tasks (s : State) (a : Nat) (v : Word) : (setReg s a v).tasks = s.tasks := rfl
@[simp] theorem setReg_prog (s : State) (a : Nat) (v : Word) : (setReg s a v).prog = s.prog := rfl
@[simp] theorem setReg_forces (s : State) (a : Nat) (v : Word) : (setReg s a v).forces = s.forces := rfl
@[simp] theorem setReg_forcesEff (s : State) (a : Nat) (v : Word) : (setReg s a v).forcesEff = s.forcesEff := rfl
@[simp] theorem setReg_irqs (s : State) (a : Nat) (v : Word) : (setReg s a v).irqs = s.irqs := rfl
@[simp] theorem setReg_runtimeUp (s : State) (a : Nat) (v : Word) : (setReg s a v).runtimeUp = s.runtimeUp := rfl
@[simp] theorem setReg_runState (s : State) (a : Nat) (v : Word) : (setReg s a v).runState = s.runState := rfl
@[simp] theorem setReg_memFault (s : State) (a : Nat) (v : Word) : (setReg s a v).memFault = s.memFault := rfl
@[simp] theorem setReg_prot (s : State) (a : Nat) (v : Word) : (setReg s a v).prot = s.prot := rfl
@[simp] theorem setReg_nsa (s : State) (a : Nat) (v : Word) : (setReg s a v).nsa = s.nsa := rfl
@[simp] theorem setReg_dpo (s : State) (a : Nat) (v : Word) : (setReg s a v).dpo = s.dpo := rfl
@[simp] theorem setReg_lpe (s : State) (a : Nat) (v : Word) : (setReg s a v).lpe = s.lpe := rfl
@[simp] theorem setReg_mtr (s : State) (a : Nat) (v : Word) : (setReg s a v).mtr = s.mtr := rfl
@[simp] theorem setReg_ses (s : State) (a : Nat) (v : Word) : (setReg s a v).ses = s.ses := rfl
@[simp] theorem setReg_qhc (s : State) (a : Nat) (v : Word) : (setReg s a v).qhc = s.qhc := rfl
@[simp] theorem setReg_net (s : State) (a : Nat) (v : Word) : (setReg s a v).net = s.net := rfl
@[simp] theorem setReg_que (s : State) (a : Nat) (v : Word) : (setReg s a v).que = s.que := rfl
@[simp] theorem setReg_sec (s : State) (a : Nat) (v : Word) : (setReg s a v).sec = s.sec := rfl
@[simp] theorem setReg_red (s : State) (a : Nat) (v : Word) : (setReg s a v).red = s.red := rfl
@[simp] theorem setReg_tim (s : State) (a : Nat) (v : Word) : (setReg s a v).tim = s.tim := rfl
@[simp] theorem setReg_evr (s : State) (a : Nat) (v : Word) : (setReg s a v).evr = s.evr := rfl
@[simp] theorem setReg_rtc (s : State) (a : Nat) (v : Word) : (setReg s a v).rtc = s.rtc := rfl
@[simp] theorem setReg_ser (s : State) (a : Nat) (v : Word) : (setReg s a v).ser = s.ser := rfl
@[simp] theorem setReg_fio (s : State) (a : Nat) (v : Word) : (setReg s a v).fio = s.fio := rfl
@[simp] theorem setReg_cfg (s : State) (a : Nat) (v : Word) : (setReg s a v).cfg = s.cfg := rfl
@[simp] theorem setReg_saveA (s : State) (a : Nat) (v : Word) : (setReg s a v).saveA = s.saveA := rfl
@[simp] theorem setReg_saveB (s : State) (a : Nat) (v : Word) : (setReg s a v).saveB = s.saveB := rfl
@[simp] theorem setReg_exch (s : State) (a : Nat) (v : Word) : (setReg s a v).exch = s.exch := rfl
@[simp] theorem setReg_boot (s : State) (a : Nat) (v : Word) : (setReg s a v).boot = s.boot := rfl
@[simp] theorem setReg_sent (s : State) (a : Nat) (v : Word) : (setReg s a v).sent = s.sent := rfl
@[simp] theorem setReg_free (s : State) (a : Nat) (v : Word) : (setReg s a v).free = s.free := rfl
@[simp] theorem setReg_pending (s : State) (a : Nat) (v : Word) : (setReg s a v).pending = s.pending := rfl

/-! ### A field set -/

@[simp] theorem setFi_hiLatch (s : State) (f : Fld) (i v : Nat) : (setFi s f i v).hiLatch = s.hiLatch := rfl
@[simp] theorem setFi_mem (s : State) (f : Fld) (i v : Nat) : (setFi s f i v).mem = s.mem := rfl
@[simp] theorem setFi_inst (s : State) (f : Fld) (i v : Nat) : (setFi s f i v).inst = s.inst := rfl
@[simp] theorem setFi_mbox (s : State) (f : Fld) (i v : Nat) : (setFi s f i v).mbox = s.mbox := rfl
@[simp] theorem setFi_inImg (s : State) (f : Fld) (i v : Nat) : (setFi s f i v).inImg = s.inImg := rfl
@[simp] theorem setFi_outImg (s : State) (f : Fld) (i v : Nat) : (setFi s f i v).outImg = s.outImg := rfl
@[simp] theorem setFi_journal (s : State) (f : Fld) (i v : Nat) : (setFi s f i v).journal = s.journal := rfl
@[simp] theorem setFi_cores (s : State) (f : Fld) (i v : Nat) : (setFi s f i v).cores = s.cores := rfl
@[simp] theorem setFi_tasks (s : State) (f : Fld) (i v : Nat) : (setFi s f i v).tasks = s.tasks := rfl
@[simp] theorem setFi_prog (s : State) (f : Fld) (i v : Nat) : (setFi s f i v).prog = s.prog := rfl
@[simp] theorem setFi_forces (s : State) (f : Fld) (i v : Nat) : (setFi s f i v).forces = s.forces := rfl
@[simp] theorem setFi_forcesEff (s : State) (f : Fld) (i v : Nat) : (setFi s f i v).forcesEff = s.forcesEff := rfl
@[simp] theorem setFi_irqs (s : State) (f : Fld) (i v : Nat) : (setFi s f i v).irqs = s.irqs := rfl
@[simp] theorem setFi_runtimeUp (s : State) (f : Fld) (i v : Nat) : (setFi s f i v).runtimeUp = s.runtimeUp := rfl
@[simp] theorem setFi_runState (s : State) (f : Fld) (i v : Nat) : (setFi s f i v).runState = s.runState := rfl
@[simp] theorem setFi_memFault (s : State) (f : Fld) (i v : Nat) : (setFi s f i v).memFault = s.memFault := rfl
@[simp] theorem setFi_prot (s : State) (f : Fld) (i v : Nat) : (setFi s f i v).prot = s.prot := rfl
@[simp] theorem setFi_nsa (s : State) (f : Fld) (i v : Nat) : (setFi s f i v).nsa = s.nsa := rfl
@[simp] theorem setFi_dpo (s : State) (f : Fld) (i v : Nat) : (setFi s f i v).dpo = s.dpo := rfl
@[simp] theorem setFi_lpe (s : State) (f : Fld) (i v : Nat) : (setFi s f i v).lpe = s.lpe := rfl
@[simp] theorem setFi_mtr (s : State) (f : Fld) (i v : Nat) : (setFi s f i v).mtr = s.mtr := rfl
@[simp] theorem setFi_ses (s : State) (f : Fld) (i v : Nat) : (setFi s f i v).ses = s.ses := rfl
@[simp] theorem setFi_qhc (s : State) (f : Fld) (i v : Nat) : (setFi s f i v).qhc = s.qhc := rfl
@[simp] theorem setFi_net (s : State) (f : Fld) (i v : Nat) : (setFi s f i v).net = s.net := rfl
@[simp] theorem setFi_que (s : State) (f : Fld) (i v : Nat) : (setFi s f i v).que = s.que := rfl
@[simp] theorem setFi_sec (s : State) (f : Fld) (i v : Nat) : (setFi s f i v).sec = s.sec := rfl
@[simp] theorem setFi_red (s : State) (f : Fld) (i v : Nat) : (setFi s f i v).red = s.red := rfl
@[simp] theorem setFi_tim (s : State) (f : Fld) (i v : Nat) : (setFi s f i v).tim = s.tim := rfl
@[simp] theorem setFi_evr (s : State) (f : Fld) (i v : Nat) : (setFi s f i v).evr = s.evr := rfl
@[simp] theorem setFi_rtc (s : State) (f : Fld) (i v : Nat) : (setFi s f i v).rtc = s.rtc := rfl
@[simp] theorem setFi_ser (s : State) (f : Fld) (i v : Nat) : (setFi s f i v).ser = s.ser := rfl
@[simp] theorem setFi_fio (s : State) (f : Fld) (i v : Nat) : (setFi s f i v).fio = s.fio := rfl
@[simp] theorem setFi_cfg (s : State) (f : Fld) (i v : Nat) : (setFi s f i v).cfg = s.cfg := rfl
@[simp] theorem setFi_saveA (s : State) (f : Fld) (i v : Nat) : (setFi s f i v).saveA = s.saveA := rfl
@[simp] theorem setFi_saveB (s : State) (f : Fld) (i v : Nat) : (setFi s f i v).saveB = s.saveB := rfl
@[simp] theorem setFi_exch (s : State) (f : Fld) (i v : Nat) : (setFi s f i v).exch = s.exch := rfl
@[simp] theorem setFi_boot (s : State) (f : Fld) (i v : Nat) : (setFi s f i v).boot = s.boot := rfl
@[simp] theorem setFi_sent (s : State) (f : Fld) (i v : Nat) : (setFi s f i v).sent = s.sent := rfl
@[simp] theorem setFi_free (s : State) (f : Fld) (i v : Nat) : (setFi s f i v).free = s.free := rfl
@[simp] theorem setFi_pending (s : State) (f : Fld) (i v : Nat) : (setFi s f i v).pending = s.pending := rfl

/-! ### A field of a single register set -/

@[simp] theorem setF_hiLatch (s : State) (f : Fld) (v : Nat) : (setF s f v).hiLatch = s.hiLatch := rfl
@[simp] theorem setF_mem (s : State) (f : Fld) (v : Nat) : (setF s f v).mem = s.mem := rfl
@[simp] theorem setF_inst (s : State) (f : Fld) (v : Nat) : (setF s f v).inst = s.inst := rfl
@[simp] theorem setF_mbox (s : State) (f : Fld) (v : Nat) : (setF s f v).mbox = s.mbox := rfl
@[simp] theorem setF_inImg (s : State) (f : Fld) (v : Nat) : (setF s f v).inImg = s.inImg := rfl
@[simp] theorem setF_outImg (s : State) (f : Fld) (v : Nat) : (setF s f v).outImg = s.outImg := rfl
@[simp] theorem setF_journal (s : State) (f : Fld) (v : Nat) : (setF s f v).journal = s.journal := rfl
@[simp] theorem setF_cores (s : State) (f : Fld) (v : Nat) : (setF s f v).cores = s.cores := rfl
@[simp] theorem setF_tasks (s : State) (f : Fld) (v : Nat) : (setF s f v).tasks = s.tasks := rfl
@[simp] theorem setF_prog (s : State) (f : Fld) (v : Nat) : (setF s f v).prog = s.prog := rfl
@[simp] theorem setF_forces (s : State) (f : Fld) (v : Nat) : (setF s f v).forces = s.forces := rfl
@[simp] theorem setF_forcesEff (s : State) (f : Fld) (v : Nat) : (setF s f v).forcesEff = s.forcesEff := rfl
@[simp] theorem setF_irqs (s : State) (f : Fld) (v : Nat) : (setF s f v).irqs = s.irqs := rfl
@[simp] theorem setF_runtimeUp (s : State) (f : Fld) (v : Nat) : (setF s f v).runtimeUp = s.runtimeUp := rfl
@[simp] theorem setF_runState (s : State) (f : Fld) (v : Nat) : (setF s f v).runState = s.runState := rfl
@[simp] theorem setF_memFault (s : State) (f : Fld) (v : Nat) : (setF s f v).memFault = s.memFault := rfl
@[simp] theorem setF_prot (s : State) (f : Fld) (v : Nat) : (setF s f v).prot = s.prot := rfl
@[simp] theorem setF_nsa (s : State) (f : Fld) (v : Nat) : (setF s f v).nsa = s.nsa := rfl
@[simp] theorem setF_dpo (s : State) (f : Fld) (v : Nat) : (setF s f v).dpo = s.dpo := rfl
@[simp] theorem setF_lpe (s : State) (f : Fld) (v : Nat) : (setF s f v).lpe = s.lpe := rfl
@[simp] theorem setF_mtr (s : State) (f : Fld) (v : Nat) : (setF s f v).mtr = s.mtr := rfl
@[simp] theorem setF_ses (s : State) (f : Fld) (v : Nat) : (setF s f v).ses = s.ses := rfl
@[simp] theorem setF_qhc (s : State) (f : Fld) (v : Nat) : (setF s f v).qhc = s.qhc := rfl
@[simp] theorem setF_net (s : State) (f : Fld) (v : Nat) : (setF s f v).net = s.net := rfl
@[simp] theorem setF_que (s : State) (f : Fld) (v : Nat) : (setF s f v).que = s.que := rfl
@[simp] theorem setF_sec (s : State) (f : Fld) (v : Nat) : (setF s f v).sec = s.sec := rfl
@[simp] theorem setF_red (s : State) (f : Fld) (v : Nat) : (setF s f v).red = s.red := rfl
@[simp] theorem setF_tim (s : State) (f : Fld) (v : Nat) : (setF s f v).tim = s.tim := rfl
@[simp] theorem setF_evr (s : State) (f : Fld) (v : Nat) : (setF s f v).evr = s.evr := rfl
@[simp] theorem setF_rtc (s : State) (f : Fld) (v : Nat) : (setF s f v).rtc = s.rtc := rfl
@[simp] theorem setF_ser (s : State) (f : Fld) (v : Nat) : (setF s f v).ser = s.ser := rfl
@[simp] theorem setF_fio (s : State) (f : Fld) (v : Nat) : (setF s f v).fio = s.fio := rfl
@[simp] theorem setF_cfg (s : State) (f : Fld) (v : Nat) : (setF s f v).cfg = s.cfg := rfl
@[simp] theorem setF_saveA (s : State) (f : Fld) (v : Nat) : (setF s f v).saveA = s.saveA := rfl
@[simp] theorem setF_saveB (s : State) (f : Fld) (v : Nat) : (setF s f v).saveB = s.saveB := rfl
@[simp] theorem setF_exch (s : State) (f : Fld) (v : Nat) : (setF s f v).exch = s.exch := rfl
@[simp] theorem setF_boot (s : State) (f : Fld) (v : Nat) : (setF s f v).boot = s.boot := rfl
@[simp] theorem setF_sent (s : State) (f : Fld) (v : Nat) : (setF s f v).sent = s.sent := rfl
@[simp] theorem setF_free (s : State) (f : Fld) (v : Nat) : (setF s f v).free = s.free := rfl
@[simp] theorem setF_pending (s : State) (f : Fld) (v : Nat) : (setF s f v).pending = s.pending := rfl

/-! ### A core changed -/

@[simp] theorem modCore_regs (s : State) (c : Fin 6) (g : Core → Core) : (modCore s c g).regs = s.regs := rfl
@[simp] theorem modCore_hiLatch (s : State) (c : Fin 6) (g : Core → Core) : (modCore s c g).hiLatch = s.hiLatch := rfl
@[simp] theorem modCore_mem (s : State) (c : Fin 6) (g : Core → Core) : (modCore s c g).mem = s.mem := rfl
@[simp] theorem modCore_inst (s : State) (c : Fin 6) (g : Core → Core) : (modCore s c g).inst = s.inst := rfl
@[simp] theorem modCore_mbox (s : State) (c : Fin 6) (g : Core → Core) : (modCore s c g).mbox = s.mbox := rfl
@[simp] theorem modCore_inImg (s : State) (c : Fin 6) (g : Core → Core) : (modCore s c g).inImg = s.inImg := rfl
@[simp] theorem modCore_outImg (s : State) (c : Fin 6) (g : Core → Core) : (modCore s c g).outImg = s.outImg := rfl
@[simp] theorem modCore_journal (s : State) (c : Fin 6) (g : Core → Core) : (modCore s c g).journal = s.journal := rfl
@[simp] theorem modCore_tasks (s : State) (c : Fin 6) (g : Core → Core) : (modCore s c g).tasks = s.tasks := rfl
@[simp] theorem modCore_prog (s : State) (c : Fin 6) (g : Core → Core) : (modCore s c g).prog = s.prog := rfl
@[simp] theorem modCore_forces (s : State) (c : Fin 6) (g : Core → Core) : (modCore s c g).forces = s.forces := rfl
@[simp] theorem modCore_forcesEff (s : State) (c : Fin 6) (g : Core → Core) : (modCore s c g).forcesEff = s.forcesEff := rfl
@[simp] theorem modCore_irqs (s : State) (c : Fin 6) (g : Core → Core) : (modCore s c g).irqs = s.irqs := rfl
@[simp] theorem modCore_runtimeUp (s : State) (c : Fin 6) (g : Core → Core) : (modCore s c g).runtimeUp = s.runtimeUp := rfl
@[simp] theorem modCore_runState (s : State) (c : Fin 6) (g : Core → Core) : (modCore s c g).runState = s.runState := rfl
@[simp] theorem modCore_memFault (s : State) (c : Fin 6) (g : Core → Core) : (modCore s c g).memFault = s.memFault := rfl
@[simp] theorem modCore_prot (s : State) (c : Fin 6) (g : Core → Core) : (modCore s c g).prot = s.prot := rfl
@[simp] theorem modCore_nsa (s : State) (c : Fin 6) (g : Core → Core) : (modCore s c g).nsa = s.nsa := rfl
@[simp] theorem modCore_dpo (s : State) (c : Fin 6) (g : Core → Core) : (modCore s c g).dpo = s.dpo := rfl
@[simp] theorem modCore_lpe (s : State) (c : Fin 6) (g : Core → Core) : (modCore s c g).lpe = s.lpe := rfl
@[simp] theorem modCore_mtr (s : State) (c : Fin 6) (g : Core → Core) : (modCore s c g).mtr = s.mtr := rfl
@[simp] theorem modCore_ses (s : State) (c : Fin 6) (g : Core → Core) : (modCore s c g).ses = s.ses := rfl
@[simp] theorem modCore_qhc (s : State) (c : Fin 6) (g : Core → Core) : (modCore s c g).qhc = s.qhc := rfl
@[simp] theorem modCore_net (s : State) (c : Fin 6) (g : Core → Core) : (modCore s c g).net = s.net := rfl
@[simp] theorem modCore_que (s : State) (c : Fin 6) (g : Core → Core) : (modCore s c g).que = s.que := rfl
@[simp] theorem modCore_sec (s : State) (c : Fin 6) (g : Core → Core) : (modCore s c g).sec = s.sec := rfl
@[simp] theorem modCore_red (s : State) (c : Fin 6) (g : Core → Core) : (modCore s c g).red = s.red := rfl
@[simp] theorem modCore_tim (s : State) (c : Fin 6) (g : Core → Core) : (modCore s c g).tim = s.tim := rfl
@[simp] theorem modCore_evr (s : State) (c : Fin 6) (g : Core → Core) : (modCore s c g).evr = s.evr := rfl
@[simp] theorem modCore_rtc (s : State) (c : Fin 6) (g : Core → Core) : (modCore s c g).rtc = s.rtc := rfl
@[simp] theorem modCore_ser (s : State) (c : Fin 6) (g : Core → Core) : (modCore s c g).ser = s.ser := rfl
@[simp] theorem modCore_fio (s : State) (c : Fin 6) (g : Core → Core) : (modCore s c g).fio = s.fio := rfl
@[simp] theorem modCore_cfg (s : State) (c : Fin 6) (g : Core → Core) : (modCore s c g).cfg = s.cfg := rfl
@[simp] theorem modCore_saveA (s : State) (c : Fin 6) (g : Core → Core) : (modCore s c g).saveA = s.saveA := rfl
@[simp] theorem modCore_saveB (s : State) (c : Fin 6) (g : Core → Core) : (modCore s c g).saveB = s.saveB := rfl
@[simp] theorem modCore_exch (s : State) (c : Fin 6) (g : Core → Core) : (modCore s c g).exch = s.exch := rfl
@[simp] theorem modCore_boot (s : State) (c : Fin 6) (g : Core → Core) : (modCore s c g).boot = s.boot := rfl
@[simp] theorem modCore_sent (s : State) (c : Fin 6) (g : Core → Core) : (modCore s c g).sent = s.sent := rfl
@[simp] theorem modCore_free (s : State) (c : Fin 6) (g : Core → Core) : (modCore s c g).free = s.free := rfl
@[simp] theorem modCore_pending (s : State) (c : Fin 6) (g : Core → Core) : (modCore s c g).pending = s.pending := rfl

/-! ### A task changed -/

@[simp] theorem modTask_regs (s : State) (t : Fin 16) (g : Task → Task) : (modTask s t g).regs = s.regs := rfl
@[simp] theorem modTask_hiLatch (s : State) (t : Fin 16) (g : Task → Task) : (modTask s t g).hiLatch = s.hiLatch := rfl
@[simp] theorem modTask_mem (s : State) (t : Fin 16) (g : Task → Task) : (modTask s t g).mem = s.mem := rfl
@[simp] theorem modTask_inst (s : State) (t : Fin 16) (g : Task → Task) : (modTask s t g).inst = s.inst := rfl
@[simp] theorem modTask_mbox (s : State) (t : Fin 16) (g : Task → Task) : (modTask s t g).mbox = s.mbox := rfl
@[simp] theorem modTask_inImg (s : State) (t : Fin 16) (g : Task → Task) : (modTask s t g).inImg = s.inImg := rfl
@[simp] theorem modTask_outImg (s : State) (t : Fin 16) (g : Task → Task) : (modTask s t g).outImg = s.outImg := rfl
@[simp] theorem modTask_journal (s : State) (t : Fin 16) (g : Task → Task) : (modTask s t g).journal = s.journal := rfl
@[simp] theorem modTask_cores (s : State) (t : Fin 16) (g : Task → Task) : (modTask s t g).cores = s.cores := rfl
@[simp] theorem modTask_prog (s : State) (t : Fin 16) (g : Task → Task) : (modTask s t g).prog = s.prog := rfl
@[simp] theorem modTask_forces (s : State) (t : Fin 16) (g : Task → Task) : (modTask s t g).forces = s.forces := rfl
@[simp] theorem modTask_forcesEff (s : State) (t : Fin 16) (g : Task → Task) : (modTask s t g).forcesEff = s.forcesEff := rfl
@[simp] theorem modTask_irqs (s : State) (t : Fin 16) (g : Task → Task) : (modTask s t g).irqs = s.irqs := rfl
@[simp] theorem modTask_runtimeUp (s : State) (t : Fin 16) (g : Task → Task) : (modTask s t g).runtimeUp = s.runtimeUp := rfl
@[simp] theorem modTask_runState (s : State) (t : Fin 16) (g : Task → Task) : (modTask s t g).runState = s.runState := rfl
@[simp] theorem modTask_memFault (s : State) (t : Fin 16) (g : Task → Task) : (modTask s t g).memFault = s.memFault := rfl
@[simp] theorem modTask_prot (s : State) (t : Fin 16) (g : Task → Task) : (modTask s t g).prot = s.prot := rfl
@[simp] theorem modTask_nsa (s : State) (t : Fin 16) (g : Task → Task) : (modTask s t g).nsa = s.nsa := rfl
@[simp] theorem modTask_dpo (s : State) (t : Fin 16) (g : Task → Task) : (modTask s t g).dpo = s.dpo := rfl
@[simp] theorem modTask_lpe (s : State) (t : Fin 16) (g : Task → Task) : (modTask s t g).lpe = s.lpe := rfl
@[simp] theorem modTask_mtr (s : State) (t : Fin 16) (g : Task → Task) : (modTask s t g).mtr = s.mtr := rfl
@[simp] theorem modTask_ses (s : State) (t : Fin 16) (g : Task → Task) : (modTask s t g).ses = s.ses := rfl
@[simp] theorem modTask_qhc (s : State) (t : Fin 16) (g : Task → Task) : (modTask s t g).qhc = s.qhc := rfl
@[simp] theorem modTask_net (s : State) (t : Fin 16) (g : Task → Task) : (modTask s t g).net = s.net := rfl
@[simp] theorem modTask_que (s : State) (t : Fin 16) (g : Task → Task) : (modTask s t g).que = s.que := rfl
@[simp] theorem modTask_sec (s : State) (t : Fin 16) (g : Task → Task) : (modTask s t g).sec = s.sec := rfl
@[simp] theorem modTask_red (s : State) (t : Fin 16) (g : Task → Task) : (modTask s t g).red = s.red := rfl
@[simp] theorem modTask_tim (s : State) (t : Fin 16) (g : Task → Task) : (modTask s t g).tim = s.tim := rfl
@[simp] theorem modTask_evr (s : State) (t : Fin 16) (g : Task → Task) : (modTask s t g).evr = s.evr := rfl
@[simp] theorem modTask_rtc (s : State) (t : Fin 16) (g : Task → Task) : (modTask s t g).rtc = s.rtc := rfl
@[simp] theorem modTask_ser (s : State) (t : Fin 16) (g : Task → Task) : (modTask s t g).ser = s.ser := rfl
@[simp] theorem modTask_fio (s : State) (t : Fin 16) (g : Task → Task) : (modTask s t g).fio = s.fio := rfl
@[simp] theorem modTask_cfg (s : State) (t : Fin 16) (g : Task → Task) : (modTask s t g).cfg = s.cfg := rfl
@[simp] theorem modTask_saveA (s : State) (t : Fin 16) (g : Task → Task) : (modTask s t g).saveA = s.saveA := rfl
@[simp] theorem modTask_saveB (s : State) (t : Fin 16) (g : Task → Task) : (modTask s t g).saveB = s.saveB := rfl
@[simp] theorem modTask_exch (s : State) (t : Fin 16) (g : Task → Task) : (modTask s t g).exch = s.exch := rfl
@[simp] theorem modTask_boot (s : State) (t : Fin 16) (g : Task → Task) : (modTask s t g).boot = s.boot := rfl
@[simp] theorem modTask_sent (s : State) (t : Fin 16) (g : Task → Task) : (modTask s t g).sent = s.sent := rfl
@[simp] theorem modTask_free (s : State) (t : Fin 16) (g : Task → Task) : (modTask s t g).free = s.free := rfl
@[simp] theorem modTask_pending (s : State) (t : Fin 16) (g : Task → Task) : (modTask s t g).pending = s.pending := rfl

/-! ### A message sent -/

@[simp] theorem send_regs (s : State) (m : OutMsg) : (send s m).regs = s.regs := rfl
@[simp] theorem send_hiLatch (s : State) (m : OutMsg) : (send s m).hiLatch = s.hiLatch := rfl
@[simp] theorem send_mem (s : State) (m : OutMsg) : (send s m).mem = s.mem := rfl
@[simp] theorem send_inst (s : State) (m : OutMsg) : (send s m).inst = s.inst := rfl
@[simp] theorem send_mbox (s : State) (m : OutMsg) : (send s m).mbox = s.mbox := rfl
@[simp] theorem send_inImg (s : State) (m : OutMsg) : (send s m).inImg = s.inImg := rfl
@[simp] theorem send_outImg (s : State) (m : OutMsg) : (send s m).outImg = s.outImg := rfl
@[simp] theorem send_journal (s : State) (m : OutMsg) : (send s m).journal = s.journal := rfl
@[simp] theorem send_cores (s : State) (m : OutMsg) : (send s m).cores = s.cores := rfl
@[simp] theorem send_tasks (s : State) (m : OutMsg) : (send s m).tasks = s.tasks := rfl
@[simp] theorem send_prog (s : State) (m : OutMsg) : (send s m).prog = s.prog := rfl
@[simp] theorem send_forces (s : State) (m : OutMsg) : (send s m).forces = s.forces := rfl
@[simp] theorem send_forcesEff (s : State) (m : OutMsg) : (send s m).forcesEff = s.forcesEff := rfl
@[simp] theorem send_irqs (s : State) (m : OutMsg) : (send s m).irqs = s.irqs := rfl
@[simp] theorem send_runtimeUp (s : State) (m : OutMsg) : (send s m).runtimeUp = s.runtimeUp := rfl
@[simp] theorem send_runState (s : State) (m : OutMsg) : (send s m).runState = s.runState := rfl
@[simp] theorem send_memFault (s : State) (m : OutMsg) : (send s m).memFault = s.memFault := rfl
@[simp] theorem send_prot (s : State) (m : OutMsg) : (send s m).prot = s.prot := rfl
@[simp] theorem send_nsa (s : State) (m : OutMsg) : (send s m).nsa = s.nsa := rfl
@[simp] theorem send_dpo (s : State) (m : OutMsg) : (send s m).dpo = s.dpo := rfl
@[simp] theorem send_lpe (s : State) (m : OutMsg) : (send s m).lpe = s.lpe := rfl
@[simp] theorem send_mtr (s : State) (m : OutMsg) : (send s m).mtr = s.mtr := rfl
@[simp] theorem send_ses (s : State) (m : OutMsg) : (send s m).ses = s.ses := rfl
@[simp] theorem send_qhc (s : State) (m : OutMsg) : (send s m).qhc = s.qhc := rfl
@[simp] theorem send_net (s : State) (m : OutMsg) : (send s m).net = s.net := rfl
@[simp] theorem send_que (s : State) (m : OutMsg) : (send s m).que = s.que := rfl
@[simp] theorem send_sec (s : State) (m : OutMsg) : (send s m).sec = s.sec := rfl
@[simp] theorem send_red (s : State) (m : OutMsg) : (send s m).red = s.red := rfl
@[simp] theorem send_tim (s : State) (m : OutMsg) : (send s m).tim = s.tim := rfl
@[simp] theorem send_evr (s : State) (m : OutMsg) : (send s m).evr = s.evr := rfl
@[simp] theorem send_rtc (s : State) (m : OutMsg) : (send s m).rtc = s.rtc := rfl
@[simp] theorem send_ser (s : State) (m : OutMsg) : (send s m).ser = s.ser := rfl
@[simp] theorem send_fio (s : State) (m : OutMsg) : (send s m).fio = s.fio := rfl
@[simp] theorem send_cfg (s : State) (m : OutMsg) : (send s m).cfg = s.cfg := rfl
@[simp] theorem send_saveA (s : State) (m : OutMsg) : (send s m).saveA = s.saveA := rfl
@[simp] theorem send_saveB (s : State) (m : OutMsg) : (send s m).saveB = s.saveB := rfl
@[simp] theorem send_exch (s : State) (m : OutMsg) : (send s m).exch = s.exch := rfl
@[simp] theorem send_boot (s : State) (m : OutMsg) : (send s m).boot = s.boot := rfl
@[simp] theorem send_free (s : State) (m : OutMsg) : (send s m).free = s.free := rfl
@[simp] theorem send_pending (s : State) (m : OutMsg) : (send s m).pending = s.pending := rfl

/-! ### A free value taken -/

@[simp] theorem takeFree_regs (s : State) : ((takeFree s).2).regs = s.regs := rfl
@[simp] theorem takeFree_hiLatch (s : State) : ((takeFree s).2).hiLatch = s.hiLatch := rfl
@[simp] theorem takeFree_mem (s : State) : ((takeFree s).2).mem = s.mem := rfl
@[simp] theorem takeFree_inst (s : State) : ((takeFree s).2).inst = s.inst := rfl
@[simp] theorem takeFree_mbox (s : State) : ((takeFree s).2).mbox = s.mbox := rfl
@[simp] theorem takeFree_inImg (s : State) : ((takeFree s).2).inImg = s.inImg := rfl
@[simp] theorem takeFree_outImg (s : State) : ((takeFree s).2).outImg = s.outImg := rfl
@[simp] theorem takeFree_journal (s : State) : ((takeFree s).2).journal = s.journal := rfl
@[simp] theorem takeFree_cores (s : State) : ((takeFree s).2).cores = s.cores := rfl
@[simp] theorem takeFree_tasks (s : State) : ((takeFree s).2).tasks = s.tasks := rfl
@[simp] theorem takeFree_prog (s : State) : ((takeFree s).2).prog = s.prog := rfl
@[simp] theorem takeFree_forces (s : State) : ((takeFree s).2).forces = s.forces := rfl
@[simp] theorem takeFree_forcesEff (s : State) : ((takeFree s).2).forcesEff = s.forcesEff := rfl
@[simp] theorem takeFree_irqs (s : State) : ((takeFree s).2).irqs = s.irqs := rfl
@[simp] theorem takeFree_runtimeUp (s : State) : ((takeFree s).2).runtimeUp = s.runtimeUp := rfl
@[simp] theorem takeFree_runState (s : State) : ((takeFree s).2).runState = s.runState := rfl
@[simp] theorem takeFree_memFault (s : State) : ((takeFree s).2).memFault = s.memFault := rfl
@[simp] theorem takeFree_prot (s : State) : ((takeFree s).2).prot = s.prot := rfl
@[simp] theorem takeFree_nsa (s : State) : ((takeFree s).2).nsa = s.nsa := rfl
@[simp] theorem takeFree_dpo (s : State) : ((takeFree s).2).dpo = s.dpo := rfl
@[simp] theorem takeFree_lpe (s : State) : ((takeFree s).2).lpe = s.lpe := rfl
@[simp] theorem takeFree_mtr (s : State) : ((takeFree s).2).mtr = s.mtr := rfl
@[simp] theorem takeFree_ses (s : State) : ((takeFree s).2).ses = s.ses := rfl
@[simp] theorem takeFree_qhc (s : State) : ((takeFree s).2).qhc = s.qhc := rfl
@[simp] theorem takeFree_net (s : State) : ((takeFree s).2).net = s.net := rfl
@[simp] theorem takeFree_que (s : State) : ((takeFree s).2).que = s.que := rfl
@[simp] theorem takeFree_sec (s : State) : ((takeFree s).2).sec = s.sec := rfl
@[simp] theorem takeFree_red (s : State) : ((takeFree s).2).red = s.red := rfl
@[simp] theorem takeFree_tim (s : State) : ((takeFree s).2).tim = s.tim := rfl
@[simp] theorem takeFree_evr (s : State) : ((takeFree s).2).evr = s.evr := rfl
@[simp] theorem takeFree_rtc (s : State) : ((takeFree s).2).rtc = s.rtc := rfl
@[simp] theorem takeFree_ser (s : State) : ((takeFree s).2).ser = s.ser := rfl
@[simp] theorem takeFree_fio (s : State) : ((takeFree s).2).fio = s.fio := rfl
@[simp] theorem takeFree_cfg (s : State) : ((takeFree s).2).cfg = s.cfg := rfl
@[simp] theorem takeFree_saveA (s : State) : ((takeFree s).2).saveA = s.saveA := rfl
@[simp] theorem takeFree_saveB (s : State) : ((takeFree s).2).saveB = s.saveB := rfl
@[simp] theorem takeFree_exch (s : State) : ((takeFree s).2).exch = s.exch := rfl
@[simp] theorem takeFree_boot (s : State) : ((takeFree s).2).boot = s.boot := rfl
@[simp] theorem takeFree_sent (s : State) : ((takeFree s).2).sent = s.sent := rfl
@[simp] theorem takeFree_pending (s : State) : ((takeFree s).2).pending = s.pending := rfl

/-! ### What the updates write -/

@[simp] theorem send_sent (s : State) (m : OutMsg) : (send s m).sent = m :: s.sent := rfl

@[simp] theorem takeFree_free (s : State) : (takeFree s).2.free = s.free + 1 := rfl

@[simp] theorem coreOf_modCore_same (s : State) (c : Fin 6) (g : Core → Core) : coreOf (modCore s c g) c = g (coreOf s c) := by
  simp [coreOf, modCore]

/-- Another core is as before. -/
theorem coreOf_modCore_ne (s : State) (c d : Fin 6) (g : Core → Core) (h : d ≠ c) : coreOf (modCore s c g) d = coreOf s d := by
  have : c.val ≠ d.val := fun e => h (Fin.ext e.symm)
  simp [coreOf, modCore, this]

@[simp] theorem taskOf_modTask_same (s : State) (t : Fin 16) (g : Task → Task) : taskOf (modTask s t g) t = g (taskOf s t) := by
  simp [taskOf, modTask]

/-- Another task is as before. -/
theorem taskOf_modTask_ne (s : State) (t u : Fin 16) (g : Task → Task) (h : u ≠ t) :
    taskOf (modTask s t g) u = taskOf s u := by
  have : t.val ≠ u.val := fun e => h (Fin.ext e.symm)
  simp [taskOf, modTask, this]

end Sys2Proof.Machine
end

