-- ==== Sys2Proof/Laws/Regs.lean ====
section
/-!
SUPPORT. Laws of the register file: a register and a field read after a write, for the same and for another register,
and the canonical form of the file.
-/
namespace Sys2Proof.Machine

/-! ### Registers -/

@[simp] theorem getReg_setReg_same (s : State) (a : Nat) (v : Word) : getReg (setReg s a v) a = v := amGet_amSet_same ..

theorem getReg_setReg (s : State) (a b : Nat) (v : Word) :
    getReg (setReg s a v) b = if b = a then v else getReg s b := amGet_amSet ..

theorem getReg_setReg_ne (s : State) (a b : Nat) (v : Word) (h : b ≠ a) : getReg (setReg s a v) b = getReg s b := by
  rw [getReg_setReg, if_neg h]

/-- Registers are read from the register file alone. -/
theorem getReg_congr {s t : State} (h : t.regs = s.regs) (a : Nat) : getReg t a = getReg s a := by simp only [getReg, h]

theorem getFi_congr {s t : State} (h : t.regs = s.regs) (f : Fld) (i : Nat) : getFi t f i = getFi s f i := by
  simp only [getFi, getReg_congr h]

theorem getF_congr {s t : State} (h : t.regs = s.regs) (f : Fld) : getF t f = getF s f := getFi_congr h f 0

theorem flag_congr {s t : State} (h : t.regs = s.regs) (f : Fld) : flag t f = flag s f := by
  simp only [flag, getF_congr h]

@[simp] theorem getReg_modCore (s : State) (c : Fin 6) (g : Core → Core) (a : Nat) :
    getReg (modCore s c g) a = getReg s a := rfl

@[simp] theorem getReg_modTask (s : State) (t : Fin 16) (g : Task → Task) (a : Nat) :
    getReg (modTask s t g) a = getReg s a := rfl

@[simp] theorem getReg_send (s : State) (m : OutMsg) (a : Nat) : getReg (send s m) a = getReg s a := rfl

@[simp] theorem getReg_takeFree (s : State) (a : Nat) : getReg (takeFree s).2 a = getReg s a := rfl

/-- The register file keeps its canonical form. -/
theorem wf_setReg (s : State) (a : Nat) (v : Word) (h : amWf resetWord s.regs = true) :
    amWf resetWord (setReg s a v).regs = true := amWf_amSet _ _ _ _ h

/-! ### Fields -/

/-- A field lies inside a 32-bit register. -/
def Fld.inWord (f : Fld) : Prop := f.lo ≤ f.hi ∧ f.hi < 32

theorem testBit_putBits (hi lo x v j : Nat) (h : lo ≤ hi) :
    (putBits hi lo x v).testBit j = if lo ≤ j ∧ j ≤ hi then x.testBit (j - lo) else v.testBit j := by
  unfold putBits
  simp only [Nat.testBit_or, Nat.testBit_shiftLeft, Nat.testBit_shiftRight, Nat.testBit_mod_two_pow]
  by_cases h1 : j < lo
  · have : ¬ (hi + 1 ≤ j) := by omega
    have : ¬ (lo ≤ j) := by omega
    simp [*]
  · by_cases h2 : j ≤ hi
    · have : ¬ (hi + 1 ≤ j) := by omega
      have : j - lo < hi + 1 - lo := by omega
      have : lo ≤ j := by omega
      simp [*]
    · have : hi + 1 + (j - (hi + 1)) = j := by omega
      have : ¬ (j - lo < hi + 1 - lo) := by omega
      have : hi + 1 ≤ j := by omega
      simp [*]

theorem testBit_bitsOf (hi lo v j : Nat) : (bitsOf hi lo v).testBit j = (decide (j < hi + 1 - lo) && v.testBit (lo + j)) := by
  simp [bitsOf, Nat.testBit_mod_two_pow, Nat.testBit_shiftRight]

theorem putBits_lt (hi lo x v n : Nat) (h : lo ≤ hi) (hn : hi < n) (hv : v < 2 ^ n) : putBits hi lo x v < 2 ^ n := by
  apply Nat.lt_pow_two_of_testBit
  intro j hj
  rw [testBit_putBits _ _ _ _ _ h, if_neg (by omega)]
  exact Nat.testBit_lt_two_pow (lt_of_lt_of_le hv (Nat.pow_le_pow_right (by norm_num) hj))

/-- The field written reads as the low bits of the value. -/
theorem getFi_setFi_same (s : State) (f : Fld) (i v : Nat) (h : f.inWord) :
    getFi (setFi s f i v) f i = v % 2 ^ (f.hi + 1 - f.lo) := by
  have hlt := putBits_lt f.hi f.lo v (getReg s (f.at i)).toNat 32 h.1 h.2 (getReg s (f.at i)).isLt
  simp only [getFi, setFi, getReg_setReg_same, fieldOf, BitVec.toNat_ofNat, Nat.mod_eq_of_lt hlt]
  apply Nat.eq_of_testBit_eq
  intro j
  rw [testBit_bitsOf, testBit_putBits _ _ _ _ _ h.1, Nat.testBit_mod_two_pow]
  by_cases hj : j < f.hi + 1 - f.lo
  · rw [if_pos (by have := h.1; omega)]; simp [hj]
  · simp [hj]

/-- A field of another register reads as before. -/
theorem getFi_setFi_ne (s : State) (f g : Fld) (i j v : Nat) (h : g.at j ≠ f.at i) :
    getFi (setFi s f i v) g j = getFi s g j := by
  simp only [getFi, setFi, getReg_setReg_ne _ _ _ _ h]

/-- Another field of the same register reads as before. -/
theorem getFi_setFi_apart (s : State) (f g : Fld) (i j v : Nat) (h : f.inWord) (ha : g.at j = f.at i)
    (hd : g.hi < f.lo ∨ f.hi < g.lo) : getFi (setFi s f i v) g j = getFi s g j := by
  have hlt := putBits_lt f.hi f.lo v (getReg s (f.at i)).toNat 32 h.1 h.2 (getReg s (f.at i)).isLt
  simp only [getFi, setFi, ha, getReg_setReg_same, fieldOf, BitVec.toNat_ofNat, Nat.mod_eq_of_lt hlt]
  apply Nat.eq_of_testBit_eq
  intro k
  rw [testBit_bitsOf, testBit_bitsOf, testBit_putBits _ _ _ _ _ h.1]
  by_cases hk : k < g.hi + 1 - g.lo
  · rw [if_neg (by omega)]
  · simp [hk]

theorem getF_setF_same (s : State) (f : Fld) (v : Nat) (h : f.inWord) :
    getF (setF s f v) f = v % 2 ^ (f.hi + 1 - f.lo) := getFi_setFi_same s f 0 v h

theorem getF_setF_ne (s : State) (f g : Fld) (v : Nat) (h : g.at 0 ≠ f.at 0) : getF (setF s f v) g = getF s g :=
  getFi_setFi_ne s f g 0 0 v h

theorem getF_setF_apart (s : State) (f g : Fld) (v : Nat) (h : f.inWord) (ha : g.at 0 = f.at 0)
    (hd : g.hi < f.lo ∨ f.hi < g.lo) : getF (setF s f v) g = getF s g := getFi_setFi_apart s f g 0 0 v h ha hd

end Sys2Proof.Machine
end

