-- ==== Sys2Proof/Laws/Ops.lean ====
section
/-!
SUPPORT. What the shared operations can do, said once: issuing an instruction, events, discarded writes, bus errors, checked
writes, logged stores and sent frames.
-/
namespace Sys2Proof.Machine

/-! ### Issuing -/

/-- A core that does not execute leaves the state alone. -/
theorem issue_idle (x : Issue) (s : State) (ea : Option Dword) (f : State → Exe) (h : live s x.core = false) :
    issue x s ea f = .next s := by simp [issue, h]

/-- An instruction that meets a hardware fault raises it and has no other effect. -/
theorem issue_faulted (x : Issue) (s : State) (ea : Option Dword) (f : State → Exe) (e : Exc) (h : live s x.core = true)
    (he : faultExc s x ea = some e) : issue x s ea f = .next (raise s x.core e) := by simp [issue, h, he]

/-- An instruction on the registers of its core, without a fault, goes on at PC + 4 with the registers it gives. -/
theorem issueRegs_runs (x : Issue) (s : State) (f : RegCtx → RegCtx) (h : Runs x s) :
    issueRegs x s f = .next (goOn s x.core (f (ctxOf s x.core))) := by
  obtain ⟨h1, h2⟩ := h
  have hw : (coreOf s x.core).waiting = false := by
    simp only [live, Bool.and_eq_true, Bool.not_eq_true'] at h1; exact h1.1.2
  have hc : countCorrected s x = s := by simp [countCorrected, h2]
  simp only [issueRegs, issue, h1, faultExc, h2, hc, goOn, goOnAt, pc4]
  simp [setCtx, hw]

/-! ### Fields -/

/-- Setting a field changes the registers alone. -/
theorem setF_only (s : State) (f : Fld) (v : Nat) : { setF s f v with regs := s.regs } = s := rfl

/-- Setting a 64-bit quantity changes the registers alone. -/
theorem set64_only (s : State) (lo hi v : Nat) : { set64 s lo hi v with regs := s.regs } = s := rfl

theorem set64_setF_only (s : State) (f : Fld) (w lo hi v : Nat) : { set64 (setF s f w) lo hi v with regs := s.regs } = s := rfl

theorem getReg_setF_ne (s : State) (f : Fld) (v a : Nat) (h : a ≠ f.addr) : getReg (setF s f v) a = getReg s a := by
  unfold setF setFi
  exact getReg_setReg_ne _ _ _ _ (by simpa [Fld.at] using h)

/-! ### Events -/

/-- A record submitted changes the registers and the recorder alone. -/
theorem evrSubmit_only (s : State) (r : EvrRec) : { evrSubmit s r with regs := s.regs, evr := s.evr } = s := by
  unfold evrSubmit; split <;> rfl

/-- The registers that a record submitted can change. -/
theorem getReg_evrSubmit (s : State) (r : EvrRec) (a : Nat) (h1 : a ≠ F.EVR_STATUS_BUF_LEVEL.addr) (h2 : a ≠ F.EVR_EVENTS_DROP.addr)
    (h3 : a ≠ F.EVR_DROP_COUNT.at r.sev) : getReg (evrSubmit s r) a = getReg s a := by
  unfold evrSubmit
  split
  · exact getReg_setF_ne _ _ _ _ h1
  · rw [getReg_setF_ne _ _ _ _ h2]; exact getReg_setReg_ne _ _ _ _ h3

theorem evTask_only (s : State) (b e v t : Nat) (l : List Nat) :
    { evTask s b e v t l with regs := s.regs, evr := s.evr } = s := evrSubmit_only ..

theorem ev_only (s : State) (b e v : Nat) (l : List Nat) : { ev s b e v l with regs := s.regs, evr := s.evr } = s :=
  evrSubmit_only ..

theorem evBit_only (s : State) (f : Fld) (v : Nat) (l : List Nat) : { evBit s f v l with regs := s.regs, evr := s.evr } = s := by
  have h := ev_only (setF s f 1) (blockOf f.addr) f.lo v l
  exact (congrArg (fun x : State => { x with regs := s.regs, evr := s.evr }) h)

/-! ### Errors and checked writes -/

/-- A discarded write changes one register alone. -/
theorem cfgErr_only (s : State) : { cfgErr s with regs := s.regs } = s := setF_only ..

theorem getReg_cfgErr (s : State) (a : Nat) (h : a ≠ F.SYS_STATUS_CFG_ERR.addr) : getReg (cfgErr s) a = getReg s a :=
  getReg_setF_ne _ _ _ _ h

/-- A bus error changes the two registers of its address and the flag alone. -/
theorem busErr_only (s : State) (a : Nat) : { busErr s a with regs := s.regs } = s := by
  unfold busErr; exact set64_setF_only ..

theorem getReg_busErr (s : State) (a b : Nat) (h1 : b ≠ F.SYS_STATUS_BUS_ERR.addr) (h2 : b ≠ R.SYS_BUS_ERR_LO)
    (h3 : b ≠ R.SYS_BUS_ERR_HI) : getReg (busErr s a) b = getReg s b := by
  unfold busErr set64
  rw [getReg_setReg_ne _ _ _ _ h3, getReg_setReg_ne _ _ _ _ h2, getReg_setF_ne _ _ _ _ h1]

/-- A write that its register takes has the register's effect. -/
theorem checkedWrite_takes (s : State) (a : Nat) (v : Word) (f : State → State) (h : Takes s a v) :
    checkedWrite s a v f = f s := by
  obtain ⟨r, h1, h2⟩ := h
  simp [checkedWrite, h1, h2]

/-- Takes, as a check that evaluates. -/
theorem takes_iff (s : State) (a : Nat) (v : Word) :
    Takes s a v ↔ ((regDefAt a).any fun r => !writeBarred s a r v) = true := by
  unfold Takes
  cases regDefAt a <;> simp

/-- A write that its register does not take is discarded. -/
theorem checkedWrite_barred (s : State) (a : Nat) (v : Word) (f : State → State) (h : ¬ Takes s a v) :
    checkedWrite s a v f = cfgErr s := by
  unfold checkedWrite
  cases hr : regDefAt a with
  | none => simp
  | some r =>
    cases hb : writeBarred s a r v with
    | true => simp [hb]
    | false => exact absurd ⟨r, hr, hb⟩ h

/-- A plain write changes one register, or is discarded. -/
theorem plainWrite_only (s : State) (a : Nat) (v : Word) : { plainWrite s a v with regs := s.regs } = s := by
  unfold plainWrite
  cases regDefAt a with
  | none => exact cfgErr_only s
  | some r =>
    cases hb : writeBarred s a r v with
    | true => simpa [hb] using cfgErr_only s
    | false => simp [hb, setReg]

/-! ### The load of the loop engine -/

/-- The peak load is at most the number of loops. -/
theorem peakLoad_le (ls : List Load) : peakLoad ls ≤ ls.length := by
  have h : ∀ (l : List Nat) (m : Nat), m ≤ ls.length → l.foldl (fun m t =>
      max m (ls.countP fun e => let g := Nat.gcd e.1 4000; t % g = e.2 % g)) m ≤ ls.length := by
    intro l
    induction l with
    | nil => exact fun _ h => h
    | cons t l ih => exact fun m h => ih _ (Nat.max_le.mpr ⟨h, List.countP_le_length⟩)
  exact h _ _ (Nat.zero_le _)

/-! ### Stores and messages -/

/-- A logged store either takes effect, in instance memory or the mailbox, or raises LIMIT with nothing stored. -/
theorem storeLogged_cases (s : State) (t : Nat) (sc : Scan) (ad : Dword) (bs : List Byte) :
    (∃ u, storeLogged s t sc ad bs = .ok u ∧ u.mem = s.mem ∧ u.regs = s.regs ∧
      (ad.toNat < winConst → u.inst = memPut s.inst ad.toNat bs ∧ u.mbox = s.mbox) ∧
      (winConst ≤ ad.toNat → u.mbox = memPut s.mbox ad.toNat bs ∧ u.inst = s.inst)) ∨
    storeLogged s t sc ad bs = .error (excLIMIT 1 ad) := by
  have hm : ∀ x, (setScan s t x).mem = s.mem ∧ (setScan s t x).regs = s.regs ∧ (setScan s t x).inst = s.inst ∧
      (setScan s t x).mbox = s.mbox := by
    intro x; exact ⟨rfl, rfl, rfl, rfl⟩
  unfold storeLogged
  simp only
  split
  · left
    by_cases h : ad.toNat < winConst
    · exact ⟨_, rfl, by simp [h], by simp [h], fun _ => by simp [h], fun h2 => absurd h (by omega)⟩
    · exact ⟨_, rfl, by simp [h], by simp [h], fun h2 => absurd h2 h, fun _ => by simp [h]⟩
  · split
    · exact .inr rfl
    · left
      by_cases h : ad.toNat < winConst
      · exact ⟨_, rfl, by simp [h, hm], by simp [h, hm], fun _ => by simp [h, hm], fun h2 => absurd h (by omega)⟩
      · exact ⟨_, rfl, by simp [h, hm], by simp [h, hm], fun h2 => absurd h2 h, fun _ => by simp [h, hm]⟩

/-- A frame sent changes the pair's bookkeeping and the trace of messages alone. -/
theorem furovSend_only (s : State) (b : FurovBody) : { furovSend s b with red := s.red, sent := s.sent } = s := by
  unfold furovSend; split <;> rfl

/-- A reply changes the host channel and the trace of messages alone. -/
theorem fillOutBox_only (s : State) : { fillOutBox s with qhc := s.qhc, sent := s.sent } = s := by
  unfold fillOutBox
  split
  · split <;> rfl
  · rfl

end Sys2Proof.Machine
end

