-- ==== Sys2Proof/Tests/Slice0.lean ====
section
/-!
SUPPORT. Small tests on single steps, expected values from the manual, and a witness for the hypotheses of each
statement.
-/
namespace Sys2Proof.Tests
open Sys2Proof.Machine
set_option Elab.async false

/-! ### Small states -/

/-- The module after release with the runtime up, in the role of a single module that holds the token. -/
def up : State :=
  setReg (setF (setF { State.reset with runtimeUp := true, boot := { Boot.reset with stage := 4, power := true, qualified := true } }
    F.RED_STATUS_ROLE roSINGLE) F.RED_STATUS_TOKEN_OUT 1) R.CLK_GATE_ENG 0x1FFFF

/-- `up` in run state. -/
def run : State := { up with runState := true }

/-- A task of 1 ms on core 0. -/
def task0 : TaskRec := { entry := 0, task := 0, core := 0, prio := 0, halt := false, ovrMax := 1, period := 4 }

def tagIn : TagRec := { tag := 7, typ := 5, qn := 0, out := false, owner := 0xFF, off := 0 }
def tagOut : TagRec := { tag := 8, typ := 5, qn := 0, out := true, owner := 0, off := 0 }

/-- A program of one task that owns the first retained page. -/
def prog : Program :=
  { serial := 1, codeLen := 0x100, constLen := 0, consts := [], retLen := 0x1000, nonretLen := 0, tasks := [task0],
    pages := [(0x4000, 0)], insts := [], tags := [tagIn, tagOut], netMs := 100, dispMult := 10, canRecover := [0, 0, 0, 0],
    projectId := 0, iomap := [], chkUnits := [] }

def view : EngineView :=
  { state := none, dec := none, demThermal := [], demMissing := [], demElectric := [], loops := [], groups := [], exps := [],
    modelSerial := 0, nodeIds := [], branchIds := [], hasModel := false }

def scan : Scan :=
  { period := 0, pstart := 0, late := 0, begun := true, saved := RegCtx.zero, undo := [], buf := [], calls := [], ticket := 0,
    ckpt := { ctx := RegCtx.zero, ticket := 0, undoMark := 0, bufMark := 0, callMark := 0 }, info := 0, faulted := none,
    frozenIn := [], frozenOut := [], frozenShared := [], frozenForces := [], view := view }

/-- Core 0 runs the scan of task 0 in scan mode, its registers set by `k`. -/
def scanning (k : RegCtx → RegCtx) (sc : Scan) : State :=
  modCore (setScan { run with prog := some prog } 0 (some sc)) 0 fun c =>
    { c with ctx := k c.ctx, stat := 0, running := some 0 }

/-- A core on which nothing runs in supervisor mode, its registers set by `k`. -/
def super (c : Fin 6) (k : RegCtx → RegCtx) : State := modCore up c fun q => { q with ctx := k q.ctx }

/-- Registers g1 and g2 set. -/
def g12 (a b : Dword) (k : RegCtx) : RegCtx := putG (putG k 1 a) 2 b

/-- An issue on a core without a fault. -/
def on (c : Fin 6) : Issue := { core := c, fault := .none }

/-- A field of the state that a command answers. -/
def after {α : Type} (o : Host.Outcome State Fault Refusal) (f : State → α) : Option α :=
  match o with
  | .next t => some (f t)
  | _ => none


/-! ### Well-formedness: an ill-formed term for each check -/

theorem test_wf_access_size : Instr.wf (.registerWrite 0 0 3 false) = false ∧ Instr.wf (.loRegisterRead 0 0 false) = false ∧
    Instr.wf (.registerWrite 0 0 8 false) = true := by decide

theorem test_wf_afe : Instr.wf (.afeConversion [0]) = false ∧ Instr.wf (.afeSample 0 0 [0, 0, 0] [0]) = false ∧
    Instr.wf (.afeSample 0 0 [0, 0, 0] [0, 0, 0]) = true := by decide

theorem test_wf_sv : Instr.wf (.svFrameReceive 0 0 65536 0 [0, 0, 0, 0, 0, 0, 0, 0] [0, 0, 0, 0, 0, 0, 0, 0] ⟨0, 0⟩) = false ∧
    Instr.wf (.svFrameReceive 0 0 0 0 [] [0, 0, 0, 0, 0, 0, 0, 0] ⟨0, 0⟩) = false := by decide

theorem test_wf_call_body : Instr.wf (.nsaInstall 0 0 (List.replicate 28673 0)) = false := by decide +kernel

theorem test_wf_datagram : Instr.wf (.qhcFragmentReceive ⟨none, 1, true⟩ (List.replicate 1433 0) ⟨true, none, false⟩) = false := by
  decide +kernel

def hdr : PtpHdr :=
  { kind := .plain, port := 0, domain := 0, transport := 0, seq := 1, src := 5, corr := 0, log := 0, rx := 0, out := [] }
def body : AnnounceBody :=
  { prio1 := 1, cls := 6, acc := 0, var := 0, prio2 := 1, gm := 9, steps := 0, ptpTs := true, utcValid := true, utc := 37,
    leap61 := false, leap59 := false, timeout := 3 }

theorem test_wf_ptp : Instr.wf (.ptpFollowUpReceive { hdr with domain := 256 } 0) = false ∧
    Instr.wf (.ptpAnnounceReceive hdr { body with prio1 := 256 }) = false ∧ Instr.wf (.ptpAnnounceReceive hdr body) = true := by
  decide

def frame : CanFrame :=
  { xl := false, fdf := false, ide := false, rtr := false, brs := false, esi := false, sec := false, id := 1, dlc := 1, vcid := 0,
    sdt := 0, af := 0, data := [7] }

theorem test_wf_can : Instr.wf (.canFrameReceive 0 { frame with xl := true, fdf := true } 0) = false ∧
    Instr.wf (.canFrameReceive 0 { frame with data := List.replicate 9 0 } 0) = false ∧
    Instr.wf (.canFrameReceive 0 { frame with xl := true, data := [] } 0) = false ∧
    Instr.wf (.wakeFrame 0 (some { frame with fdf := true, data := List.replicate 65 0 }) 0) = false ∧
    Instr.wf (.canFrameReceive 0 frame 0) = true := by decide

/-! ### Irtum -/

/-- R196: the largest negative number divided by −1 gives itself, and a division by zero gives 0 and sets DZ. -/
theorem test_div_corners :
    after (exec (.div (on 4) 3 1 2) (super 4 (g12 0x8000000000000000 (-1)))) (fun t => (getG (ctxOf t 4) 3, (ctxOf t 4).flg)) =
      some (0x8000000000000000, 0) ∧
    after (exec (.rem (on 4) 3 1 2) (super 4 (g12 5 0))) (fun t => (getG (ctxOf t 4) 3, (ctxOf t 4).flg)) =
      some (5, BitVec.ofNat 32 flgDZ) := by decide +kernel

/-- R198: QADD of 0x7FFFFFFF and 1 saturates. -/
theorem test_qadd_saturates :
    after (exec (.qadd (on 4) 3 1 2) (super 4 (g12 0x7FFFFFFF 1))) (fun t => (getG (ctxOf t 4) 3, (ctxOf t 4).flg)) =
      some (0x7FFFFFFF, BitVec.ofNat 32 flgSAT) := by decide +kernel

/-- R165: g0 reads as zero and discards writes. -/
theorem test_g0_discards : after (exec (.addi (on 4) 0 1 5) (super 4 (g12 3 0))) (fun t => (getG (ctxOf t 4) 0, (ctxOf t 4).pc)) =
    some (0, 4) := by decide +kernel

/-- R203: the target of CALLR is read before g31 is written. -/
theorem test_callr_reads_first :
    after (exec (.callr (on 4) 31 0) (super 4 fun k => putG k 31 0x100)) (fun t => ((ctxOf t 4).pc, getG (ctxOf t 4) 31)) =
      some (0x100, 4) := by decide +kernel

/-- 1.0 + 2.0 = 3.0 in binary64. -/
theorem test_fadd : f64Add 0x3FF0000000000000 0x4000000000000000 = (0x4008000000000000, 0) := by decide +kernel

/-! ### Worked examples of the manual -/

/-- 08, the proportional term: 1.5 · 0.02 gives 32 212 254 with no flag, and 1.5 · 1.5 saturates with SAT. -/
theorem test_qmul_example :
    after (exec (.qmul (on 0) 5 3 4 24) (scanning (fun k => putG (putG k 3 21474836) 4 0x01800000) scan))
      (fun t => (getG (ctxOf t 0) 5, (ctxOf t 0).flg)) = some (32212254, 0) ∧
    after (exec (.qmul (on 0) 5 3 4 24) (scanning (fun k => putG (putG k 3 0x60000000) 4 0x01800000) scan))
      (fun t => (getG (ctxOf t 0) 5, (ctxOf t 0).flg)) = some (0x7FFFFFFF, BitVec.ofNat 32 flgSAT) := by decide +kernel

/-- 12, the CRC-32C of "123456789", and the digest of R289 over the same bytes. -/
theorem test_crc_example :
    let d : List Byte := [0x31, 0x32, 0x33, 0x34, 0x35, 0x36, 0x37, 0x38, 0x39]
    crc32c d = 0xE3069283 ∧ crcOf digestCrc d = 0x995DC9BBDF1939FA := by decide +kernel

/-- A loop descriptor with PV and SP from constants of E −16 and gains of one region. -/
def loopWords (pv sp span kp cr : Nat) : List Nat :=
  [0x00050100, 0x00040001, 0xF000FFFF, span, 0, 0x40000000, 0, 0, 0, 0x10, 0, 0, 0x10000000, pv, 0, 0x10000000, sp, 0] ++
  List.replicate 14 0 ++ [kp, cr, 0, 0] ++ List.replicate 28 0

/-- A loop in AUTO that tracks `r` with the integrator at `f`. -/
def loopAt (w : List Nat) (f r : Int) : Loop :=
  { words := w, mode := 1, pendDesc := none, pendMode := none, f := f * 2 ^ 32, d := 0, xiLast := 0, rLast := r, w := r,
    init := false, fresh := false, reselect := false, target := 0, gains := (regKp w 0, regCr w 0, 0),
    gFrom := (regKp w 0, regCr w 0, 0), b := 0, last := [], lostPv := false, lostSp := false, lostSched := false,
    resolved := false, stale := false }

/-- 05, a pump held by three limits: the candidates of loops 40, 41 and 42. -/
theorem test_pump_example :
    (evalLoop run (loopAt (loopWords (116 * 65536) (120 * 65536) 0x00C80000 0x01800000 0xD1B7) 730144441 762356695)).c = 762358306 ∧
    (evalLoop run (loopAt (loopWords (630 * 65536) (650 * 65536) 0x03E80000 0x02000000 0x000346DC) 762356695 762356695)).c =
      805306367 ∧
    (evalLoop run (loopAt (loopWords 2990080 (45 * 65536) 0x00320000 0x01000000 0x000346DC) 762356695 762356695)).c =
      748934922 := by decide +kernel

/-- A session record with telemetry of flow `q` and temperatures of 80 °C and 48 °C. -/
def telemetry (q : Int) : Session :=
  { Session.fresh with state := 2, never := false, age := 0, q := uNat 32 q, tf := 0x500000, tr := 0x300000 }

def meters : State :=
  { run with mtr := { run.mtr with
      therm := [(731, [0xA0000002, 0x8000, 1311, 0])], tables := [(1, List.replicate 441 0x4A000000)] } }

/-- 06, a substation whose flow reverses: 7 400 mWh and 200 mL forward, and 1 850 mWh and 50 mL in reverse. -/
theorem test_heat_example :
    let s := thermSample meters 731 (some (telemetry 0x20000))
    let u := thermSample meters 731 (some (telemetry (-0x8000)))
    mtrReg s (tKey 731 0) = 7400 * 2 ^ 32 ∧ mtrReg s (tKey 731 2) = 200 * 2 ^ 32 ∧ s.mtr.demT = [(731, 266400)] ∧
    mtrReg u (tKey 731 1) = 1850 * 2 ^ 32 ∧ mtrReg u (tKey 731 3) = 50 * 2 ^ 32 ∧ u.mtr.demT = [(731, -66600)] := by
  decide +kernel

/-- R364: 2100 is no leap year, and 2400 is one. -/
theorem test_leap_years : dateOk { Rtc.reset with year := 2100, month := 2, day := 29 } = false ∧
    dateOk { Rtc.reset with year := 2400, month := 2, day := 29 } = true ∧
    (nextSecond { Rtc.reset with year := 2099, month := 12, day := 31, hour := 23, min := 59, sec := 59, wday := 4 }) =
      { Rtc.reset with year := 2100, wday := 5 } := by decide +kernel

/-- R6: an access of one byte to control space ends in a bus error at its address. -/
theorem test_narrow_access : after (exec (.registerWrite 0xF0000010 1 1 false) up) (fun t =>
    (getF t F.SYS_STATUS_BUS_ERR, get64 t R.SYS_BUS_ERR_LO R.SYS_BUS_ERR_HI)) = some (1, 0xF0000010) := by decide +kernel

/-- An empty queue idles (log entry 1), and the state of reset is before release. -/
theorem test_reset : step State.reset = .next State.reset ∧ State.reset.boot.stage = 0 := ⟨rfl, rfl⟩

/-! ### Witnesses: Irtum -/

theorem witness_runs : Runs (on 4) (super 4 (g12 1 2)) ∧ Runs (on 0) (scanning (g12 1 2) scan) := by
  unfold Runs; decide +kernel

/-- FixedPointResults and IntegerDivision, a zero and a non-zero divisor. -/
theorem witness_divisors : Runs (on 4) (super 4 (g12 1 0)) ∧ getG (ctxOf (super 4 (g12 1 0)) 4) 2 = 0 ∧
    getG (ctxOf (super 4 (g12 1 2)) 4) 2 ≠ 0 := by unfold Runs; decide +kernel

/-- Binary64Results: a quiet and a signalling NaN, both zeros, the greatest negative number, and a number of each sign. -/
theorem witness_binary64 :
    let isNan (v : Dword) : Bool :=
      decide (v &&& 0x7FF0000000000000#64 = 0x7FF0000000000000#64) && decide (v &&& 0x000FFFFFFFFFFFFF#64 ≠ 0)
    let s (a b : Dword) : State := super 4 fun k => putD (putD k 0 a) 1 b
    let d (a b : Dword) : Dword × Dword := (getD (ctxOf (s a b) 4) 0, getD (ctxOf (s a b) 4) 1)
    d 0x7FF0000000000001 0x7FF8000000000000 = (0x7FF0000000000001, 0x7FF8000000000000) ∧ Runs (on 4) (s 0x7FF0000000000001 0) ∧
    isNan 0x7FF0000000000001 = true ∧ isNan 0x7FF8000000000000 = true ∧ isNan 0x7FF0000000000000 = false ∧
    (0x8000000000000000#64).toNat % 2 ^ 63 = 0 ∧ isNan 0x8000000000000001 = false ∧ 2 ^ 63 < (0x8000000000000001#64).toNat ∧
    isNan 0x3FF0000000000000 = false := by unfold Runs; decide +kernel

/-- Binary64Results: the flags and values of NaN operands and of a zero and a negative operand of FSQRT. -/
theorem test_binary64_nan : f64Add 0x7FF0000000000001 0x3FF0000000000000 = (0x7FF8000000000000, 4) ∧
    f64Mul 0x7FF8000000000000 0x3FF0000000000000 = (0x7FF8000000000000, 0) ∧
    f64Div 0x3FF0000000000000 0x7FF0000000000001 = (0x7FF8000000000000, 4) ∧ f64Sqrt 0x8000000000000000 = (0x8000000000000000, 0) ∧
    f64Sqrt 0xBFF0000000000000 = (0x7FF8000000000000, 4) := by decide +kernel

/-- JumpResults: targets at and off a multiple of 4. -/
theorem witness_jumps : (getG (ctxOf (super 4 (g12 8 2)) 4) 1 + (0 : BitVec 16).signExtend 64).toNat % 4 = 0 ∧
    (getG (ctxOf (super 4 (g12 8 2)) 4) 2 + (0 : BitVec 16).signExtend 64).toNat % 4 ≠ 0 := by decide +kernel

/-- A scan with g1 at the own page and g2 = 7. -/
def owning : State := scanning (g12 0x04000000 7) scan

/-- ScanLoads and LoadFrame: an aligned doubleword of the own page. -/
theorem witness_scan_loads : Runs (on 0) owning ∧ scanTask owning 0 = some 0 ∧ scanOf owning 0 = some scan ∧
    scanCheck owning 0 .load 0x04000000 8 = none ∧ scanCheck owning 0 .load 0x04000000 1 = none ∧
    scanCheck owning 0 .load 0x04000000 2 = none ∧ scanCheck owning 0 .load 0x04000000 4 = none ∧
    fetchExc owning 0 ((ctxOf owning 0).pc + 4) = none := by
  unfold Runs; decide +kernel

/-- SupervisorMemory: the first and the last aligned doubleword of DRAM. -/
theorem witness_dram : inDram up 4 0x100000000 8 ∧ inDram up 4 0x47FFFFFF8 8 ∧ inDram up 4 0x47FFFFFFF 1 ∧
    inDram up 4 0x47FFFFFFE 2 ∧ inDram up 4 0x47FFFFFFC 4 := by unfold inDram; decide +kernel

/-- ScanStores, AtomicResults, TimerResults and EdgeResults: the first and the last block of the own page. -/
theorem witness_own : ownBytes owning 0 0 scan 0x04000000 32 ∧ ownBytes owning 0 0 scan 0x04000FFF 1 ∧
    ownBytes owning 0 0 scan 0x04000FF8 8 ∧ ownBytes owning 0 0 scan 0x04000FFC 4 ∧ ownBytes owning 0 0 scan 0x04000FFE 2 := by
  unfold ownBytes; decide +kernel

/-- TimerResults: the cases of TOF, by IN, IN_LAST and Q. -/
theorem witness_timer_cases :
    let b (n : Nat) : TimerBlock := timerOf (memBytes (memPut [] 0x04000000 (leBytes 4 n)) 0x04000000 32)
    (b 2).inLast = true ∧ (b 1).inLast = false ∧ (b 1).q = true ∧ (b 0).inLast = false ∧ (b 0).q = false := by decide +kernel

/-- AtomicResults: an old value above and below the operand. -/
theorem witness_atomic_order : (BitVec.ofNat 32 0xFFFFFFFF).toInt < (BitVec.ofNat 32 0).toInt ∧
    ¬ (BitVec.ofNat 32 0).toInt < (BitVec.ofNat 32 0).toInt := by decide +kernel

/-- SupervisorInstructions: supervisor mode on a system core with no line and with one; VBASE and SSTAT at the edges of
their ranges. -/
theorem witness_supervisor : Runs (on 4) up ∧ isSup up 4 = true ∧ up.irqs = [] ∧ (raiseIrq up 56).irqs ≠ [] ∧
    Runs (on 4) (raiseIrq up 56) ∧ 0x1000 % 4096 = 0 ∧ 0x1001 % 4096 ≠ 0 ∧ (1 : Nat) % 2 ^ 32 < 2 := by
  unfold Runs; decide +kernel

/-- ExceptionEntry: no scan runs; a word that is no instruction; a pending line. -/
theorem witness_exceptions : Runs (on 4) up ∧ (coreOf up 4).running = none ∧
    wordDefined (isSup up 4) true 0 = false ∧ wordDefined true true 0xFFFFFFFF = false ∧
    (raiseIrq up 56).runtimeUp = true ∧ (coreOf (raiseIrq up 56) 5).running = none ∧ 56 ∈ (raiseIrq up 56).irqs := by
  unfold Runs; decide +kernel

/-- A scan whose frozen forces set tag 7, and output channel 3. -/
def forced : Scan :=
  { scan with frozenForces := [(0, { enable := true, kind := 0, target := 7, value := 9 })] }

/-- TagResults: an input tag with and without a force, and an output tag that the task owns. -/
theorem witness_tags :
    let s := scanning (g12 7 8) forced
    Runs (on 0) s ∧ scanTask s 0 = some 0 ∧ scanOf s 0 = some forced ∧ tagOf s 7 = some tagIn ∧ tagOf s 8 = some tagOut ∧
    forceOn forced.frozenForces 0 7 = some { enable := true, kind := 0, target := 7, value := 9 } ∧
    forceOn forced.frozenForces 0 8 = none ∧ tagOut.owner = 0 ∧ tagOut.off % tagSize tagOut.typ = 0 ∧
    (∀ j < 4, tagAt s true (tagOut.off + j) = some tagOut) ∧ s.prog = some prog ∧
    fetchExc s 0 ((ctxOf s 0).pc + 4) = none := by
  unfold Runs; decide +kernel

/-- EngineCallCaptured: a body at the ends of the submit area, and one beyond it. -/
theorem witness_ecall :
    let s := scanning (g12 0x7FF8 8) scan
    Runs (on 0) s ∧ scanTask s 0 = some 0 ∧ scanOf s 0 = some scan ∧ ecallDefined 2 2 = true ∧ 0x7FF8 % 8 = 0 ∧
    0x7FF8 + 8 ≤ 0x8000 ∧ ecallLenOk 2 2 8 (memLe s.mbox (winMbox + 0x7FF8) 4 / 65536) = true ∧ scan.calls.length < 32 ∧
    ¬ 0x7FFC + 8 ≤ 0x8000 ∧ fetchExc s 0 ((ctxOf s 0).pc + 4) = none := by
  unfold Runs; decide +kernel

/-- A committed state of one node and one branch. -/
def netState : NetState :=
  { jobTag := 0, refuse := 0, outcome := 0, flags := 0, nodesUnmapped := 0, nodesMapped := 0, pivotCount := 0,
    branchesUnmapped := 0, cgDone := 0, newtonDone := 0, pivotLast := 0, pivotFirst := 0, resLaw := 0, resMass := 0, cycle := 3,
    ht := 0, hs := 5, elapsed := 0, nodes := [{ p := 1, t := 2, flags := 0, imbal := 3 }],
    branches := [{ q := 4, tOut := 5, dp := 6, flags := 0 }] }

/-- EngineReads: a view with a model, a state and a table; one without; and the bound of EXP. -/
theorem witness_ereads :
    let v : EngineView := { view with
      state := some netState, dec := some { index := 1, values := [2] }, hasModel := true,
      nodeIds := [9], branchIds := [8], exps := [-20] }
    v.hasModel = true ∧ v.state = some netState ∧ netState.nodes[0]? = some { p := 1, t := 2, flags := 0, imbal := 3 } ∧
    netState.branches[0]? = some { q := 4, tOut := 5, dp := 6, flags := 0 } ∧ v.nodeIds.findIdx? (· = 9 % 2 ^ 32) = some 0 ∧
    v.branchIds.findIdx? (· = 8 % 2 ^ 32) = some 0 ∧ v.dec = some { index := 1, values := [2] } ∧ view.state = none ∧
    view.hasModel = false := by decide +kernel

/-- CheckpointSaved and ScanEndCommits run in a scan; RerollRestores at a residue fault. -/
theorem witness_reroll : live owning 0 = true ∧ (Issue.mk 0 (.residue .addressGen)).fault = .residue .addressGen ∧ scan.faulted = none ∧
    Runs (on 0) owning ∧ fetchExc owning 0 ((ctxOf owning 0).pc + 4) = none := by unfold Runs; decide +kernel

/-- UndoGivesBack: a store to the last bytes of a line that no checkpoint has logged. -/
theorem witness_undo : (∃ u, storeLogged owning 0 scan 0x04000038 (leBytes 8 5) = .ok u) ∧ 0x04000038 % 64 + 8 ≤ 64 ∧
    (scan.undo.take (scan.undo.length - scan.ckpt.undoMark)).any (fun e => e.line = lineOf 0x04000038) = false := by
  refine ⟨?_, by decide, by decide⟩
  obtain ⟨u, h, _⟩ | h := storeLogged_cases owning 0 scan 0x04000038 (leBytes 8 5)
  · exact ⟨u, h⟩
  · exact absurd h (by unfold storeLogged; simp [scan, logLimit])

/-- RegisterFrame and FlagFrame: an instruction that goes on. -/
theorem witness_frames : after (exec (.add (on 4) 3 1 2) (super 4 (g12 1 2))) (fun t => getG (ctxOf t 4) 3) = some 3 ∧
    fetchExc (super 4 (g12 1 2)) 4 ((ctxOf (super 4 (g12 1 2)) 4).pc + 4) = none := by decide +kernel

/-! ### Witnesses: control registers and the tick -/

/-- DiscardedWrites: an offset with no register, and a reserved bit. -/
theorem witness_discarded : ctlBusErr up false 0xF0000FFC 4 = false ∧ regDefAt 0xF0000FFC = none ∧
    ctlBusErr up false R.NSA_CTRL 4 = false ∧
    ∃ r, regDefAt R.NSA_CTRL = some r ∧ ∃ j < 32, (0x80000000#32).getLsbD j = true ∧ ∀ f ∈ r.fields, j < f.lo ∨ f.hi < j :=
  ⟨by decide +kernel, by decide +kernel, by decide +kernel, _, rfl, 31, by decide, by decide, by decide +kernel⟩

/-- LockedWrites: a register with an RWL field, its block locked, and the CTRL with a lock. -/
theorem witness_locked :
    let s := setReg up R.RED_CTRL 0x100
    ctlBusErr s false R.RED_CFG 4 = false ∧ (∃ r, regDefAt R.RED_CFG = some r ∧ ∃ f ∈ r.fields, f.kind = .rwl) ∧
    lockAddr R.RED_CFG = R.RED_CTRL ∧ (∃ l, regDefAt R.RED_CTRL = some l ∧ ∃ f ∈ l.fields, f.kind = .w1s ∧ f.lo = 8) ∧
    (getReg s R.RED_CTRL).getLsbD 8 = true ∧ ctrlOf 8 0 = R.RED_CTRL :=
  ⟨by decide +kernel, ⟨_, rfl, by decide +kernel⟩, by decide +kernel, ⟨_, rfl, by decide +kernel⟩, by decide +kernel,
    by decide +kernel⟩

/-- FieldTypes: a write of ones to the sticky bits of PWR_EVENTS. -/
theorem witness_field_types : ctlBusErr up false R.PWR_EVENTS 4 = false ∧ blockOf R.PWR_EVENTS ∈ [0x02, 0x03, 0x04, 0x11, 0x13] ∧
    offOf R.PWR_EVENTS ≠ 0 ∧ ∃ r, regDefAt R.PWR_EVENTS = some r ∧ writeBarred up R.PWR_EVENTS r 1 = false :=
  ⟨by decide +kernel, by decide +kernel, by decide +kernel, _, rfl, by decide +kernel⟩

/-- PairLatch: a pair of registers. -/
theorem witness_pair : ctlBusErr up false R.NSA_CYCLE_LO 4 = false ∧ ctlBusErr up false R.NSA_CYCLE_HI 4 = false ∧
    hiOfLo R.NSA_CYCLE_LO = some R.NSA_CYCLE_HI ∧ hiOfLo R.NSA_CYCLE_HI = none := by decide +kernel

/-- ClearCommands: the counters of CAN channel 3, and a loop. -/
theorem witness_clear : ctlBusErr (setReg up R.CLK_GATE_PERI 0xFFFFFFFF) false (ctrlOf 0x0D 3) 4 = false ∧
    (∃ r, regDefAt (ctrlOf 0x0D 3) = some r ∧ ∃ f ∈ r.fields, f.kind = .wo ∧ f.lo = 2) ∧
    (F.CAN_CNT_ERR_COUNT, 4) ∈ (F.CLK_CNT_FALLBACK_COUNT, 1) :: (F.PWR_CNT_DIP_COUNT, 1) :: counterFields ∧
    blockOf F.CAN_CNT_ERR_COUNT.addr = 0x0D :=
  ⟨by decide +kernel, ⟨_, rfl, by decide +kernel⟩, by decide +kernel, by decide +kernel⟩

/-- `run` at a time of TB1 in ns, with its tick carried out or not. -/
def at1 (ns : Nat) (done : Bool) (s : State) : State :=
  { s with tim := { s.tim with tb0 := ns * tbUnit, tb1 := ns * tbUnit, tick := if done then ns / 250000 else 0 } }

/-- TickCarriedOut. -/
theorem witness_tick :
    let s := at1 250000 false run
    s.boot.stage ≠ 0 ∧ s.red.taking = false ∧ tickDone s = false ∧ isPair s = false ∧ linkUp s = false ∧ isFatal s = false ∧
    executes s = true ∧ s.runState = true ∧ roleOf s = roSINGLE ∧ atExchange s = false ∧ dueTasks s = [] ∧ atCycle s = false ∧ flag s F.CLK_GATE_ENG_LPE = true ∧
    flag s F.PWR_STATUS_WARN = false := by
  decide +kernel

/-- LoopOutputInRange: limits that admit one value. -/
theorem witness_loop_range : lpOutMin (loopWords 0 0 1 1 1) ≤ lpOutMax (loopWords 0 0 1 1 1) := by decide +kernel

/-- FieldCaptured: a tick without a capture, supplies at the edges, and a level that differs. -/
theorem witness_capture :
    let s := at1 250000 false up
    s.boot.stage ≠ 0 ∧ tickDone s = false ∧ s.fio.capTick ≠ tickNow s + 1 ∧ s.fio.filt.testBit 31 ≠ true := by decide +kernel

/-- OutputProtection: a channel that is on; one that is off for 100 ms. -/
theorem witness_protection :
    let s := setF (setF run F.FIO_DO_VALUE 0x8001) F.FIO_STATUS_DRIVE drLIVE
    let t := at1 100000000 true { run with fio := { run.fio with chOff := [(15, 100000000)], grpOff := [(1, 100000000)] } }
    switchOn s 15 = true ∧ switchOn s 0 = true ∧ alGet? t.fio.chOff 15 = some 100000000 ∧ 100000000 ≤ tb0Ns t ∧
    alGet? t.fio.grpOff 1 = some 100000000 := by decide +kernel

/-- SafeAndAnalogue: FIO_SAFE takes a write; a conversion just beyond 1.9 · full scale. -/
theorem witness_safe : Takes up R.FIO_SAFE 0xFFFF ∧
    gateOff (setReg up R.CLK_GATE_PERI 0xFFFFFFFF) R.FIO_AFE_OVR = false ∧ 19 * 2 ^ 30 < 10 * (2040109466 : Int).natAbs :=
  ⟨⟨_, rfl, by decide +kernel⟩, by decide +kernel, by decide⟩

/-! ### Witnesses: metering -/

/-- Electric channel 33 enabled at the start of line cycle 0, 2 ms on. -/
def lines : State :=
  at1 2000000 true { setReg run R.CLK_GATE_PERI 0xFFFFFFFF with
    mtr := { run.mtr with elec := [(33, [0x80000000, 0, 0, 0]), (0, [0x80000000, 0, 0, 0])], subs := [(31, 0x40000001)],
                          latch := some (30, false) } }

/-- MeterSamples: a missing sample due, a frame of a subscribed stream. -/
theorem witness_samples : metersOwn lines = true ∧ elecOn lines 33 = true ∧ elecOn lines 0 = true ∧
    80 * (chanOf lines 33).next ≤ 0 ∧ alGet? (chanOf lines 33).samples 0 = none ∧
    alGet? (chanOf lines 33).samples (80 * (chanOf lines 33).next + 79) = none ∧
    sampleAge lines 0 2000000 (nowNs lines) = true ∧ gateOff lines R.FIO_AFE_OVR = false ∧
    streamSilent { lines with tim := { lines.tim with tb1 := 80000000 * tbUnit } } 31 = true ∧ svSlots lines 0x4000 1 = [31] ∧ svIndex lines 0 0 = 0 ∧ sampleAge lines 0 2000000 0 = false ∧
    (alGet? lines.mtr.subs 31).getD 0 ≠ 0 := by decide +kernel

/-- MeterLatch: a latch instant, a latch whose line cycles are closed, an archived slot, a read and the end of a pulse. -/
theorem witness_latch :
    let s := at1 600000000 true { run with
      mtr := { run.mtr with latch := some (30, false), slots := [(1, [1, 2])], poff := [(7, 0)] },
      nsa := { run.nsa with instant := some 6 } }
    latchNow s = some 1 ∧ s.runState = true ∧ executes s = true ∧ s.mtr.since < nowNs s ∧ s.nsa.instant = some (nowNs s / netNs s) ∧ s.mtr.latching = none ∧
    roleOf s ≠ roSTANDBY ∧ linesClosed s 1 = true ∧ flag s F.PWR_STATUS_FROZEN = false ∧
    flag (setF s F.PWR_STATUS_FROZEN 1) F.PWR_STATUS_FROZEN = true ∧
    getFi (setFi s F.MTR_PULSE_STAT_ACTIVE 7 1) F.MTR_PULSE_STAT_ACTIVE 7 = 1 ∧ (alGet? s.mtr.poff 7).getD 0 ≤ nowNs s := by
  decide +kernel

/-- MeterLatch: MTR_RD_SEL takes the selections at the ends of their ranges. -/
theorem witness_meter_read : Takes run R.MTR_RD_SEL 0x00210007 ∧ Takes run R.MTR_RD_SEL 0x4FFF0003 ∧
    Takes run R.MTR_RD_SEL 0x00220000 :=
  ⟨⟨_, rfl, by decide +kernel⟩, ⟨_, rfl, by decide +kernel⟩, ⟨_, rfl, by decide +kernel⟩⟩

/-! ### Witnesses: the network cycle, tasks and engine calls -/

def snap (k : Nat) : Snapshot :=
  { cycle := k, hs := 5, time := 0, subQ := [], subT := [], subDef := [], speed := [], pos := [], plantQ := [], plantT := [],
    storeQ := [], storeCold := [], storeHot := [], storeSoc := [], nodeP := [] }

/-- A model of one node and one substation. -/
def model : Model :=
  { serial := 1, rho := 972, cp := 1, hs := 5, exps := List.replicate 16 (-20),
    nodes := [{ id := 9, kind := 0, side := false, fixed := true, pFixed := 1, pMin := 0, pMax := 2, pInit := 1, tInit := 0,
                pTagValid := false, pTag := 0 }],
    branches := [], pumps := [], valves := [], stores := [], plants := [],
    subs := [{ id := 77, hasSession := true, session := 4095, ret := 0, sup := 0, branch := 0, qDefault := 0, tRetDefault := 0,
               dpMin := 0, staleCycles := 0 }] }

def job (kind : Nat) (d : List Nat) : Job :=
  { kind := kind, desc := d, start := 0, stop := none, thermSkip := false, thermDone := 0, abandoned := [], retried := false, snap := snap 0,
    inServ := [], isolated := [], ht := 0, cycle := 0, ticket := 1, task := 15, base := { p := [], t := [], q := [], tOut := [], byId := none, sat := false },
    plugs := [], vector := [], model := some model, mask := 0xFF, sat := false }

/-- A descriptor of kind `k`: 16 Newton steps, 1 000 CG iterations, reuse off, budget 1. -/
def desc (k : Nat) : List Nat := [k, 16 + 1000 * 65536, 1000, 0, 1, 0, 1, 1, 0, 0, 0, 0, 0, 0, 0, if k = 4 then 0x13E80000 else 0]

def act : Activation := { slot := 1, at_ := 1, prepared := true, confirmed := false, deferrals := 0, model := model }

/-- NetworkCycle: the instant of cycle 1, with an activation that is due. -/
theorem witness_cycle :
    let s := at1 100000000 false { run with nsa := { run.nsa with activation := some act, cycleOpen := some 0, open_ := some (snap 0) } }
    tickDone s = false ∧ s.runState = true ∧ executes s = true ∧ atCycle s = true ∧ atExchange s = false ∧ dueTasks s = [] ∧
    s.nsa.activation = some act ∧ act.prepared = true ∧ act.at_ ≤ cycleNow s ∧ needsPeer s = false ∧
    roleOf s ≠ roSTANDBY ∧ s.nsa.cycleOpen.isSome = true ∧ run.nsa.activation = none := by decide +kernel

/-- NetworkCycle: jobs that end, and a committed state that waits for its tick. -/
theorem witness_jobs :
    let s := at1 100000000 true { run with
      nsa := { run.nsa with model := some model, ply := some (job 2 (desc 2)), hyd := some (job 3 (desc 0)),
                            cycleDesc := some (desc 0), committed := some netState } }
    s.boot.stage ≠ 0 ∧ tickDone s = true ∧ switchWaits s = true ∧ s.red.forcesAt = [] ∧ s.nsa.open_ = none ∧ s.nsa.plyDone = none ∧
    s.nsa.plyReason = none ∧ (job 3 (desc 0)).kind = 3 := by decide +kernel

/-- NetworkCycle, SolverJobs, DispatchCycle: jobs that have clusters. -/
theorem witness_lanes :
    let s := setReg run R.CLK_GATE_ENG 0x1FF
    let hyd := { s with nsa := { s.nsa with model := some model, hyd := some (job 3 (desc 0)) } }
    let ply := { s with nsa := { s.nsa with model := some model, ply := some { job 2 (desc 2) with mask := 0x0F } } }
    let dj := { job 5 (desc 5) with mask := 0x0F }
    let rest := { s with nsa := { s.nsa with studies := [job 1 (desc 1)] },
                         dpo := { s.dpo with job := some dj, jobFcst := none } }
    waits hyd .hyd (job 3 (desc 0)) = false ∧ waits ply .ply { job 2 (desc 2) with mask := 0x0F } = false ∧ (laneMask ply .ply).testBit 3 = true ∧
    (laneMask ply .ply).testBit 4 = false ∧ waits rest .study (job 1 (desc 1)) = false ∧
    waits rest .dpo dj = false ∧ (readReg rest R.NSA_CLUSTER).1 = 0xFF00 := by decide +kernel

/-- A ply that was carried out under the state `netState`. -/
def ply : PlyRec :=
  { result := netState, blocked := [], plugs := [], factor := none, snap := snap 0, thermRan := true, desc := desc 2 }

/-- NetworkCycle: a check that passes. -/
theorem witness_check_passes :
    let s := { run with nsa := { run.nsa with model := some model, plyDone := some ply } }
    (checkReason s model (job 3 (desc 0)) false).1 = 0 := by decide +kernel

/-- SolverJobs: a deadline at the ends of its ranges, a factorisation under a budget, a study, a validation. -/
theorem witness_solver : roleOf run ≠ roSTANDBY ∧ (job 0 (desc 0)).stop = none ∧ 15 < dNewton (desc 0) ∧ 1000 ≤ dCg (desc 0) ∧
    (job 0 (desc 0)).thermSkip = false ∧ 0 < bitsOf 31 28 (dw (desc 4) 15) ∧ 1000 ≤ bitsOf 25 16 (dw (desc 4) 15) ∧
    factorsIn (job 0 (desc 0)) 16 = true ∧ (∃ f, validateModel [] (modelSlotBase 1) 64 true = some f) := by
  refine ⟨by decide +kernel, by decide, by decide, by decide, by decide, by decide, by decide, by decide +kernel, ?_⟩
  exact Option.isSome_iff_exists.mp (by decide +kernel)

def forecast : Forecast :=
  { serial := 1, t0 := 0, nPts := 2, eFlow := 0, eTemp := 0, eHeat := 0, eCost := 0, hs := 5, flows := [], temps := [],
    heats := [], prices := [], elec := [], nSubs := 1, nPrice := 0 }

/-- DispatchCycle: an instant with a table, one without, and a job that ends or stops. -/
theorem witness_dispatch :
    let s := at1 1000000000 true { run with
      nsa := { run.nsa with instant := some 10, committed := some { netState with cycle := 10 }, model := some model, snap := some (snap 10) },
      dpo := { run.dpo with next := some { index := 0, values := [] }, nextModel := some model, ended := some (0, 0),
                            forecast := some forecast, job := some (job 5 (desc 5)), jobFcst := some forecast } }
    s.runState = true ∧ executes s = true ∧ nowNs s % dispNs s = 0 ∧ s.nsa.instant = some (cycleNow s) ∧
    s.dpo.instant ≠ some (nowNs s / dispNs s) ∧ s.dpo.due = none ∧ s.dpo.plan = none ∧
    s.dpo.ended = some (nowNs s / dispNs s - 1, 0) ∧ s.dpo.nextModel = s.nsa.model ∧ validForecast s = some forecast ∧
    s.dpo.dpoOff = false ∧ { netState with cycle := 10 }.cycle = 1000000000 / netNs s := by decide +kernel

/-- TaskPeriods: a task that is due, and the core that its watchdog stops. -/
theorem witness_task :
    let s := at1 1000000 false { run with prog := some prog }
    tickDone s = false ∧ executes s = true ∧ roleOf s ≠ roSTANDBY ∧ atExchange s = false ∧ dueTasks s = [task0] ∧
    scanOf s 0 = none ∧ halted s 0 = false ∧ (∃ c, healthyCore s 0 = some c) ∧ (taskOf s (taskIx 0)).pendCalls = [] ∧
    scanTask owning 0 = some 0 ∧ scan.faulted = none ∧ reachTick s = s ∧ s.runState = true ∧
    ((dueTasks s).map (·.task)).Nodup ∧ (∀ r ∈ dueTasks s, r.task < 16) ∧ dueTasks (reachTick run) = [] := by
  refine ⟨by decide +kernel, by decide +kernel, by decide +kernel, by decide +kernel, by decide +kernel, by decide +kernel,
    by decide +kernel, ⟨0, by decide +kernel⟩, by decide +kernel, by decide +kernel, by decide, by decide +kernel, by decide +kernel,
    by decide +kernel, by decide +kernel, by decide +kernel⟩

/-- ForceCommands: entries that a SET and a CLEAR take, and ones that they do not. -/
theorem witness_forces :
    let s := at1 250000 true { setF (setF run F.SCN_FORCE_ENT_ENABLE 1) F.SCN_FORCE_ENT_TARGET 7 with prog := some prog }
    let t := { s with forces := [(0, { enable := true, kind := 0, target := 7, value := 0 })] }
    flag s F.SCN_FORCE_RES_BUSY = false ∧ forceCode s 0 (regForce s) false = 0 ∧
    forceCode { s with prog := none } 0 (regForce s) false ≠ 0 ∧ (forceEntry t 0).enable = true ∧
    (forceEntry s 0).enable = false ∧ t.boot.stage ≠ 0 ∧ tickDone t = true ∧ switchWaits t = true ∧ t.red.forcesAt = [] := by decide +kernel

/-- ProgramExchange: the instant X, and the limit of the standby's answer. -/
theorem witness_exchange :
    let x : Exchange := { slot := 1, prog := prog, accepted := 0, confirmed := false, at_ := some 5000000000 }
    let s := at1 5000000000 false { run with prog := some prog, exch := some x }
    tickDone s = false ∧ executes s = true ∧ atExchange s = true ∧ x.confirmed = false ∧ x.accepted + 50 * netNs s ≤ nowNs s := by
  decide +kernel

/-- EngineCallsAccepted: bodies that are taken, and ones that are refused. -/
theorem witness_calls :
    let d := desc 1
    let loop := loopWords 0 0 1 1 1
    descRefuse run (desc 0) [0, 2, 5] = 0 ∧ descRefuse run d [0, 2, 5] ≠ 0 ∧ descRefuse run d [1] = 0 ∧
    maskRangeOk 32736 32 1 = true ∧ loopRefuse run 511 1 loop ≠ 0 ∧ groupRefuse run 63 0 [0xFFFF, 0, 0, 0] = 0 ∧
    modeRefuse { run with lpe := { run.lpe with loops := [(511, loopAt loop 0 0)] } } 511 2 = 0 ∧
    mtrRefuse run 0 0 0 [30, 0] = 0 := by decide +kernel

/-- A loop from tag 7 to tag 8, a tag of no task. -/
def tagLoop : List Nat :=
  [0x00FF0100, 0x00040003, 0xF0000008, 1, 0, 1, 0, 0, 0, 0x10, 0, 0, 0x20000007, 0, 0, 0x10000000, 0, 0] ++
    List.replicate 14 0 ++ [1, 0, 0, 0] ++ List.replicate 28 0

def tagRun : State := { run with prog := some { prog with tags := [{ tagIn with typ := 9 }, { tagOut with typ := 9, owner := 0xFE }] } }

/-- EngineCallsAccepted: a loop from a tag to a tag that is taken. -/
theorem witness_loop_taken : loopRefuse tagRun 511 0 tagLoop = 0 := by
  unfold loopRefuse
  simp only
  rw [if_neg (by decide), if_neg (by decide +kernel), if_neg (by decide +kernel), if_neg ?_, if_neg (by decide +kernel),
    if_neg (by decide +kernel), if_neg (by decide +kernel), if_neg (by decide +kernel), if_neg (by decide +kernel)]
  rw [Nat.not_lt]
  refine Nat.le_trans ?_ (by decide +kernel : 1 ≤ getF tagRun F.LPE_CFG_MAX_LOAD)
  unfold peakWith
  rw [if_neg (by decide), show loadsBut tagRun 511 = [] by decide +kernel]
  exact peakLoad_le _

/-- EngineCallsAccepted: a check unit that programs may use, a session to send to. -/
theorem witness_units :
    let s := setFi (setFi run F.CHK_CFG_WIDTH 7 32) F.CHK_CFG_PROG 7 1
    let t := { run with ses := { run.ses with live := [(4095, telemetry 0)] } }
    chkWidthOk s 7 = true ∧ getFi s F.CHK_CFG_PROG 7 = 1 ∧ isPair s = false ∧ (sesOf t 4095).state = ssADMITTED ∧
    holds t = true ∧ t.ses.txq.length < 256 := by decide +kernel

/-! ### Witnesses: the pair -/

/-- A member of a pair at position `p` in role `r`, its link up with Furov key and keeper. -/
def pairAt (p r : Nat) : State :=
  setF (setF (setF { run with red := { run.red with keeperOk := true }, boot := { run.boot with ports := [0, 2, 3, 4, 5] },
                              sec := { run.sec with keys := [(0, { key := [1], attr := 1 <<< atFUROV, gen := 0 })] } }
    F.RED_STATUS_POSITION p) F.RED_STATUS_ROLE r) F.RED_STATUS_LINK_UP 1

def noToken (s : State) : State := setF s F.RED_STATUS_TOKEN_OUT 0

/-- TokenAndKeeper: the line both ways, a standby's take, contention, and the keeper's keys. -/
theorem witness_token :
    let s := pairAt 1 roACTIVE
    let t := at1 250000 true (noToken { pairAt 2 roSTANDBY with red := { (pairAt 2 roSTANDBY).red with fall := some 0 } })
    tokenIn (setF s F.RED_STATUS_TOKEN_IN 1) = true ∧ tokenIn s = false ∧ isPair s = true ∧ isPair run = false ∧
    driveOf (setF s F.FIO_STATUS_DRIVE drLATCHED) = drLATCHED ∧ t.boot.stage ≠ 0 ∧ tickDone t = true ∧
    takeAllowed (toTick t) = true ∧ holds s = true ∧ position s = 1 ∧ position t = 2 ∧
    flag s F.RED_STATUS_KEEPER_TRIPPED = false ∧ s.red.restartDue = none ∧ s.red.taking = false ∧ roleOf s ≠ roSTANDBY := by
  decide +kernel

/-- TokenAndKeeper and PairCommands: a take out of a stalemate. -/
theorem witness_cold_take :
    let s := at1 100000000000 true (setF { noToken (pairAt 1 roUNSYNCED) with
      red := { (pairAt 1 roUNSYNCED).red with fall := some 0 } } F.RED_CFG_COLD_TAKE 1)
    flag s F.RED_CFG_COLD_TAKE = true ∧ mayColdTake (reachTick s) = true ∧ mayColdTake (reachTick run) = false := by decide +kernel

/-- PairCommands: the roles that RED_CMD acts on, and the arbitration point. -/
theorem witness_pair_commands :
    let s := setF (pairAt 1 roACTIVE) F.RED_HEALTH_PEER_ELIGIBLE 1
    let t := setF (pairAt 2 roUNSYNCED) F.RED_STATUS_PEER_ROLE roSOLO
    let u := { setF (setF run F.RED_STATUS_ROLE roINIT) F.EVR_STATUS_RESTORING 0 with boot := { run.boot with stage := 3 } }
    (holds s = true ∧ peerEligible s = true) ∧ ¬ (holds run = true ∧ peerEligible run = true) ∧
    (roleOf t = roUNSYNCED ∧ linkUp t = true ∧ peerActive t = true) ∧ roleOf (setF run F.RED_STATUS_ROLE roLOCKED_OUT) = roLOCKED_OUT ∧
    roleOf run ≠ roLOCKED_OUT ∧ mayArbitrate u = true ∧ u.red.lockedOut = false ∧ isPair u = false ∧ isFatal u = false ∧
    tickDone (at1 100000000 false run) = false ∧ nowNs (at1 100000000 false run) % netNs run = 0 := by decide +kernel

/-- FurovFrames: a frame that passes on a link that is up, a lane lost, a frame sent three times. -/
theorem witness_furov :
    let s := pairAt 1 roACTIVE
    linkUp s = true ∧ (FurovHdr.mk true 0x80000000 1 none).epoch.toNat = peerEpoch s ∧ (1 : Nat) = s.red.rxSeq + 1 ∧ isPair s = true ∧
    { s with red := { s.red with furovKey := some [1] } }.red.furovKey ≠ none ∧ (3 : Fin 4).val ≠ position s ∧
    (getF (setF s F.RED_LINK_LOCK 3) F.RED_LINK_LOCK).testBit 1 = true ∧ roleOf (pairAt 2 roSTANDBY) = roSTANDBY ∧
    maskRangeOk 32736 32 1 = true ∧ flag s F.TIM_STATUS_PEER_VALID = false := by decide +kernel

/-! ### Witnesses: sessions, the host channel, authority and time -/

/-- A module in service that runs `model`, with the key of QSP in slot 0. -/
def serving : State :=
  at1 10000000000 true { run with
    sec := { run.sec with keys := [(0, { key := [1], attr := 1 <<< atSES, gen := 0 })], fuses := [(0, 0xFFFF)] },
    nsa := { run.nsa with model := some model },
    ses := { run.ses with live := [(4095, { Session.fresh with state := 2, epoch := 3, key := [1] })] },
    net := { run.net with svcV4 := 0x0A000001, modV4 := 0x0A000002 } }

/-- A datagram of session 4095 on port 1, to the service address. -/
def qsp (len seq : Nat) : QspHdr :=
  { src := ⟨1, 0, .v4 0x0A000009, 4000, .v4 0x0A000001⟩, ver := 1, len := len, size := 36 + len, sub := 77, epoch := 3,
    seq := BitVec.ofNat 64 seq, rx := 9000000000, tagOk := true }

/-- SessionsAndChecks: a join above the highest epoch, a datagram of an admitted session, a timeout, a busy unit. -/
theorem witness_sessions :
    let p := { serving with ses := { serving.ses with live := [(4095, { Session.fresh with state := 1 })],
                                                      txq := [(4095, 77, 3, 1, [])] } }
    sesServes serving = true ∧ joinEngines serving = true ∧ keyOf serving (getF serving F.SES_CFG_KEY_SLOT) atSES = some [1] ∧
    sesOfSub serving 77 = some 4095 ∧ topEpoch serving 77 < 4 ∧ sesHears serving (qsp 32 5) = true ∧
    sesAdmits serving (qsp 32 5) = some 4095 ∧ sesAdmits serving (qsp 0 5) = some 4095 ∧
    seqReplay (sesOf serving 4095) 1 = false ∧ seqReplay (sesOf serving 4095) 0 = true ∧ (sesOf p 4095).state = ssPENDING ∧
    (sesOf p 4095).lastJoin + 10000000000 ≤ nowNs p ∧ (p.ses.txq.find? fun e => sentOf p e.1 < 16) = some (4095, 77, 3, 1, []) ∧
    flag p F.CLK_GATE_ENG_CHK = true ∧ sesAdmits p (qsp 32 5) = none ∧ chkBusy p 7 = false ∧ chkBusy (setFi p F.CHK_STAT_BUSY 7 1) 7 = true ∧ dmaOk 0x100000000 1 = true ∧
    getFi p F.CHK_CFG_PROG 7 = 0 ∧ chkWidthOk (setFi p F.CHK_CFG_WIDTH 7 64) 7 = true := by decide +kernel

/-- SessionsAndChecks: SES_SEL takes the last session. -/
theorem witness_ses_sel : Takes run R.SES_SEL 0x1FFF := ⟨_, rfl, by decide +kernel⟩

/-- A request from PCIe. -/
def req : HostReq := { via := none, reqId := 5, secured := true }

/-- A module whose mailbox works. -/
def hosted : State := { serving with qhc := { serving.qhc with lost := false, pcieUp := true } }

/-- HostRequests and AuthorityMessages: a request from PCIe is heard, whatever it asks for. -/
theorem witness_heard (typ : Nat) (p : List Byte) : Heard hosted req typ p :=
  ⟨by decide +kernel, by decide, by simp [hosted, serving, at1, run, up, setF, setFi, setReg, State.reset, Qhc.reset], .inl rfl,
    fun _ => ⟨by decide +kernel, by decide⟩⟩

/-- HostRequests: payloads at the ends of their ranges. -/
theorem witness_requests :
    let w : List Byte := [0, 1, 0, 0, 0, 0, 0, 0]
    reqHead w = true ∧ slotInUse hosted 0 1 = false ∧ flag hosted F.PWR_STATUS_FROZEN = false ∧ lifecycle hosted = 2 ∧
    slotInUse hosted ikPROGRAM 1 = false ∧ settingOk 1 [1, 0, 0, 0] = true ∧ imgState hosted ikMODEL = true := by decide +kernel

/-- HostRequests: the fields of payloads, and a datagram of one fragment. -/
theorem witness_payloads :
    pn [1, 0, 0xFF, 0x0F] 2 2 = 4095 ∧ maskRangeOk 32736 32 1 = true ∧
    (∃ b, qhcGood ([1, 1, 2, 0, 5, 0, 0, 0, 0, 0, 0, 0, 0, 0, 0, 0, 0, 0, 0, 0] ++ b) = true ∧ b.length = 4) ∧
    slotState (setF hosted (slotField 1) slVALID) 1 = slVALID :=
  ⟨by decide, by decide, ⟨leBytes 4 (crc32c [1, 1, 2, 0, 5, 0, 0, 0, 0, 0, 0, 0, 0, 0, 0, 0, 0, 0, 0, 0, 0, 0, 0, 0]), by decide +kernel,
    by decide +kernel⟩, by decide +kernel⟩

/-- AuthorityMessages: a message that fails a check, one being carried out, and a burn. -/
theorem witness_authority :
    let x : AuthMsg := { typ := amPROTECT, counter := 1, image := [], toB := true, burns := [(1, 2)], owner := none, commit := 0,
                         sender := 0, reqId := 5, written := false }
    let s := { hosted with sec := { hosted.sec with msg := some x, burning := [(1, 2)] } }
    hosted.prot.testBit 3 = false ∧ amCode hosted 0 [] ⟨true, none, false⟩ ≠ 0 ∧ s.sec.msg = some x ∧ x.burns ≠ [] ∧
    x.typ ≠ amSVN_COMMIT ∧ s.sec.burning ≠ [] ∧ flag s F.PWR_STATUS_WARN = false ∧
    flag (setF s F.FUSE_STATUS_BURNING 1) F.FUSE_STATUS_BURNING = true ∧ nextBurn s = [(1, 2)] := by decide +kernel

/-- A domain A on port 0 with a master. -/
def timed : State :=
  let m : PtpMaster := { port := 0, src := 5, rank := [], topo := [], gm := 9, ptpTs := true, utcValid := true, utc := 37, leap := 0,
                         interval := 0, timeout := 3, last := 0, before := none }
  let s := setFi (setFi run F.TIM_DOM_CFG_ENABLE 0 1) F.TIM_DOM_CFG_PORTS 0 1
  let s := setFi (setFi s F.TIM_DOM_STAT_PORT 0 0) F.TIM_DOM_STAT_STATE 0 dsLOCKED
  { s with tim := { s.tim with domA := { s.tim.domA with masters := [m], master := some 5, held := some (1, 0, 0), dreq := some (1, 0) } } }

/-- NetworkTime: messages of the domain's master, timeouts, the preset of TB7, a full queue of stamps. -/
theorem witness_ptp :
    let m : PtpHdr := { hdr with port := 0, transport := getFi timed F.TIM_DOM_CFG_TRANSPORT 0, domain := getFi timed F.TIM_DOM_CFG_DOMAIN 0 }
    m.kind = .plain ∧ domOfMsg timed m = some 0 ∧ tcOfMsg timed m = none ∧ fromMaster timed 0 m = true ∧ (domOf timed 0).held = some (m.seq, 0, 0) ∧
    (domOf timed 0).dreq = some (m.seq, 0) ∧ (domMaster timed 0).isSome = true ∧ domState timed 0 = dsLOCKED ∧
    (domOf timed 0).lastSync + 4 * (domOf timed 0).syncInt ≤ tb0Ns timed ∧ slavePort timed 0 ≠ 0xF ∧
    peerPort (setFi timed F.TIM_DOM_CFG_PROFILE 0 1) 0 = some 0 ∧ getF timed F.TIM_TB7_NS_VALUE < 1000000000 ∧
    portGate (setReg timed R.CLK_GATE_PERI 0xFFFFFFFF) 0 = true ∧ (bestMaster 0 ((domOf timed 0).masters.map fun m => { m with before := some 0 })).isSome = true ∧
    (txtsOf timed 13).length < 16 ∧ txtsOf timed (getF timed F.TIM_TXTS_SEL_PORT) = [] := by decide +kernel

theorem witness_tb_sel : Takes run R.TIM_TB_SEL 7 := ⟨_, rfl, by decide +kernel⟩

/-- NetworkTime: a slew that ends between two ticks. -/
theorem witness_slew :
    let s := setF { at1 250000 true run with tim := { (at1 250000 true run).tim with d1 := 1 } } F.TIM_STATUS_SEALED 1
    (∃ d, slewLeft s = some d ∧ s.tim.tb1 + d < (tickNow s + 1) * tickNs * tbUnit) ∧ tickDone s = true := by
  exact ⟨⟨_, rfl, by decide +kernel⟩, by decide +kernel⟩

/-- RealTimeClock: RTC_CMD takes the least and the greatest command; a shift to the last pulse; the armed leap seconds. -/
theorem witness_rtc : Takes run R.RTC_CMD 1 ∧ Takes run R.RTC_CMD 9 ∧ Takes run R.RTC_TRIM 0xFFFF0001 ∧ Takes run R.RTC_SNAP 1 ∧
    flag run F.RTC_STATUS_BUSY = false ∧ rtcAuto run = false :=
  ⟨⟨_, rfl, by decide +kernel⟩, ⟨_, rfl, by decide +kernel⟩, ⟨_, rfl, by decide +kernel⟩, ⟨_, rfl, by decide +kernel⟩,
    by decide +kernel, by decide +kernel⟩

/-- RealTimeClock: the second edge with and without a leap second armed, and an alarm. -/
theorem witness_second :
    let last : Rtc := { Rtc.reset with hour := 23, min := 59, sec := 59 }
    getF run F.RTC_STATUS_LEAP_ARM = 0 ∧ getF (setF run F.RTC_STATUS_LEAP_ARM 1) F.RTC_STATUS_LEAP_ARM = 1 ∧
    flag run F.RTC_STATUS_LEAP_SEC = false ∧ last.hour = 23 ∧ last.min = 59 ∧ last.sec = 59 ∧
    flag (setF run F.RTC_STATUS_CNT_RUN 1) F.RTC_STATUS_CNT_RUN = true := by decide +kernel

/-! ### Witnesses: serial channels, the recorder, the supply, clocks and start-up -/

/-- Channel 3 of CAN and UART 3 clocked and running, CAN with its rings in DRAM. -/
def serial : State :=
  let s := setReg { at1 1000000000 true run with prog := some { prog with canRecover := [0, 0, 0, 1000] } } R.CLK_GATE_PERI 0xFFFFFFFF
  let s := setFi (setFi s F.CAN_STATUS_STATE 3 csACTIVE) F.UART_CFG_ENABLE 3 1
  setFi (setFi s F.CAN_RX_BASE_HI_ADDR 3 1) F.CAN_TX_BASE_HI_ADDR 3 1

/-- SerialChannels: traffic, errors at their limits, sleep, recovery and modes. -/
theorem witness_can :
    let sleeping := setFi (setFi serial F.CAN_STATUS_STATE 3 csSLEEPING) F.CAN_MODE_MODE 3 3
    canListens serial 3 = true ∧ canAccepts serial 3 frame = true ∧ getFi serial F.CAN_STATUS_REC 3 ≤ 127 ∧
    rxFree serial 3 = true ∧ regionOf (rxSlot serial 3 0) = .dram ∧ regionOf (rxSlot serial 3 0 + 33 - 1) = .dram ∧
    canSends serial 3 = true ∧ txQueued (setFi serial F.CAN_TX_PUT_INDEX 3 1) 3 = 1 ∧ canSendable serial 3 (txSlot serial 3 0) = true ∧
    slotReadable (txSlot serial 3 0) (canSlotLen serial (txSlot serial 3 0)) = true ∧ serialDrives serial = true ∧
    serialDrives (noToken { serial with boot := (pairAt 2 roSTANDBY).boot, regs := (pairAt 2 roSTANDBY).regs }) = false ∧ canAcks serial 3 = true ∧
    (canOf serial 3).abortTo = none ∧ serialGated serial 3 = false ∧ serialGated (setReg serial R.CLK_GATE_PERI 0) 3 = true ∧
    getFi (setFi serial F.CAN_STATUS_TEC 3 247) F.CAN_STATUS_TEC 3 + (8 : Fin 9).val < 256 ∧
    256 ≤ getFi (setFi serial F.CAN_STATUS_TEC 3 248) F.CAN_STATUS_TEC 3 + (8 : Fin 9).val ∧
    canState sleeping 3 = csSLEEPING ∧ canMode sleeping 3 = 3 ∧ (canOf sleeping 3).wakeErr < 31 ∧
    wakeMatch (setFi (setFi sleeping F.CAN_WAKE_ID_ID 3 1) F.CAN_WAKE_IDM_ID 3 0x7FF) 3 frame = true := by decide +kernel

/-- SerialChannels: CAN_MODE takes a mode; the indexes of the rings; a bus-off channel that recovers by itself. -/
theorem witness_can_writes : Takes serial (F.CAN_MODE_MODE.at 3) 0x00003F04 ∧ Takes serial ((ringOf 3).rxAck.at 3) 1 ∧
    Takes serial (F.UART_CFG_ENABLE.at 3) 0x00010000 ∧ (canOf serial 3).boffAt + 1000 * 1000000 ≤ nowNs serial ∧ serial.runtimeUp = true ∧
    canState (setFi serial F.CAN_STATUS_STATE 3 csBUSOFF) 3 = csBUSOFF :=
  ⟨(takes_iff ..).mpr (by decide +kernel), (takes_iff ..).mpr (by decide +kernel), (takes_iff ..).mpr (by decide +kernel),
    by decide +kernel, by decide +kernel, by decide +kernel⟩

/-- SerialChannels: a UART that runs, with a frame queued and a full receive ring. -/
theorem witness_uart :
    let s := setFi serial F.UART_TX_PUT_INDEX 3 1
    let full := setFi serial F.UART_RX_PUT_INDEX 3 (2 ^ getFi serial F.UART_RX_CFG_LOG2 3)
    let base := setFi s F.UART_TX_BASE_HI_ADDR 3 1
    let bus := { setFi s F.UART_CFG_MODBUS 3 1 with ser := { s.ser with uart := s.ser.uart.set 3 { UartCh.reset with idle := 5 } } }
    slotReadable (txSlot base 7 0) 16 = true ∧ slotReadable (txSlot s 7 0) 16 = false ∧ uartSilent s 3 0 = true ∧
    uartSilent bus 3 5 = false ∧ serialGated (setReg s R.CLK_GATE_PERI 0) 7 = true ∧
    uartOn s 3 = true ∧ serialDrives s = true ∧ txQueued s 7 ≠ 0 ∧ (uartOf s 3).abortTo = none ∧ rxFree s 7 = true ∧
    rxFree full 7 = false ∧ uartRateOk true 0x40 = false ∧ uartRateOk true 0x80 = true := by decide +kernel

/-- RecorderAndSupply: a record that waits, a free slot, a search that finds and one that does not. -/
theorem witness_recorder :
    let s := setF (ev run blkSYS 0 7 []) F.EVR_STATUS_RESTORING 0
    let t := { s with evr := { s.evr with index := [(3, 9, 7)], seeking := true } }
    flag s F.EVR_STATUS_FROZEN = false ∧ flag s F.EVR_STATUS_RESTORING = false ∧ (takeRecord s).isSome = true ∧
    chooseSlot s 7 = some (0, none) ∧ flag run F.EVR_STATUS_RESTORING = true ∧ seekSeq t 9 = some (3, 9) ∧ seekSeq t 10 = none := by
  decide +kernel

/-- RecorderAndSupply: EVR_RD_SEL takes the last slot and EVR_SEEK_HI any value. -/
theorem witness_recorder_writes : Takes run R.EVR_SEEK_HI 0xFFFFFFFF ∧ Takes run R.EVR_RD_SEL (BitVec.ofNat 32 (nSlots - 1)) :=
  ⟨⟨_, rfl, by decide +kernel⟩, ⟨_, rfl, by decide +kernel⟩⟩

/-- RecorderAndSupply: the levels of the supply and a save. -/
theorem witness_supply :
    let s := setF run F.PWR_STATUS_SAVING 1
    flag run F.PWR_STATUS_WARN = false ∧ run.boot.stage ≠ 0 ∧ flag s F.PWR_STATUS_SAVING = true ∧ s.boot.resetDue = none ∧
    s.boot.saveDue = false ∧ { s with boot := { s.boot with saveDue := true } }.boot.saveDue = true ∧
    flag (setF run F.PWR_STATUS_WARN 1) F.PWR_STATUS_WARN = true ∧ flag run F.PWR_STATUS_SAVING = false := by decide +kernel

/-- ClocksAndStartUp: the reference, the PLLs and the release of a FULL reset. -/
theorem witness_release :
    let s := setF (setF { State.reset with boot := { Boot.reset with qualified := true, power := true } } F.CLK_STATUS_REF_OK 1)
      F.CLK_STATUS_PLL_LOCK 31
    State.reset.boot.strap.getD 7 < 8 ∧ State.reset.boot.stage = 0 ∧ State.reset.boot.kind = rkFULL ∧ State.reset.boot.qualified = false ∧
    flag s F.CLK_STATUS_REF_OK = true ∧ pllLocked s 4 = true ∧ pllLocked State.reset 4 = false ∧ mayRelease s = true ∧
    s.boot.kind = rkFULL ∧ s.boot.qualified = true := by decide +kernel

/-- ClocksAndStartUp: a PLL that loses lock while the module runs; clocks, gates and resets. -/
theorem witness_clocks :
    let s := setF (setF run F.CLK_STATUS_REF_OK 1) F.CLK_STATUS_PLL_LOCK 31
    pllLocked s 4 = true ∧ s.boot.stage ≠ 0 ∧ flag s F.PWR_STATUS_SAVING = false ∧ flag s F.CLK_STATUS_SWITCHING = false ∧
    engAccepted s (getReg s R.CLK_GATE_ENG).toNat = true ∧ engAccepted (setReg s R.CLK_GATE_ENG 0) 0x10000 = false ∧
    sysCoreFailed { s with boot := { s.boot with sysFault := [(5, 0), (5, 1000000000)] } } = true ∧
    portGate (setReg s R.CLK_GATE_PERI 0xFFFFFFFF) 13 = true ∧ flag (setReg s R.CLK_GATE_PERI 0xFFFFFFFF) F.CLK_GATE_PERI_PCIE = true := by
  decide +kernel

theorem witness_clock_writes : Takes run R.CLK_SRC 0x7FFF ∧ Takes run R.CLK_GATE_PERI 0 ∧ Takes run R.CLK_GATE_ENG 0 :=
  ⟨⟨_, rfl, by decide +kernel⟩, ⟨_, rfl, by decide +kernel⟩, ⟨_, rfl, by decide +kernel⟩⟩

/-- A start with neither slot signed, no recovery image and every self-test passed. -/
def bootIn : BootIn :=
  { readErr := false, sigA := false, sigB := false, recovery := false, image := none, errA := false, errB := false, keeperOk := true,
    cores := 0, clusters := 0 }

/-- ClocksAndStartUp: the start of a runtime, the restore, and run state. -/
theorem witness_start :
    let s := { up with boot := { up.boot with stage := 1 } }
    let t := { at1 10000750000 true serving with
      boot := { serving.boot with stage := 3, waitOver := true }, runState := false, prog := some prog }
    s.boot.stage = 1 ∧ getF s F.SEC_STATUS_BOOT_CODE = 0 ∧ lifecycle s = 0 ∧ lifecycle serving = 2 ∧
    (chooseRuntime serving bootIn).2 = none ∧
    modelPending serving = false ∧ runStateDue (reachTick t) = true ∧ (reachTick t).boot.restart ≠ rsWARM ∧
    (reachTick t).boot.effect = false ∧ executes (reachTick t) = true ∧ roleOf (reachTick t) = roSINGLE := by decide +kernel

/-- FusesStayBurned: a state with a burned bit, and a step from it. -/
theorem witness_fuses : amWf (fun _ => 0) serving.sec.fuses = true ∧ (fuseWord serving 0).testBit 15 = true ∧
    step serving = .next serving := ⟨by decide, by decide, rfl⟩

/-- A PROVISION message with every part of its body zero. -/
def provision : List Byte :=
  let n := 0x60 + bodyLen amPROVISION 0 + sigLen
  leBytes 4 0x514E414D ++ leBytes 4 1 ++ leBytes 4 n ++ [BitVec.ofNat 8 amPROVISION, 0, 0, 0] ++ leBytes 8 1 ++ leBytes 8 0 ++
    List.replicate (n - 0x20) 0

/-- AuthorityMessages: a message that passes every check. -/
theorem witness_message :
    let s := { hosted with sec := { hosted.sec with fuses := [(0, 0xFF)] } }
    amCode s 0 provision ⟨true, none, true⟩ = 0 ∧ amType provision = amPROVISION := by decide +kernel

/-! ### Witnesses: words, blocks and single clauses -/

/-- R192 to R209: words written out field by field from the manual's formats, and the undefined word 0 (R194). -/
theorem test_decode_words :
    decodeIrtum (on 0) 0 0x6044194C = some (.qmul (on 0) 5 3 4 24) ∧ decodeIrtum (on 0) 0 0x0180010B = some (.lui (on 0) 4 0x3000) ∧
    decodeIrtum (on 0) 0 0x001040D4 = some (.lw (on 0) 3 8 16) ∧ decodeIrtum (on 0) 0 0x0014415A = some (.sw (on 0) 5 8 20) ∧
    decodeIrtum (on 0) 0 0x0000F828 = some (.jr (on 0) 31 0) ∧
    decodeIrtum (on 0) 0 0x040B5276 = some (.ecall (on 0) 9 10 11 0 1) ∧ decodeIrtum (on 0) 0 0 = none := by decide +kernel

/-- TaskPeriods: a period that starts while the scan of the one before runs, and a core whose scan had its first fault. -/
theorem witness_overrun :
    let s := setScan (at1 1000000 false { run with prog := some prog }) 0 (some scan)
    let t := setScan owning 0 (some { scan with faulted := some ⟨0x13, 0, 0⟩ })
    tickDone s = false ∧ s.runState = true ∧ executes s = true ∧ atExchange s = false ∧ dueTasks s = [task0] ∧
    scanOf s 0 = some scan ∧ scan.late < task0.ovrMax ∧ scanTask t 0 = some 0 ∧
    scanOf t 0 = some { scan with faulted := some ⟨0x13, 0, 0⟩ } ∧ scanTask run 0 = none := by decide +kernel

/-- DispatchCycle: a job that is due under a descriptor that passes its checks. -/
theorem witness_dispatch_due :
    let d := [0x45, 1 + 1000 * 65536, 1000, 0, 0, 0, 0, 0, 0, 0, 0, 0, 0, 1, 1, 1]
    let block := leBytes 4 0x514E4450 ++ leBytes 20 0 ++ leBytes 4 1 ++ leBytes 36 0 ++ List.replicate 65 0xFF
    let s := at1 1000000000 true { run with
      mem := memPut run.mem 0xE1000000 block,
      nsa := { run.nsa with committed := some { netState with cycle := 10 }, model := some model, snap := some (snap 10),
                            dispDesc := some d },
      dpo := { run.dpo with due := some (1, 1000000000), forecast := some forecast } }
    s.dpo.due = some (1, 1000000000) ∧ { netState with cycle := 10 }.cycle = 1000000000 / netNs s ∧ s.dpo.dpoOff = false ∧
    validForecast s = some forecast ∧ descRefuse s d [5] = 0 ∧ blockRefuse s model d = 0 := by decide +kernel

/-- FurovFrames: blocks of a message of no byte and of one block; blocks that are no markers. -/
theorem witness_blocks : ([] : List Byte).length % 8 = 0 ∧ (List.replicate 8 (7 : Byte)).length % 8 = 0 ∧
    (LaneTx.mk 0 0 0).pos % 2 = 0 ∧ (LaneTx.mk 32766 0 0).pos % 2 = 0 ∧
    ∀ b ∈ [LineBlock.mk true [0x1E, 0, 0, 0, 0, 0, 0, 0], LineBlock.mk false [0x4B, 0, 0, 0, 0, 0, 0, 0]],
      b.ctl = false ∨ b.bytes.head? ≠ some 0x4B := by decide +kernel

/-- The frame header that `pairAt` expects next. -/
def nextHdr (s : State) : FurovHdr := { tagOk := true, epoch := BitVec.ofNat 32 (peerEpoch s), seq := s.red.rxSeq + 1, unknown := none }

def digestOf (at_ : Nat) : DigestEntry := { source := 1, task := 0, inst := 1, digest := 2, at_ := at_ }

/-- FurovFrames: the roles, an open snapshot, waits for INPUT and TICK frames, a frame sent three times, training. -/
theorem witness_furov_frames :
    let a := pairAt 1 roACTIVE
    let y := pairAt 2 roSYNCING
    let down := setF (setF a F.RED_STATUS_LINK_UP 0) F.RED_LINK_TRAIN 4
    let b := { at1 1000000 true (pairAt 2 roSTANDBY) with prog := some prog }
    let w := { b with red := { b.red with inputDue := [0], tickDue := true }, nsa := { b.nsa with open_ := some (snap 3) } }
    (∀ s ∈ [a, y, b, w], linkUp s = true ∧ (nextHdr s).epoch.toNat = peerEpoch s ∧ (nextHdr s).seq = s.red.rxSeq + 1) ∧
    roleOf a = roACTIVE ∧ roleOf y = roSYNCING ∧ roleOf b = roSTANDBY ∧ a.red.own = [] ∧ a.red.diagnosing = false ∧
    a.red.joining = false ∧ isPair down = true ∧ down.runtimeUp = true ∧ linkUp down = false ∧ getF down F.RED_LINK_TRAIN = 4 ∧
    down.red.linkDownAt = none ∧ getF (setF a F.RED_STATUS_LINK_UP 0) F.RED_LINK_TRAIN = 0 ∧
    fullPass y = false ∧ fullPass { y with red := { y.red with gotParts := List.range 11 } } = true ∧ w.red.inputDue.contains 0 = true ∧ (taskOf w 0).pidx = 0 ∧ taskRec w 0 = some task0 ∧
    scanOf w 0 = none ∧ halted w 0 = false ∧ b.red.tickDue = false ∧ w.red.tickDue = true ∧ stateAwaited w = false ∧
    w.nsa.open_ = some (snap 3) ∧ flag a F.TIM_STATUS_PEER_VALID = false ∧
    flag (setF b F.RED_STATUS_IN_SYNC 1) F.RED_STATUS_IN_SYNC = true ∧ (healthyCore w 0).isSome = true := by decide +kernel

/-- FurovFrames: frames of which one was sent again twice and one three times. -/
theorem witness_retransmit :
    let f (q : Nat) : FurovFrame := { retx := false, epoch := 1, seq := q, body := .ack 0 }
    let s := { pairAt 1 roACTIVE with red := { (pairAt 1 roACTIVE).red with unacked := [(f 1, 2), (f 2, 3)] } }
    s.red.unacked.find? (fun e => e.1.seq = 1) = some (f 1, 2) ∧ s.red.unacked.find? (fun e => e.1.seq = 2) = some (f 2, 3) ∧
    linkUp s = true ∧ getF (setF s F.RED_LINK_LOCK 2) F.RED_LINK_LOCK = 2 ^ (1 : Fin 2).val := by decide +kernel

/-- PairCommands: a resync instant on both sides, an entry due, and a diagnosis. -/
theorem witness_pair_events :
    let y := at1 100000000 false (pairAt 2 roSYNCING)
    let o := at1 1000000000 false (setF (pairAt 1 roSOLO) F.RED_STATUS_PEER_ROLE roSYNCING)
    let o := { o with red := { o.red with sentParts := [.forces []] } }
    let d := at1 3000000000 true { pairAt 1 roACTIVE with red := { (pairAt 1 roACTIVE).red with own := [digestOf 0] } }
    let g := setF { d with red := { d.red with diagnosing := true } } F.RED_MISMATCH_OWN_DIAG 1
    (∀ s ∈ [y, o], tickDone s = false ∧ linkUp s = true ∧ nowNs s % netNs s = 0) ∧ roleOf y = roSYNCING ∧ roleOf o = roSOLO ∧
    peerRole o = roSYNCING ∧ o.runState = true ∧ o.boot.runAt + 200000000 ≤ nowNs o ∧ o.red.sentParts ≠ [] ∧
    (∃ e ∈ d.red.own ++ d.red.peer, entryDue d e = true) ∧ d.red.diagnosing = false ∧ g.red.diagnosing = true ∧
    getF g F.RED_MISMATCH_OWN_DIAG = 1 ∧ linkUp g = true ∧ getF g F.RED_MISMATCH_PEER_DIAG < 2 := by decide +kernel

/-- PairCommands: the arbitration point of a locked-out module, of a pair member that meets an active peer, of one with the
higher score, and of one whose link stays down. -/
theorem witness_arbitration :
    let base (s : State) : State := setF { s with boot := { s.boot with stage := 3 } } F.EVR_STATUS_RESTORING 0
    let p := noToken (base (pairAt 1 roINIT))
    let late (s : State) : State := at1 1000000 true { s with red := { s.red with fall := some 0 } }
    let meets := setF p F.RED_STATUS_PEER_ROLE roACTIVE
    let first := setF (late p) F.RED_STATUS_PEER_ROLE roINIT
    let alone := setF (late p) F.RED_STATUS_LINK_UP 0
    (∀ s ∈ [p, meets, first, alone], mayArbitrate s = true ∧ isPair s = true ∧ s.red.lockedOut = false ∧ isFatal s = false) ∧
    linkUp meets = true ∧ peerActive meets = true ∧ linkUp first = true ∧ peerActive first = false ∧ tokenIn first = false ∧
    peerRole first ≠ 15 ∧ getF first F.RED_HEALTH_PEER_SCORE < ownScore first ∧ lineFree (reachTick first) = true ∧
    linkUp alone = false ∧ lineFree (reachTick alone) = true ∧ tokenIn (setF alone F.RED_STATUS_TOKEN_IN 1) = true ∧
    isFatal { alone with red := { alone.red with keeperTest := false } } = true := by decide +kernel

/-- TokenAndKeeper: an announcement that is due, a take under way, contention of both positions, and the keeper. -/
theorem witness_announce :
    let a := pairAt 1 roACTIVE
    let s := at1 1000000 true { a with red := { a.red with announceAt := [1000000], taking := true, keeperKey := some 0x5A },
                                       net := { a.net with svcV4 := 1 } }
    let t := setF { pairAt 2 roSTANDBY with red := { (pairAt 2 roSTANDBY).red with latched := true } } F.FIO_STATUS_DRIVE drLATCHED
    holds s = true ∧ s.red.announceAt = [1000000] ∧ 1000000 ≤ nowNs s ∧ s.red.taking = true ∧ s.red.forcesAt = [] ∧
    (NetAddr.v4 s.net.svcV4).given = true ∧ s.red.keeperKey ≠ none ∧ s.boot.stage ≠ 0 ∧ tokenIn (setF s F.RED_STATUS_TOKEN_IN 1) = true ∧
    t.red.latched = true ∧ t.red.holdOver = false ∧ driveOf t = drLATCHED ∧ t.red.restartDue = none ∧ t.red.taking = false ∧
    roleOf (setF t F.RED_STATUS_ROLE roUNSYNCED) ≠ roSTANDBY := by decide +kernel

/-- SessionsAndChecks: no key; numbers of a datagram at, below and above the greatest seen; a telemetry body with its check. -/
theorem witness_datagrams :
    let none_ := { serving with sec := { serving.sec with keys := [] } }
    let seen := { serving with ses := { serving.ses with live := [(4095, seqSeen { Session.fresh with state := 2, epoch := 3, key := [1] } 5)] } }
    let p : List Byte := List.replicate 28 7
    sesHears none_ (qsp 32 5) = true ∧ keyOf none_ (getF none_ F.SES_CFG_KEY_SLOT) atSES = none ∧
    keyOf serving (getF serving F.SES_CFG_KEY_SLOT) atSES = some [1] ∧ sesHears serving { qsp 8 0 with epoch := 4 } = true ∧
    qspOk { qsp 8 0 with epoch := 4 } = true ∧ qspOk { qsp 8 0 with ver := 2 } = false ∧
    sesAdmits seen (qsp 32 5) = some 4095 ∧ (sesOf seen 4095).seqHi = 5 ∧ seqReplay (sesOf seen 4095) 5 = true ∧
    seqReplay (sesOf seen 4095) 4 = false ∧ seqReplay (sesOf seen 4095) 6 = false ∧ (sesOf seen 4095).pipLast = none ∧
    (p ++ leBytes 4 (crc32c p)).length = 32 ∧ crc32c ((p ++ leBytes 4 (crc32c p)).take 28) = leNat ((p ++ leBytes 4 (crc32c p)).drop 28) := by
  decide +kernel

/-- SessionsAndChecks: a queue with room, a full one, and one with a write that waits. -/
theorem witness_queues :
    let d := queueSpec 47
    let full : DomainQueue := { words := List.replicate d.depth 1, held := none }
    let s (x : DomainQueue) : State := { run with que := [(47, x)] }
    (queueOf run 47).words.length < d.depth ∧ (queueOf run 47).held = none ∧ queueOf (s full) 47 = full ∧
    full.words.length = d.depth ∧ full.words.length ≤ d.depth ∧ (queueOf (s { full with held := some 2 }) 47).held.isSome = true ∧
    full.words ≠ [] := by decide +kernel

/-- A request over Ethernet from the host's address, and over PCIe. -/
theorem witness_ethernet :
    let f : NetFrom := ⟨0, 0, .v4 9, 4000, .v4 0x0A000002⟩
    let r : HostReq := { via := some f, reqId := 5, secured := false }
    let g : HostReq := { r with via := some { f with dst := .v4 0x0A000001 } }
    hears hosted r = true ∧ hears hosted g = true ∧ openType 0x01 = true ∧ openType 0x07 = false ∧
    serviceOnly 0x07 [] = true ∧ holds hosted = true ∧ serviceAddr hosted (.v4 0x0A000001) = true := by decide +kernel

/-- HostRequests: the mailbox, empty and full, and a word of IN_DATA. -/
theorem witness_mailbox :
    let s := { hosted with qhc := { hosted.qhc with inBox := [(4, 24)] } }
    s.qhc.pcieUp = true ∧ s.qhc.inFull = false ∧ (alGet? s.qhc.inBox 4).getD 0 = 24 ∧
    mailboxRead s 4 = 24 ∧ (4 ≤ (4 : BitVec 16).toNat) ∧ (0x8004 : BitVec 16).toNat = 0x8004 := by decide +kernel

/-- AuthorityMessages: a key with shares. -/
theorem witness_shares : keyShares hosted 0 = some (0, 1) := by decide +kernel

/-- NetworkTime: a transparent clock in a ring, a request answered on its port, a port state without a domain. -/
theorem witness_clock :
    let s := setFi (setFi run F.TIM_DOM_CFG_ENABLE 0 1) F.TIM_DOM_CFG_TC_EN 0 1
    let m : PtpHdr := { hdr with port := 2, transport := getFi s F.TIM_DOM_CFG_TRANSPORT 0, domain := getFi s F.TIM_DOM_CFG_DOMAIN 0,
                                 out := [(3, 100)] }
    let peer := setFi (setFi timed F.TIM_DOM_CFG_PROFILE 0 1) F.TIM_DOM_CFG_PORTS 0 1
    let mine : PtpHdr := { hdr with transport := getFi peer F.TIM_DOM_CFG_TRANSPORT 0, domain := getFi peer F.TIM_DOM_CFG_DOMAIN 0 }
    let asked := { peer with tim := { peer.tim with pdelay := [(0, { seq := 1, tx := 0, resp := some (0, 0), delay := 0 })] } }
    tcOfMsg s m = some 0 ∧ domOfMsg s m = none ∧ ringPort 3 = true ∧ tcMatch s true 0 3 m = none ∧
    tcOfMsg run m = none ∧ domOfMsg run m = none ∧ domOfMsg peer mine = some 0 ∧ tcOfMsg peer mine = none ∧ peerOn peer 0 0 = true ∧
    (txtsOf peer 0).length < 16 ∧ alGet? asked.tim.pdelay 0 = some { seq := 1, tx := 0, resp := some (0, 0), delay := 0 } ∧
    (domOf { timed with tim := { timed.tim with domA := { timed.tim.domA with held := none } } } 0).held = none ∧
    (domOf timed 0).early = none := by decide +kernel

/-- RealTimeClock: no trim, a command that waits, and a countdown at its end. -/
theorem witness_rtc_states :
    let s := setF { run with rtc := { run.rtc with cmd := some 9, cnt := 1 } } F.RTC_TRIM_TRIM_WIN 1
    trimN run = 0 ∧ trimL s ≠ 0 ∧ s.rtc.sub < 32768 ∧ s.rtc.cmd = some 9 ∧ s.rtc.cnt = 1 ∧
    dateOk (staged (setF (setF (setF s F.RTC_SET_DATE_YEAR 2000) F.RTC_SET_DATE_MONTH 1) F.RTC_SET_DATE_DAY 1)) = true ∧ dateOk (staged s) = false := by decide +kernel

/-- SerialChannels: a channel that may take a mode, and one whose change waits for the frame on the bus. -/
theorem witness_mode : (canOf serial 3).modeTo = none ∧ canOnBus serial 3 = true ∧ canState serial 3 ≠ csBUSOFF ∧
    fieldOf 15 8 (0x00003F04 : BitVec 32) ≠ 0 ∧ canState (setFi serial F.CAN_STATUS_STATE 3 csINTEGRATING) 3 = csINTEGRATING ∧
    canState (setFi serial F.CAN_STATUS_STATE 3 csRECOVERING) 3 = csRECOVERING := by decide +kernel

/-- RecorderAndSupply: units in flight. -/
theorem witness_units_in_flight :
    let s := ev run blkSYS 0 7 []
    let c := { s with boot := { s.boot with unit := 1, saveDue := true } }
    (s.evr.carried ≠ [] ∨ s.evr.buf ≠ []) ∧ c.boot.unit = 1 ∧ c.boot.saveDue = true ∧ flag (setF c F.EVR_STATUS_FROZEN 1) F.EVR_STATUS_FROZEN = true ∧
    run.boot.unit = 0 := by decide +kernel

/-- RealTimeClock: a SET that waits for its second, a shift that carries, the countdown's own second, a measurement that is
complete and one that fails, and the two ways of discipline. -/
theorem witness_rtc_discipline :
    let w := { run with rtc := { run.rtc with cmd := some 1, setAt := some 1 } }
    let c := setF (setF { run with rtc := { run.rtc with cnt := 1, cntPre := 32767 } } F.RTC_TRIM_TRIM_WIN 1) F.RTC_STATUS_CNT_RUN 1
    let m := setF (setF { run with rtc := { run.rtc with crossings := 51 } } F.RTC_MEAS_CFG_REF 1) F.RTC_MEAS_CFG_MEAS_S 1
    let on (ns : Nat) : State :=
      let s := setF (setF (setF (at1 ns true run) F.RTC_MEAS_CFG_AUTO 1) F.TIM_STATUS_SEALED 1) F.TIM_STATUS_TB1_SRC srcA
      { s with rtc := { s.rtc with edge := ns * tbUnit } }
    let off (s : State) : Nat := ((tb5Ns s : Int) - ((nowNs s : Int) - s.cfg.taiOffset * 1000000000)).natAbs
    let t (s : State) : Nat :=
      ((((nowNs s : Int) - s.cfg.taiOffset * 1000000000).toNat / 1000000000 + 1 + s.cfg.taiOffset) * 1000000000).toNat
    setWaits w 1 = true ∧ setWaits run 1 = false ∧ 32768 ≤ (1 : Int) + sInt 16 32767 ∧
    flag c F.RTC_STATUS_CNT_RUN = true ∧ 32768 - c.rtc.cntPre < pulsesTo c (32768 - c.rtc.sub) ∧
    measFails m = false ∧ measComplete m = true ∧ measComplete run = false ∧ measFails { m with rtc := { m.rtc with measAt := 0 } } = false ∧
    measFails (setF m F.PWR_STATUS_FROZEN 1) = true ∧
    rtcAuto (on 100000000000) = true ∧ (on 100000000000).rtc.trimDue = none ∧ 1000000000 ≤ off (on 100000000000) ∧
    nowNs (on 100000000000) + tickNs < t (on 100000000000) ∧ t (on 100999750000) ≤ nowNs (on 100999750000) + tickNs ∧
    1000000000 ≤ off (on 100999750000) ∧ 500000 ≤ off (on 946684837001000000) ∧ off (on 946684837001000000) < 900000000 := by
  decide +kernel

/-- RealTimeClock: RTC_SHIFT takes a write. -/
theorem witness_rtc_shift : Takes run R.RTC_SHIFT 0x0000FFFF := ⟨_, rfl, by decide +kernel⟩

/-- R457: the strap that a qualification showed is the one that a second qualification of the same full reset shows. -/
theorem test_strap_once :
    (match execClkrefQualified true 3 State.reset with
      | .next s => match execPllLockTimeout 0 s with
        | .next u => match execClkrefQualified true 5 u with
          | .next v => getF v F.CLK_STATUS_QUAL_CODE
          | _ => 9
        | _ => 9
      | _ => 9) = 3 := by decide +kernel

/-- R463: a comparison at 16.0 V is no warning, and one below 12.0 V begins a full reset. -/
theorem test_vin_compare :
    let vin (mv : Nat) : State := compareVin (at1 250000 false run) mv
    flag (vin 16000) F.PWR_STATUS_WARN = false ∧ (vin 16000).boot.stage = 4 ∧ (vin 11999).boot.stage = 0 ∧
    (vin 11999).boot.causes.testBit caSUPPLY = true := by decide +kernel

/-- R412: an overdriven sample saturates. -/
theorem test_sample_saturates :
    afeSat (3000000000 : Int) = 2147483647 ∧ afeSat (-3000000000 : Int) = -2147483647 := by decide

/-- R329: a message of 1 409 bytes goes out in two datagrams, each with its own header. -/
theorem test_fragments : (msgDatagrams etherFrag 0x30 qfUNSOL 0 5 (List.replicate 1409 0)).map List.length = [24 + 1408, 24 + 1] := by
  decide +kernel

/-! ### Images that pass every check -/

/-- A memory that holds words at addresses. -/
def wordsAt (base : Nat) (ws : List (Nat × Nat)) : List Host.Cell :=
  ws.foldl (fun m w => memPut m (base + w.1) (leBytes 4 w.2)) []

/-- A model image of two nodes of one plant, and its branch, at the base of model slot A. -/
def modelImage : List Host.Cell :=
  wordsAt (modelSlotBase 0) ([(0, 0x514E4D31), (4, 1), (8, 5140), (0xC, 1), (0x10, 2), (0x14, 1), (0x24, 1), (0x30, 0x100), (0x34, 0x140),
    (0x38, 0x180), (0x3C, 0x200), (0x40, 0x200), (0x44, 0x200), (0x48, 0x1C0), (0x4C, 0x200), (0x50, 972 * 65536), (0x54, 2 ^ 24),
    (0x58, 0x978DBFC8), (0x5C, 0xD61AA5AE)] ++ (List.range 10).map (fun c => (0x100 + 4 * c, c * 2 ^ 24 + 0xEC)) ++
    [(0x140, 1), (0x144, 0x1C000000), (0x160, 2), (0x164, 0x10000000), (0x180, 5), (0x184, 0x10000), (0x188, 0x48000000), (0x198, 1),
     (0x19C, 1), (0x1A8, 1), (0x1AC, 1), (0x1C0, 7), (0x1C8, 1)])

/-- R47: the image passes. -/
theorem test_model_valid : validateModel modelImage (modelSlotBase 0) 5140 true = none := by decide +kernel

/-- A program image of one task of one instruction in program slot A. -/
def programImage : List Host.Cell :=
  wordsAt (programSlot 0) [(0, 0x514E5047), (4, 1), (8, 0x80 + 448 + 4627), (0xC, 9), (0x80, 0x514E5344), (0x84, 9),
    (0x90, 1), (0x94, 192), (0x98, 4), (0xA0, 2), (0xA4, 256), (0xB0, 3), (0xB4, 256), (0xB8, 16), (0xBC, 1), (0xC0, 4), (0xC4, 320),
    (0xC8, 16), (0xD0, 5), (0xD4, 384), (0xE0, 6), (0xE4, 384), (0xF0, 7), (0xF4, 384), (0x100, 8), (0x104, 384), (0x110, 9),
    (0x114, 384), (0x118, 64), (0x184, 4), (0x200, 100), (0x204, 10)]

/-- A module in service whose owner key in slot 0 is the empty string, with `programImage` in slot A. -/
def owned : State :=
  { serving with mem := programImage,
                 sec := { serving.sec with owners := [(0, [])], fuses := [(0, 0xFFFF), (20, 3430129574), (21, 3315219106), (22, 3697784264), (23, 1853184536), (24, 377670039), (25, 1498997327), (26, 3252474336), (27, 2793430087), (28, 974303765), (29, 1291449841), (30, 1089069841), (31, 1489320492), (32, 2635661557), (33, 3822302869), (34, 2256893185), (35, 650976552)] } }

/-- The program that `programImage` holds. -/
def smallProgram : Program :=
  { serial := 9, codeLen := 4, constLen := 0, consts := [], retLen := 0, nonretLen := 0, tasks := [{ task0 with ovrMax := 0 }], pages := [], insts := [],
    tags := [], netMs := 100, dispMult := 10, canRecover := [0, 0, 0, 0], projectId := 0, iomap := [], chkUnits := [] }

/-- R243: the payload passes its checks and loads. -/
theorem test_program_loads : programPayload owned (programSlot 0) none = .ok smallProgram := by decide +kernel

/-- HostRequests and ClocksAndStartUp: an image that passes R423 and whose exchange is accepted, and a restore. -/
theorem witness_program :
    let s := { owned with prog := some smallProgram, cfg := { owned.cfg with progSlot := 1 } }
    (exchangeRequest s 0 ⟨true, none, false⟩).2 = 0 ∧ slotInUse s ikPROGRAM 0 = false ∧ lifecycle s = 2 ∧
    { owned with boot := { owned.boot with stage := 2 } }.boot.stage = 2 := by decide +kernel

/-- A list of bytes is the bytes of its value. -/
theorem leBytes_leNat : ∀ (l : List Byte), leBytes l.length (leNat l) = l
  | [] => rfl
  | b :: l => by
    have h : (b.toNat + 256 * leNat l) / 256 = leNat l := by have := b.isLt; omega
    simp only [List.length_cons, leBytes, leNat, h, leBytes_leNat l]
    congr 1
    apply BitVec.eq_of_toNat_eq; simp; omega

theorem leBytes_length : ∀ n v, (leBytes n v).length = n
  | 0, _ => rfl
  | n + 1, v => by simp [leBytes, leBytes_length n]

theorem keccakRound_length (a : Lanes) (c : BitVec 64) : (keccakRound a c).length = 25 := by
  simp [keccakRound, lanesOf]

theorem foldl_length (l : List (BitVec 64)) : ∀ a : Lanes, a.length = 25 → (l.foldl keccakRound a).length = 25 := by
  induction l with
  | nil => intro a h; exact h
  | cons c l ih => intro a _; exact ih _ (keccakRound_length a c)

theorem absorb_length (r : Nat) : ∀ n (a : Lanes) bs, a.length = 25 → (absorb r n a bs).length = 25
  | 0, _, _, h => h
  | n + 1, a, bs, h => by
    refine absorb_length r n _ _ (foldl_length _ _ ?_)
    simp [lanesOfBytes, h]

theorem flat_length (l : Lanes) : (l.flatMap fun w => leBytes 8 w.toNat).length = 8 * l.length := by
  induction l with
  | nil => rfl
  | cons a l ih => simp only [List.flatMap_cons, List.length_append, leBytes_length, ih, List.length_cons]; omega

/-- SHA3-512 gives 64 bytes. -/
theorem sha3_512_length (m : List Byte) : (sha3_512 m).length = 64 := by
  unfold sha3_512 sponge
  rw [List.length_take, flat_length, absorb_length _ _ _ _ (by simp)]; rfl

/-- The fuse words of a root key's digest. -/
def rootWords (d : List Byte) : List (Nat × Nat) := (0, 0xFF) :: (List.range 16).map fun i => (4 + i, leNat ((d.drop (4 * i)).take 4))

/-- The words of a list of bytes, joined. -/
theorem chunks (d : List Byte) : ∀ n, 4 * n ≤ d.length → ((List.range n).flatMap fun i => (d.drop (4 * i)).take 4) = d.take (4 * n)
  | 0, _ => by simp
  | n + 1, h => by
    rw [List.range_succ, List.flatMap_append, chunks d n (by omega), Nat.mul_succ, List.take_add]; simp

theorem rootWords_read (d : List Byte) (i : Nat) (h : i < 16) :
    amGet (fun _ => 0) (rootWords d) (4 + i) = leNat ((d.drop (4 * i)).take 4) := by
  have : i ∈ List.range 16 := by simpa using h
  simp only [List.range, List.range.loop, List.mem_cons, List.not_mem_nil, or_false] at this
  rcases this with h | h | h | h | h | h | h | h | h | h | h | h | h | h | h | h <;> subst h <;> rfl

/-- A fuse field that holds the words of a digest holds its bytes. -/
theorem rootWords_bytes (s : State) (d : List Byte) (h : d.length = 64) (hs : s.sec.fuses = rootWords d) : fuseBytes s 4 16 = d := by
  unfold fuseBytes fuseWord
  rw [hs]
  have e : ((List.range 16).flatMap fun i => leBytes 4 (amGet (fun _ => 0) (rootWords d) (4 + i))) =
      (List.range 16).flatMap fun i => (d.drop (4 * i)).take 4 := by
    rw [List.flatMap_def, List.flatMap_def]
    refine congrArg _ (List.map_congr_left fun i hi => ?_)
    have hi : i < 16 := by simpa using hi
    rw [rootWords_read d i hi]
    have hl : ((d.drop (4 * i)).take 4).length = 4 := by simp; omega
    have := leBytes_leNat ((d.drop (4 * i)).take 4)
    rwa [hl] at this
  rw [e, chunks d 16 (by omega)]
  exact List.take_of_length_le (by omega)

/-- A runtime image in slot A, its root key all zero. -/
def runtimeImage : List Host.Cell :=
  wordsAt 0x40000000 [(0, 0x514E5254), (4, 1), (8, 0xAA0 + 4627), (0xC, 1)]

/-- A module at its start whose fuses hold the digest of the root key of `runtimeImage`. -/
def booting : State :=
  { up with mem := runtimeImage, boot := { up.boot with stage := 1 }, cfg := { up.cfg with rtSlot := 0 },
            sec := { up.sec with fuses := rootWords (sha3_512 (memBytes runtimeImage 0x40000080 2592)) } }

theorem tryRuntime_passes (s : State) (h : imageCode s s.mem ikRUNTIME 0x40000000 none true = 0) : tryRuntime s 0 true = (s, true) := by
  unfold tryRuntime checkImage runtimeChecked
  rw [show imageSlot ikRUNTIME 0 = 0x40000000 from rfl, h]
  simp only [ne_eq, not_true, if_false, if_true]

theorem chooseRuntime_first (s : State) (b : BootIn) (h : s.cfg.rtSlot = 0) (ok : tryRuntime s 0 b.sigA = (s, true)) :
    (chooseRuntime s b).2 = some 0 := by
  unfold chooseRuntime
  simp only [h, if_true, ok]

/-- ClocksAndStartUp: slot A boots. -/
theorem witness_boot : lifecycle booting ≠ 0 ∧ getF booting F.SEC_STATUS_BOOT_CODE = 0 ∧
    (chooseRuntime booting { bootIn with sigA := true }).2 = some 0 := by
  have h : fuseBytes booting 4 16 = sha3_512 (memBytes runtimeImage (0x40000000 + 0x80) 2592) :=
    rootWords_bytes _ _ (sha3_512_length _) rfl
  have a : imageForm runtimeImage ikRUNTIME 0x40000000 = true := by decide +kernel
  have b : rtCnt booting = 0 := by decide +kernel
  have l : imgW runtimeImage 0x40000000 8 = 0xAA0 + 4627 := by decide +kernel
  have v : imgW runtimeImage 0x40000000 0x10 = 0 := by decide +kernel
  have ok : imageCode booting runtimeImage ikRUNTIME 0x40000000 none true = 0 := by
    unfold imageCode
    simp only [h, a, b, l, v]
    simp [payloadAt, imageSlotLen, sigLen, ikRUNTIME]
  exact ⟨by decide +kernel, by decide +kernel, chooseRuntime_first _ _ rfl (tryRuntime_passes _ ok)⟩

end Sys2Proof.Tests
end

section
/-!
PROOFS. Control registers and the state after reset (00 R6 to R11, 14 R368, 17 R418): what a store to a register does bit by
bit, how a discarded write, a bus error and the latch of a pair read back, and the obligations that follow from them.
-/
namespace Sys2Proof.Machine

/-! ### The fields of a register (R8, R9) -/

/-- The fields of a register lie inside its 32 bits and apart, the highest first. -/
def RegDef.LaidOut (r : RegDef) : Prop :=
  (∀ f ∈ r.fields, f.lo ≤ f.hi ∧ f.hi < 32) ∧ r.fields.Pairwise fun f g => g.hi < f.lo

theorem blockRegs_laidOut (b : Nat) : ∀ r ∈ blockRegs b, r.LaidOut := by
  have listed : ∀ b < 22, ∀ r ∈ blockRegs b,
      (∀ f ∈ r.fields, f.lo ≤ f.hi ∧ f.hi < 32) ∧ r.fields.Pairwise fun f g => g.hi < f.lo := by decide
  by_cases hb : b < 22
  · exact listed b hb
  · obtain ⟨n, rfl⟩ := Nat.exists_eq_add_of_le' (Nat.le_of_not_lt hb)
    have no_register : blockRegs (n + 22) = [] := rfl
    simp [no_register]

theorem laidOut_of_regDefAt {a : Nat} {r : RegDef} (h : regDefAt a = some r) : r.LaidOut :=
  blockRegs_laidOut _ r (List.mem_of_find?_eq_some h)

/-- A bit belongs to one field at most. -/
theorem RegDef.LaidOut.field_unique {r : RegDef} (hr : r.LaidOut) {f g : FieldDef} {j : Nat} (hf : f ∈ r.fields)
    (hg : g ∈ r.fields) (hfj : f.lo ≤ j ∧ j ≤ f.hi) (hgj : g.lo ≤ j ∧ j ≤ g.hi) : f = g := by
  have apart : r.fields.Pairwise fun f g => g.hi < f.lo ∨ f.hi < g.lo := hr.2.imp Or.inl
  have symmetric : Std.Symm fun f g : FieldDef => g.hi < f.lo ∨ f.hi < g.lo := ⟨fun _ _ h => h.symm⟩
  by_contra hne
  have := apart.forall hf hg hne
  omega

theorem testBit_maskOf (hi lo j : Nat) : (maskOf hi lo).testBit j = decide (lo ≤ j ∧ j ≤ hi) := by
  simp only [maskOf, Nat.testBit_shiftLeft, Nat.testBit_two_pow_sub_one, ← Bool.decide_and]
  exact decide_eq_decide.2 (by omega)

theorem testBit_foldl_kindMask (fs : List FieldDef) (p : Kind → Bool) (m j : Nat) :
    (fs.foldl (fun m f => if p f.kind then m ||| maskOf f.hi f.lo else m) m).testBit j =
      (m.testBit j || fs.any fun f => p f.kind && decide (f.lo ≤ j ∧ j ≤ f.hi)) := by
  induction fs generalizing m with
  | nil => simp
  | cons f fs ih =>
    rw [List.foldl_cons, ih, List.any_cons]
    cases hp : p f.kind <;> simp [Nat.testBit_or, testBit_maskOf, Bool.or_assoc]

theorem RegDef.testBit_kindMask (r : RegDef) (p : Kind → Bool) (j : Nat) :
    (r.kindMask p).testBit j = r.fields.any fun f => p f.kind && decide (f.lo ≤ j ∧ j ≤ f.hi) := by
  simp [kindMask, testBit_foldl_kindMask]

theorem RegDef.LaidOut.kindMask_lt {r : RegDef} (hr : r.LaidOut) (p : Kind → Bool) : r.kindMask p < 2 ^ 32 := by
  refine Nat.lt_pow_two_of_testBit _ fun j hj => ?_
  rw [RegDef.testBit_kindMask, List.any_eq_false]
  intro f hf
  have := (hr.1 f hf).2
  simp; omega

/-- At a bit of a field, a mask of field types tells the field's type. -/
theorem RegDef.LaidOut.testBit_kindMask_of_mem {r : RegDef} (hr : r.LaidOut) {f : FieldDef} (hf : f ∈ r.fields) {j : Nat}
    (hj : f.lo ≤ j ∧ j ≤ f.hi) (p : Kind → Bool) : (r.kindMask p).testBit j = p f.kind := by
  rw [RegDef.testBit_kindMask, Bool.eq_iff_iff, List.any_eq_true]
  constructor
  · rintro ⟨g, hg, hgp⟩
    simp only [Bool.and_eq_true, decide_eq_true_eq] at hgp
    rw [hr.field_unique hf hg hj hgp.2]
    exact hgp.1
  · exact fun hp => ⟨f, hf, by simp [hp, hj]⟩

theorem testBit_complement {m j : Nat} (hm : m < 2 ^ 32) (hj : j < 32) : (0xFFFFFFFF - m).testBit j = !m.testBit j := by
  have h : 0xFFFFFFFF - m = 2 ^ 32 - (m + 1) := by omega
  rw [h, Nat.testBit_two_pow_sub_succ hm]
  simp [hj]

/-- A one in a bit that no field names bars the write (R9). -/
theorem writeBarred_of_reserved (s : State) (a : Nat) {r : RegDef} {v : Word} {j : Nat} (hr : r.LaidOut) (hj : j < 32)
    (hv : v.getLsbD j = true) (hfree : ∀ f ∈ r.fields, j < f.lo ∨ f.hi < j) : writeBarred s a r v = true := by
  have unnamed : (r.kindMask fun _ => true).testBit j = false := by
    rw [RegDef.testBit_kindMask, List.any_eq_false]
    intro f hf
    have := hfree f hf
    simp; omega
  have reserved : r.reservedMask.testBit j = true := by
    rw [RegDef.reservedMask, testBit_complement (hr.kindMask_lt _) hj, unnamed]; rfl
  have hne : v.toNat &&& r.reservedMask ≠ 0 := fun h0 => by
    have := congrArg (Nat.testBit · j) h0
    rw [Nat.testBit_and, reserved, BitVec.testBit_toNat, hv] at this
    simp at this
  simp [writeBarred, hne]

/-- What a write stores at a bit of a field, as the table of R8 has it for the field's type. -/
theorem testBit_writtenValue {r : RegDef} (hr : r.LaidOut) {f : FieldDef} (hf : f ∈ r.fields) {j : Nat}
    (hj : f.lo ≤ j ∧ j ≤ f.hi) (old v : Nat) :
    (writtenValue r old v).testBit j = match f.kind with
      | .rw | .rwl => v.testBit j
      | .ro => old.testBit j
      | .w1c => old.testBit j && !v.testBit j
      | .w1s => old.testBit j || v.testBit j
      | .wo => false := by
  have hj32 : j < 32 := by have := (hr.1 f hf).2; omega
  have hkept := Nat.or_lt_two_pow (hr.kindMask_lt fun k => k = .rw || k = .rwl) (hr.kindMask_lt fun k => k = .wo)
  have hcleared := Nat.and_lt_two_pow v (hr.kindMask_lt fun k => k = .w1c)
  simp only [writtenValue, Nat.testBit_or, Nat.testBit_and, testBit_complement hkept hj32, testBit_complement hcleared hj32,
    hr.testBit_kindMask_of_mem hf hj]
  cases f.kind <;> simp

/-! ### A register store, by what it meets -/

theorem exec_registerWrite (a : BitVec 64) (v : BitVec 32) (size : Fin 9) (pcie : Bool) (s : State) :
    exec (.registerWrite a v size pcie) s = .next (regStore s pcie a.toNat size.val v) := rfl

theorem exec_loRegisterRead (a : BitVec 64) (size : Fin 9) (pcie : Bool) (s : State) :
    exec (.loRegisterRead a size pcie) s =
      .next (if ctlBusErr s pcie a.toNat size.val then busErr s a.toNat else (readReg s a.toNat).2) := rfl

theorem exec_lock (b : Fin 22) (n : Fin 4) (s : State) :
    exec (.lock b n) s = .next (regStore s false (ctrlOf b.val n.val) 4 0x100) := rfl

theorem regStore_of_busErr {s : State} {pcie : Bool} {a size : Nat} (v : Word) (h : ctlBusErr s pcie a size = true) :
    regStore s pcie a size v = busErr s a := by simp [regStore, h]

/-- A store that its register does not take has no effect but CFG_ERR (R9 to R11). -/
theorem regStore_of_not_takes {s : State} {pcie : Bool} {a size : Nat} {v : Word} (hb : ctlBusErr s pcie a size = false)
    (h : ¬ Takes s a v) : regStore s pcie a size v = cfgErr s := by
  rw [regStore, hb, if_neg Bool.false_ne_true, ctlStoreFrom, checkedWrite_barred _ _ _ _ h]

theorem regStore_of_takes {s : State} {pcie : Bool} {a size : Nat} {v : Word} (hb : ctlBusErr s pcie a size = false)
    (h : Takes s a v) : regStore s pcie a size v = shareSetting s (ctlAction s pcie a v) a := by
  rw [regStore, hb, if_neg Bool.false_ne_true, ctlStoreFrom, checkedWrite_takes _ _ _ _ h]

theorem shareSetting_of_unshared {a : Nat} (old s : State) (h : sharedSettings.contains a = false) :
    shareSetting old s a = s := by
  simp only [shareSetting, h, Bool.and_false, Bool.false_and, Bool.false_eq_true, if_false]

theorem plainWrite_of_takes {s : State} {a : Nat} {v : Word} {r : RegDef} (hr : regDefAt a = some r)
    (hb : writeBarred s a r v = false) :
    plainWrite s a v = setReg s a (BitVec.ofNat 32 (writtenValue r (getReg s a).toNat v.toNat)) := by
  simp [plainWrite, hr, hb]

/-! ### What a discarded write shows -/

/-- A bit outside a field is as before when the field is set. -/
theorem getLsbD_setF_apart (s : State) (f : Fld) (v j : Nat) (h : f.inWord) (hj : j < f.lo ∨ f.hi < j) :
    (getReg (setF s f v) f.addr).getLsbD j = (getReg s f.addr).getLsbD j := by
  have out : ¬ (f.lo ≤ j ∧ j ≤ f.hi) := by omega
  have hat : f.at 0 = f.addr := by simp [Fld.at]
  have hset : getReg (setF s f v) f.addr = BitVec.ofNat 32 (putBits f.hi f.lo v (getReg s f.addr).toNat) := by
    rw [setF, setFi, hat, getReg_setReg_same]
  rw [hset, BitVec.getLsbD_ofNat, testBit_putBits _ _ _ _ _ h.1, if_neg out, BitVec.testBit_toNat]
  by_cases h32 : j < 32
  · simp [h32]
  · simp [h32, BitVec.getLsbD_of_ge _ _ (Nat.le_of_not_lt h32)]

@[simp] theorem getF_cfgErr (s : State) : getF (cfgErr s) F.SYS_STATUS_CFG_ERR = 1 :=
  getF_setF_same s F.SYS_STATUS_CFG_ERR 1 ⟨by decide, by decide⟩

theorem cfgErr_sameRegsBut (s : State) : SameRegsBut [R.SYS_STATUS] s (cfgErr s) :=
  fun a ha => getReg_cfgErr s a (by simpa [F.SYS_STATUS_CFG_ERR] using ha)

/-- A discarded write leaves the other bits of SYS_STATUS alone. -/
theorem getLsbD_cfgErr (s : State) (j : Nat) (h : j ≠ F.SYS_STATUS_CFG_ERR.lo) :
    (getReg (cfgErr s) R.SYS_STATUS).getLsbD j = (getReg s R.SYS_STATUS).getLsbD j :=
  getLsbD_setF_apart s F.SYS_STATUS_CFG_ERR 1 j ⟨by decide, by decide⟩ (Nat.lt_or_gt_of_ne h)

/-- A write to no register, or with a one in a bit that no field names, is not taken (R9, R11). -/
theorem not_takes_of_reserved {s : State} {a : Nat} {v : Word}
    (h : regDefAt a = none ∨
      ∃ r j, regDefAt a = some r ∧ j < 32 ∧ v.getLsbD j = true ∧ ∀ f ∈ r.fields, j < f.lo ∨ f.hi < j) :
    ¬ Takes s a v := by
  rintro ⟨q, hq, hb⟩
  rcases h with hnone | ⟨r, j, hr, hj, hv, hfree⟩
  · simp [hnone] at hq
  · obtain rfl : r = q := by simpa [hr] using hq
    simp [writeBarred_of_reserved s a (laidOut_of_regDefAt hr) hj hv hfree] at hb

/-- Settles O27: such a write is not taken, and what is left of it is CFG_ERR. -/
theorem discardedWrites : Obligations.DiscardedWrites := by
  intro a v pcie s hbus hres
  have hstore : regStore s pcie a.toNat 4 v = cfgErr s := regStore_of_not_takes hbus (not_takes_of_reserved hres)
  exact ⟨cfgErr s, (exec_registerWrite ..).trans (congrArg _ hstore), getF_cfgErr s, cfgErr_sameRegsBut s, cfgErr_only s,
    getLsbD_cfgErr s⟩

/-! ### LOCK while the RTC is busy (R368) -/

/-- While RTC_STATUS.BUSY is set, a write to RTC_CTRL is discarded (R368). -/
theorem ctlAction_rtcCtrl_of_busy {s : State} (pcie : Bool) (v : Word) (h : flag s F.RTC_STATUS_BUSY = true) :
    ctlAction s pcie R.RTC_CTRL v = cfgErr s := by
  have hblock : blockOf R.RTC_CTRL = 0x0C := by decide
  simp [ctlAction, hblock, rtcWrite, h]

/-- LOCK of the RTC while BUSY is set sets CFG_ERR and not the lock (R368). -/
theorem exec_lock_of_rtcBusy {s : State} (n : Fin 4) (h : flag s F.RTC_STATUS_BUSY = true) :
    exec (.lock 0x0C n) s = .next (cfgErr s) := by
  have hbus : ctlBusErr s false R.RTC_CTRL 4 = false := by
    have hgate : gateBits R.RTC_CTRL = [] := by decide
    simp [ctlBusErr, gateOff, hgate]; decide
  have htakes : Takes s R.RTC_CTRL 0x100 :=
    ⟨⟨0x0, 0x0, 1, [⟨8, 8, .w1s, 0⟩]⟩, by decide, rfl⟩
  have hctrl : ctrlOf (0x0C : Fin 22).val n.val = R.RTC_CTRL := rfl
  rw [exec_lock, hctrl, regStore_of_takes hbus htakes, ctlAction_rtcCtrl_of_busy _ _ h,
    shareSetting_of_unshared _ _ (by decide)]

/-- The state after reset with an RTC command under way. -/
def rtcBusyAfterReset : State := setF State.reset F.RTC_STATUS_BUSY 1

/-- Refutes O28: while an RTC command is under way, a one written to LOCK of RTC_CTRL is discarded (R368), so the lock stays
open. -/
theorem not_lockedWrites : ¬ Obligations.LockedWrites := by
  rintro ⟨-, hlock⟩
  obtain ⟨t, ht, hbit, -⟩ := hlock 0x0C 0 rtcBusyAfterReset ⟨0x0, 0x0, 1, [⟨8, 8, .w1s, 0⟩]⟩ (by decide) (by decide)
    ⟨_, List.mem_singleton.2 rfl, rfl, rfl⟩
  rw [exec_lock_of_rtcBusy 0 (by decide)] at ht
  obtain rfl : cfgErr rtcBusyAfterReset = t := by simpa using ht
  exact absurd hbit (by decide)

/-! ### Field types (R8) -/

/-- In the blocks without rules of their own a store that its register takes is the plain write of R8. -/
theorem ctlAction_plain {s : State} {pcie : Bool} {a : Nat} (v : Word) (hblock : blockOf a ∈ [0x02, 0x03, 0x04, 0x11, 0x13])
    (hoff : offOf a ≠ 0) (halloc : a ≠ R.NSA_ALLOC) : ctlAction s pcie a v = plainWrite s a v := by
  have hlpe : a ≠ R.LPE_CFG := by rintro rfl; exact absurd hblock (by decide)
  have hscn : a ≠ R.SCN_CFG := by rintro rfl; exact absurd hblock (by decide)
  have hrange : rangeBad s a v.toNat = false := by simp [rangeBad, halloc, hlpe, hscn]
  simp only [List.mem_cons, List.not_mem_nil, or_false] at hblock
  rcases hblock with h | h | h | h | h <;> simp [ctlAction, h, hoff, hrange]

/-- The standby takes no setting of these blocks but DPO_CTRL from the active module. -/
theorem not_shared_of_plainBlock {a : Nat} (hblock : blockOf a ∈ [0x02, 0x03, 0x04, 0x11, 0x13]) (hoff : offOf a ≠ 0) :
    sharedSettings.contains a = false := by
  have listed : ∀ a ∈ sharedSettings, ¬ (blockOf a ∈ [0x02, 0x03, 0x04, 0x11, 0x13] ∧ offOf a ≠ 0) := by decide
  simpa using fun hmem => listed a hmem ⟨hblock, hoff⟩

/-- Settles O29: the store is the plain write, whose value R8 gives bit by bit. -/
theorem fieldTypes : Obligations.FieldTypes := by
  intro a v s r hbus hblock hoff halloc hr hb
  have hstore : regStore s false a.toNat 4 v =
      setReg s a.toNat (BitVec.ofNat 32 (writtenValue r (getReg s a.toNat).toNat v.toNat)) := by
    rw [regStore_of_takes hbus ⟨r, hr, hb⟩, ctlAction_plain v hblock hoff halloc,
      shareSetting_of_unshared _ _ (not_shared_of_plainBlock hblock hoff), plainWrite_of_takes hr hb]
  refine ⟨_, (exec_registerWrite ..).trans (congrArg _ hstore), ?_, rfl, ?_⟩
  · exact fun b hb => getReg_setReg_ne _ _ _ _ (by simpa using hb)
  intro f hf j hlo hhi
  have hlaid := laidOut_of_regDefAt hr
  have hj : j < 32 := by have := (hlaid.1 f hf).2; omega
  rw [getReg_setReg_same, BitVec.getLsbD_ofNat, testBit_writtenValue hlaid hf ⟨hlo, hhi⟩]
  cases f.kind <;> simp [hj, BitVec.testBit_toNat]

/-! ### Bus errors (R6) -/

theorem ctlBusErr_of_width_or_alignment (s : State) (pcie : Bool) {a size : Nat} (h : size ≠ 4 ∨ a % 4 ≠ 0) :
    ctlBusErr s pcie a size = true := by
  rcases h with h | h <;> simp [ctlBusErr, h]

theorem get64_set64 (s : State) {lo hi : Nat} (v : Nat) (h : lo ≠ hi) : get64 (set64 s lo hi v) lo hi = v % 2 ^ 64 := by
  rw [get64, set64, getReg_setReg_same, getReg_setReg_ne _ _ _ _ h, getReg_setReg_same]
  simp only [BitVec.toNat_ofNat]
  omega

theorem getF_set64_ne (s : State) (f : Fld) {lo hi : Nat} (v : Nat) (hlo : f.addr ≠ lo) (hhi : f.addr ≠ hi) :
    getF (set64 s lo hi v) f = getF s f := by
  simp only [getF, getFi, Fld.at, Nat.mul_zero, Nat.add_zero, set64, getReg_setReg_ne _ _ _ _ hhi, getReg_setReg_ne _ _ _ _ hlo]

@[simp] theorem getF_busErr (s : State) (a : Nat) : getF (busErr s a) F.SYS_STATUS_BUS_ERR = 1 := by
  rw [busErr, getF_set64_ne _ _ _ (by decide) (by decide)]
  exact getF_setF_same s F.SYS_STATUS_BUS_ERR 1 ⟨by decide, by decide⟩

/-- SYS_BUS_ERR shows the low 40 bits of the address. -/
@[simp] theorem get64_busErr (s : State) (a : Nat) : get64 (busErr s a) R.SYS_BUS_ERR_LO R.SYS_BUS_ERR_HI = a % 2 ^ 40 := by
  rw [busErr, get64_set64 _ _ (by decide)]
  omega

theorem busErr_sameRegsBut (s : State) (a : Nat) :
    SameRegsBut [R.SYS_STATUS, R.SYS_BUS_ERR_LO, R.SYS_BUS_ERR_HI] s (busErr s a) := by
  intro b hb
  simp only [List.mem_cons, List.not_mem_nil, or_false, not_or] at hb
  obtain ⟨hstatus, hlo, hhi⟩ := hb
  exact getReg_busErr s a b hstatus hlo hhi

/-- Settles O30: a store and a read alike meet the check of R6. -/
theorem busErrors : Obligations.BusErrors := by
  intro a v size pcie s hbad i hi
  have hbus := ctlBusErr_of_width_or_alignment s pcie hbad
  have hexec : exec i s = .next (busErr s a.toNat) := by
    simp only [List.mem_cons, List.not_mem_nil, or_false] at hi
    rcases hi with rfl | rfl
    · rw [exec_registerWrite, regStore_of_busErr v hbus]
    · rw [exec_loRegisterRead, if_pos hbus]
  exact ⟨_, hexec, getF_busErr s _, get64_busErr s _, busErr_sameRegsBut s _, busErr_only s _⟩

/-! ### The latch of a pair (R7) -/

theorem hiOfLo_eq_add_four {a h : Nat} (hp : hiOfLo a = some h) : h = a + 4 := by
  have listed : ∀ p ∈ regPairs, p.delta = 4 := by decide
  obtain ⟨p, hfind, rfl⟩ := Option.map_eq_some_iff.1 hp
  rw [listed p (List.mem_of_find?_eq_some hfind)]

/-- NSA_CLUSTER, whose read shows the busy clusters, is no _HI register. -/
theorem hiOfLo_ne_cluster {a h : Nat} (hp : hiOfLo a = some h) : h ≠ R.NSA_CLUSTER := by
  rintro rfl
  have ha : a = R.NSA_CLUSTER - 4 := by have := hiOfLo_eq_add_four hp; omega
  have hnone : hiOfLo (R.NSA_CLUSTER - 4) = none := by decide
  simp [ha, hnone] at hp

theorem readReg_lo {s : State} {a h : Nat} (hp : hiOfLo a = some h) :
    readReg s a = (getReg s a, putLatch s h (getReg s h)) := by simp [readReg, hp]

theorem readReg_latched {s : State} {a : Nat} {r : Word × State} (hp : hiOfLo a = none) (hl : takeLatch s a = some r) :
    readReg s a = r := by simp [readReg, hp, hl]

theorem readReg_live {s : State} {a : Nat} (hp : hiOfLo a = none) (ha : a ≠ R.NSA_CLUSTER) (hl : takeLatch s a = none) :
    readReg s a = (getReg s a, s) := by simp [readReg, hp, hl, ha]

/-- The state with the latched word of a _HI register dropped. -/
def dropLatch (s : State) (a : Nat) : State := { s with hiLatch := s.hiLatch.filter fun e => e.1 != a }

/-- A latched word is there to be taken. -/
@[simp] theorem takeLatch_putLatch (s : State) (a : Nat) (w : Word) :
    takeLatch (putLatch s a w) a = some (w, dropLatch (putLatch s a w) a) := by
  have below : (s.hiLatch.filter fun e => e.1 < a).find? (fun e => e.1 = a) = none := by
    simp only [List.find?_eq_none, List.mem_filter, decide_eq_true_eq]
    rintro e ⟨-, he⟩ rfl
    omega
  simp [takeLatch, putLatch, dropLatch, List.find?_append, below]

/-- A latch is taken once. -/
@[simp] theorem takeLatch_dropLatch (s : State) (a : Nat) : takeLatch (dropLatch s a) a = none := by
  simp [takeLatch, dropLatch]

/-- The latch holds whatever a register is set to. -/
theorem takeLatch_setReg (s : State) (a b : Nat) (v : Word) :
    takeLatch (setReg s b v) a = (takeLatch s a).map fun r => (r.1, setReg r.2 b v) := by
  simp [takeLatch, Option.map_map, Function.comp_def, setReg]

theorem ctlBusErr_congr {s t : State} (h : t.regs = s.regs) (a size : Nat) :
    ctlBusErr t false a size = ctlBusErr s false a size := by
  simp [ctlBusErr, gateOff, getReg_congr h]

/-- Settles O31: the read of _LO puts the word in the latch, and the first read of _HI takes it. -/
theorem pairLatch : Obligations.PairLatch := by
  intro a h s hbusLo hbusHi hpair hhi
  have hput := takeLatch_putLatch s h.toNat (getReg s h.toNat)
  have hdrop := takeLatch_dropLatch (putLatch s h.toNat (getReg s h.toNat)) h.toNat
  generalize hu : putLatch s h.toNat (getReg s h.toNat) = u at hput hdrop
  have hregs : u.regs = s.regs := by rw [← hu]; rfl
  refine ⟨u, ?_, hregs, ?_, fun v => ?_, dropLatch u h.toNat, ?_, hregs, fun v => ?_⟩
  · rw [exec_loRegisterRead, if_neg (by simpa using hbusLo), readReg_lo hpair, hu]
  · rw [readReg_latched hhi hput]
  · rw [readReg_latched hhi (by rw [takeLatch_setReg, hput]; rfl)]
  · rw [exec_loRegisterRead, if_neg (by simpa [ctlBusErr_congr hregs] using hbusHi), readReg_latched hhi hput]
  · rw [readReg_live hhi (hiOfLo_ne_cluster hpair) (by rw [takeLatch_setReg, hdrop]; rfl), getReg_setReg_same]

/-! ### The state after reset (R8, R418) -/

theorem getReg_reset (a : Nat) : getReg State.reset a = resetWord a := rfl

theorem fuseWord_reset (w : Nat) : fuseWord State.reset w = 0 := rfl

theorem canonical_reset : Canonical State.reset := ⟨rfl, rfl, rfl, rfl, rfl, rfl⟩

theorem step_of_idle {s : State} (h : s.pending = []) : step s = .next s := by
  unfold step
  rw [h]

/-- Settles O59: the reset state lists no register, fuse or byte, so each reads as its reset value. -/
theorem resetState : Obligations.ResetState :=
  ⟨getReg_reset, fuseWord_reset, canonical_reset, rfl, rfl, fun _ => step_of_idle⟩

end Sys2Proof.Machine
end

section
/-!
PROOFS. The network cycle and the task periods (01 R20, R25, R26, 06 R144 to R147, 10 R244, R248): two statements that fail, with
the states at which they do.
-/
namespace Sys2Proof.Machine

/-! ### The close of a snapshot meters (R144 to R147) -/

/-- A thermal channel is enabled, with AGE_MAX 1, and the snapshot that is open holds usable telemetry of its session with a flow
of 1 in the forward direction. -/
def meteredSnapshot : State :=
  { setF State.reset F.RED_STATUS_ROLE roSINGLE with
    nsa := { Nsa.reset with open_ := some { bareSnap State.reset 0 with time := 1 } },
    ses := { Ses.reset with frozen := [(0, { Session.fresh with state := ssADMITTED, never := false, age := 0, q := 1 })] },
    mtr := { Mtr.reset with therm := [(0, [2 ^ 31 + 1, 0, 0, 0])] } }

/-- The volume register of the channel starts at 0 and takes 100 ms of the flow at the close. -/
theorem meteredSnapshot_volume : mtrReg meteredSnapshot (tKey 0 2) = 0 ∧
    mtrReg (closeSnapshot meteredSnapshot) (tKey 0 2) = 100 * 65536 := by decide +kernel

theorem exec_snapshotClose {s : State} (h : roleOf s ≠ roSTANDBY) : exec .snapshotClose s = .next (closeSnapshot s) := by
  change Host.Outcome.next (if roleOf s = roSTANDBY then s else closeSnapshot s) = _
  rw [if_neg h]

/-- Refutes O41: SNAPSHOT_CLOSE takes the thermal samples of its instant (R20 step 2, R144), which raise the registers of the
channels that are enabled, so the metering registers are not as before. -/
theorem not_networkCycle : ¬ Obligations.NetworkCycle := by
  rintro ⟨-, -, snapshotCloses, -⟩
  have hrole : roleOf meteredSnapshot ≠ roSTANDBY := by decide +kernel
  obtain ⟨u, hu, -, -, -, hregs⟩ := snapshotCloses meteredSnapshot _ hrole rfl
  rw [exec_snapshotClose hrole, Host.Outcome.next.injEq] at hu
  obtain ⟨hbefore, hafter⟩ := meteredSnapshot_volume
  have hsame : mtrReg u (tKey 0 2) = mtrReg meteredSnapshot (tKey 0 2) := by simp only [mtrReg, hregs]
  rw [← hu, hafter, hbefore] at hsame
  exact absurd hsame (by decide)

/-! ### A core that holds no task of the program (R244) -/

/-- A task of 1 ms on core 0 whose scan may run one period longer. -/
def lateTask : TaskRec := { entry := 0, task := 0, core := 0, prio := 0, halt := false, ovrMax := 1, period := 4 }

def lateProgram : Program :=
  { serial := 1, codeLen := 4, constLen := 0, consts := [], retLen := 0, nonretLen := 0, tasks := [lateTask], pages := [],
    insts := [], tags := [], netMs := 100, dispMult := 10, canRecover := [], projectId := 0, iomap := [], chkUnits := [] }

/-- The scan of the period before, at its entry. -/
def lateScan : Scan :=
  { period := 0, pstart := 0, late := 0, begun := true, saved := RegCtx.zero, undo := [], buf := [], calls := [], ticket := 0,
    ckpt := { ctx := RegCtx.zero, ticket := 0, undoMark := 0, bufMark := 0, callMark := 0 }, info := 0, faulted := none,
    frozenIn := [], frozenOut := [], frozenShared := [], frozenForces := [], view := engineView State.reset }

/-- At 1 ms the period of `lateTask` starts while its scan still runs, its overrun counter stands at 0x60000000, and core 0 holds
task 48, which no program has: the SCN_TASK_STAT of that number would lie where the overrun counter of task 0 does. -/
def strayTask : State :=
  let s := setFi (setF State.reset F.RED_STATUS_ROLE roSINGLE) F.SCN_TASK_OVR_VALUE 0 0x60000000
  let s := modCore (setScan s 0 (some lateScan)) 0 fun k => { k with running := some 48 }
  { s with runState := true, prog := some lateProgram, tim := { s.tim with tb1 := 1000000 * tbUnit } }

theorem strayTask_overruns : tickDone strayTask = false ∧ strayTask.runState = true ∧ executes strayTask = true ∧
    atExchange strayTask = false ∧ dueTasks strayTask = [lateTask] ∧ scanOf strayTask lateTask.task = some lateScan := by
  decide +kernel

/-- The counter before and after the period start: the preemption of task 48 puts 4 in the upper three bits, which hold 3. -/
theorem strayTask_counter : getFi strayTask F.SCN_TASK_OVR_VALUE 0 = 0x60000000 ∧
    getFi (item4 (startPeriods strayTask [lateTask])) F.SCN_TASK_OVR_VALUE 0 = 0x80000001 := by decide +kernel

theorem reachTick_of_underWay {s : State} (h : tickDone s = false) : reachTick s = s := by simp [reachTick, h]

theorem exec_taskPeriodStart {s : State} (hdone : tickDone s = false) (hrun : s.runState = true) (hex : executes s = true)
    (hexch : atExchange s = false) (hdue : dueTasks s ≠ []) :
    exec .taskPeriodStart s = .next (item4 (startPeriods s (dueTasks s))) := by
  change execTaskPeriodStart s = _
  simp [execTaskPeriodStart, reachTick_of_underWay hdone, running, hrun, hex, hexch, hdue]

/-- Refutes O44: the statement leaves the task that a core holds free, and a core that holds a task number beyond the 16 of
R237 is preempted through a status register that is the overrun counter of another task. -/
theorem not_taskPeriods : ¬ Obligations.TaskPeriods := by
  rintro ⟨-, -, -, overruns, -⟩
  obtain ⟨hdone, hrun, hex, hexch, hdue, hscan⟩ := strayTask_overruns
  obtain ⟨u, hu, -, hcount, -⟩ := overruns strayTask lateTask lateScan hdone hrun hex hexch hdue hscan (by decide)
  rw [exec_taskPeriodStart hdone hrun hex hexch (by simp [hdue]), hdue, Host.Outcome.next.injEq] at hu
  obtain ⟨hbefore, hafter⟩ := strayTask_counter
  have hcounted := hcount rfl
  rw [← hu] at hcounted
  change getFi _ F.SCN_TASK_OVR_VALUE 0 = (getFi _ F.SCN_TASK_OVR_VALUE 0 + 1) % _ at hcounted
  rw [hafter, hbefore] at hcounted
  exact absurd hcounted (by decide)

end Sys2Proof.Machine
end

section
/-!
PROOFS. A tick of the loop engine (01 R27, 05 R116, 19 R463): what each part of it leaves alone, and O33.
-/
namespace Sys2Proof.Machine

/-! ### What a part of the tick leaves alone -/

/-- What a part of the tick keeps beside the fields that every part keeps: the memory, the loop engine, the dispatch, and the
registers of a set that lies below the pair's. -/
structure Kept where
  mem : Prop
  lpe : Prop
  dpo : Prop
  reg : Nat → Prop
  below : ∀ a, reg a → a ≤ R.RED_STATUS

/-- `t` comes from `s` by a part of the tick that keeps `k`. -/
structure TickFrame (k : Kept) (s t : State) : Prop where
  runState : t.runState = s.runState
  tim : t.tim = s.tim
  inst : t.inst = s.inst
  boot : t.boot = s.boot
  prog : t.prog = s.prog
  taking : t.red.taking = s.red.taking
  mem : k.mem → t.mem = s.mem
  lpe : k.lpe → t.lpe = s.lpe
  dpo : k.dpo → t.dpo = s.dpo
  regs : ∀ a, k.reg a → getReg t a = getReg s a

namespace TickFrame

variable {k : Kept} {s t u : State}

theorem refl (k : Kept) (s : State) : TickFrame k s s := 
  ⟨rfl, rfl, rfl, rfl, rfl, rfl, fun _ => rfl, fun _ => rfl, fun _ => rfl, fun _ _ => rfl⟩

theorem trans (h : TickFrame k s t) (g : TickFrame k t u) : TickFrame k s u :=
  ⟨g.runState.trans h.runState, g.tim.trans h.tim, g.inst.trans h.inst, g.boot.trans h.boot, g.prog.trans h.prog,
    g.taking.trans h.taking, fun m => (g.mem m).trans (h.mem m), fun l => (g.lpe l).trans (h.lpe l),
    fun d => (g.dpo d).trans (h.dpo d), fun a r => (g.regs a r).trans (h.regs a r)⟩

/-- What every part keeps, and the registers. -/
def fieldsKept (s : State) := (s.runState, s.tim, s.inst, s.boot, s.prog, s.red.taking, s.regs)

/-- A part that sets no register and none of the fields that every part keeps. -/
theorem after_fields (h : TickFrame k s t) (hfields : fieldsKept u = fieldsKept t) (hmem : k.mem → u.mem = t.mem)
    (hlpe : k.lpe → u.lpe = t.lpe) (hdpo : k.dpo → u.dpo = t.dpo) : TickFrame k s u := by
  simp only [fieldsKept, Prod.mk.injEq] at hfields
  obtain ⟨hrun, htim, hinst, hboot, hprog, htaking, hregs⟩ := hfields
  exact h.trans ⟨hrun, htim, hinst, hboot, hprog, htaking, hmem, hlpe, hdpo, fun a _ => getReg_congr hregs a⟩

/-- A part that sets fields alone that no part of the tick has to keep. -/
theorem after_others (h : TickFrame k s t) (hfields : fieldsKept u = fieldsKept t)
    (hparts : (u.mem, u.lpe, u.dpo) = (t.mem, t.lpe, t.dpo)) : TickFrame k s u := by
  simp only [Prod.mk.injEq] at hparts
  obtain ⟨hmem, hlpe, hdpo⟩ := hparts
  exact h.after_fields hfields (fun _ => hmem) (fun _ => hlpe) fun _ => hdpo

theorem after_modTask {n : Fin 16} {f : Task → Task} (h : TickFrame k s t) : TickFrame k s (modTask t n f) :=
  h.after_others rfl rfl

theorem after_modCore {c : Fin 6} {f : Core → Core} (h : TickFrame k s t) : TickFrame k s (modCore t c f) :=
  h.after_others rfl rfl

theorem after_mtr {x : Mtr} (h : TickFrame k s t) : TickFrame k s { t with mtr := x } := h.after_others rfl rfl

theorem after_ses {x : Ses} (h : TickFrame k s t) : TickFrame k s { t with ses := x } := h.after_others rfl rfl

theorem after_fio {x : Fio} (h : TickFrame k s t) : TickFrame k s { t with fio := x } := h.after_others rfl rfl

theorem after_red {x : Red} (hx : x.taking = t.red.taking) (h : TickFrame k s t) : TickFrame k s { t with red := x } :=
  h.after_others (by simp [fieldsKept, hx]) rfl

theorem after_forAll {α : Type} {l : List α} {f : State → α → State} (h : TickFrame k s t)
    (hf : ∀ v x, TickFrame k s v → TickFrame k s (f v x)) : TickFrame k s (forAll t l f) := by
  induction l generalizing t with
  | nil => exact h
  | cons x l ih => exact ih (hf t x h)

theorem after_ite {c : Prop} [Decidable c] (ht : TickFrame k s t) (hu : TickFrame k s u) :
    TickFrame k s (if c then t else u) := by
  split <;> assumption

/-- A part that is carried out under a condition. -/
theorem after_when {c : Prop} [Decidable c] (h : TickFrame k s t) (hu : TickFrame k s t → TickFrame k s u) :
    TickFrame k s (if c then u else t) := after_ite (hu h) h

theorem after_unless {c : Prop} [Decidable c] (h : TickFrame k s t) (hu : TickFrame k s t → TickFrame k s u) :
    TickFrame k s (if c then t else u) := after_ite h (hu h)

theorem after_setReg {a : Nat} {v : Word} (h : TickFrame k s t) (ha : ¬ k.reg a) : TickFrame k s (setReg t a v) :=
  h.trans ⟨rfl, rfl, rfl, rfl, rfl, rfl, fun _ => rfl, fun _ => rfl, fun _ => rfl,
    fun _ hb => getReg_setReg_ne _ _ _ _ fun e => ha (e ▸ hb)⟩

theorem after_setFi {f : Fld} {i v : Nat} (h : TickFrame k s t) (hf : ¬ k.reg (f.at i)) : TickFrame k s (setFi t f i v) :=
  h.after_setReg hf

/-- A field above the registers of the pair's status is never one that is kept. -/
theorem after_setUpper {f : Fld} {v : Nat} (hf : R.RED_STATUS < f.addr) (h : TickFrame k s t) :
    TickFrame k s (setF t f v) :=
  h.after_setReg fun hk => absurd (k.below _ hk) (by simpa [Fld.at] using hf)

theorem after_evrSubmit {r : EvrRec} (h : TickFrame k s t) : TickFrame k s (evrSubmit t r) := by
  unfold evrSubmit
  refine after_ite (after_setUpper (by decide) (after_others h rfl rfl))
    (after_setUpper (by decide) (h.after_setReg fun hk => ?_))
  have : F.EVR_DROP_COUNT.at r.sev ≤ 0xF0080004 := k.below _ hk
  simp only [Fld.at, F.EVR_DROP_COUNT] at this
  omega

theorem after_ev {b e v : Nat} {l : List Nat} (h : TickFrame k s t) : TickFrame k s (ev t b e v l) := h.after_evrSubmit

theorem after_evUpper {f : Fld} {v : Nat} {l : List Nat} (hf : R.RED_STATUS < f.addr) (h : TickFrame k s t) :
    TickFrame k s (evBit t f v l) := (h.after_setUpper hf).after_ev

theorem after_send {m : OutMsg} (h : TickFrame k s t) : TickFrame k s (send t m) := h.after_others rfl rfl

theorem after_furovSend {b : FurovBody} (h : TickFrame k s t) : TickFrame k s (furovSend t b) := by
  unfold furovSend
  exact after_ite (after_send (after_others h rfl rfl)) h

theorem after_digestUnit {a b c : Nat} {l : List Byte} (h : TickFrame k s t) : TickFrame k s (digestUnit t a b c l) := by
  unfold digestUnit
  exact after_ite (after_furovSend (after_others h rfl rfl)) h

end TickFrame

/-! ### Scheduling (R244) -/

/-- Scheduling keeps the clocks', gates' and supply's registers. -/
abbrev schedulingKept : Kept := 
  ⟨True, True, True, fun a => a < 0xF0030000, fun _ h => Nat.le_trans (Nat.le_of_lt h) (by decide)⟩

/-- The status field of a task number lies above those registers, whatever the number. -/
theorem not_schedulingKept_taskStat (t : Nat) : ¬ schedulingKept.reg (F.SCN_TASK_STAT_STATE.at t) := by
  simp only [Fld.at, F.SCN_TASK_STAT_STATE]
  omega

namespace TickFrame

variable {s t : State}

theorem after_saveRunning (h : TickFrame schedulingKept s t) (c : Fin 6) : TickFrame schedulingKept s (saveRunning t c) := by
  unfold saveRunning
  split
  · exact h
  · exact .after_modCore (.after_ite (.after_setFi (.after_modTask h) (not_schedulingKept_taskStat _)) (.after_modTask h))

theorem after_resumeScan (h : TickFrame schedulingKept s t) (c : Fin 6) (n : Nat) :
    TickFrame schedulingKept s (resumeScan t c n) := by
  unfold resumeScan
  split
  · exact h
  · exact .after_modCore (.after_setFi (.after_modTask h) (not_schedulingKept_taskStat _))

theorem after_schedule (h : TickFrame schedulingKept s t) (c : Fin 6) : TickFrame schedulingKept s (schedule t c) := by
  unfold schedule
  refine .after_ite h ?_
  split
  · exact h
  · exact h.after_resumeScan c _
  · exact .after_ite h (.after_resumeScan (.after_setFi (h.after_saveRunning c) (by decide)) c _)

end TickFrame

/-- The contender of highest priority is one of the 16 tasks. -/
theorem bestTask_lt {s : State} {c t : Nat} (h : bestTask s c = some t) : t < 16 := by
  have mem : ∀ t, bestTask s c = some t → t ∈ contenders s c := by
    refine List.foldlRecOn (motive := fun b => ∀ t, b = some t → t ∈ contenders s c) _ _ (by simp) ?_
    intro b hb x hx t ht
    cases b with
    | none => cases ht; exact hx
    | some u =>
      dsimp only at ht
      split at ht
      · cases ht; exact hx
      · exact hb t ht
  have ht := mem t h
  simp only [contenders, List.mem_filter, List.mem_range] at ht
  exact ht.1

theorem roleOf_modCore (s : State) (c : Fin 6) (f : Core → Core) : roleOf (modCore s c f) = roleOf s := rfl

/-- A status field of a task that is not the role's register leaves the role. -/
theorem roleOf_setFi_taskStat (s : State) {t : Nat} (v : Nat) (h : F.RED_STATUS_ROLE.at 0 ≠ F.SCN_TASK_STAT_STATE.at t) :
    roleOf (setFi s F.SCN_TASK_STAT_STATE t v) = roleOf s := getFi_setFi_ne _ _ _ _ _ _ h

/-- The status field of a task that reads RUNNING is not the upper part of the role SINGLE. -/
theorem taskStat_ne_role {s : State} {t : Nat} (hrole : roleOf s = roSINGLE)
    (hstate : getFi s F.SCN_TASK_STAT_STATE t = tsRunning) : F.RED_STATUS_ROLE.at 0 ≠ F.SCN_TASK_STAT_STATE.at t := by
  intro h
  simp only [roleOf, getF, getFi, h] at hrole hstate
  generalize getReg s _ = w at hrole hstate
  simp only [fieldOf, bitsOf, F.RED_STATUS_ROLE, F.SCN_TASK_STAT_STATE, roSINGLE, tsRunning,
    Nat.shiftRight_eq_div_pow] at hrole hstate
  omega

theorem roleOf_saveRunning {s : State} (h : roleOf s = roSINGLE) (c : Fin 6) : roleOf (saveRunning s c) = roSINGLE := by
  unfold saveRunning
  split
  · exact h
  · rw [roleOf_modCore]
    split
    · next hstate => exact (roleOf_setFi_taskStat _ _ (taskStat_ne_role h hstate)).trans h
    · exact h

theorem roleOf_resumeScan (s : State) (c : Fin 6) {t : Nat} (ht : t < 16) : roleOf (resumeScan s c t) = roleOf s := by
  unfold resumeScan
  split
  · rfl
  · refine roleOf_setFi_taskStat _ _ ?_
    simp only [Fld.at, F.RED_STATUS_ROLE, F.SCN_TASK_STAT_STATE]
    omega

theorem roleOf_schedule {s : State} (h : roleOf s = roSINGLE) (c : Fin 6) : roleOf (schedule s c) = roSINGLE := by
  unfold schedule
  split
  · exact h
  · split
    · exact h
    · next hbest => rw [roleOf_resumeScan _ _ (bestTask_lt hbest), h]
    · next hbest =>
      split
      · exact h
      · rw [roleOf_resumeScan _ _ (bestTask_lt hbest)]
        exact (getFi_setFi_ne _ _ _ _ _ _ (by decide)).trans (roleOf_saveRunning h c)

/-! ### The dispatch instant (R24, R112) -/

/-- A dispatch instant keeps the registers that scheduling keeps, and that of the role. -/
abbrev dispatchKept : Kept :=
  ⟨False, True, False, fun a => a < 0xF0030000 ∨ a = R.RED_STATUS,
    fun _ h => h.elim (fun h => Nat.le_trans (Nat.le_of_lt h) (by decide)) Nat.le_of_eq⟩

/-- What became of the job of the previous dispatch instant. -/
def settleJob (s : State) : State :=
  match s.dpo.job with
  | some x => dpoAbort s x 1 0 (usSince x.start (nowNs s))
  | none => match s.dpo.due with
    | some d => dpoOutcome s d.1 7
    | none => s

/-- The plan block that the job left, written into the user region. -/
def writePlan (s : State) : State :=
  match s.dpo.plan with
  | some (a, b) => { s with mem := memPut s.mem (userBase + a) b, dpo := { s.dpo with plan := none } }
  | none => s

/-- The table of dispatch instant `j`: that of the job that has ended, or the one in force. -/
def settleEnded (s : State) (j : Nat) : State :=
  match s.dpo.ended with
  | some (i, o) =>
    let s := { s with dpo := { s.dpo with ended := none } }
    if o = 0 && i + 1 = j then (match s.dpo.next with | some t => tableInForce s t | none => s)
    else tableKept s o
  | none => s

theorem settleNow_eq (s : State) (j : Nat) : settleNow s j = settleEnded (writePlan (settleJob s)) j := rfl

namespace TickFrame

variable {s t : State}

theorem after_dpo {x : Dpo} (h : TickFrame dispatchKept s t) : TickFrame dispatchKept s { t with dpo := x } :=
  h.after_fields rfl (fun _ => rfl) (fun _ => rfl) False.elim

theorem after_dpoField {f : Fld} {v : Nat} (hf : ¬ dispatchKept.reg f.addr) (h : TickFrame dispatchKept s t) :
    TickFrame dispatchKept s (setF t f v) := h.after_setReg hf

theorem after_dpoOutcome (h : TickFrame dispatchKept s t) (j o : Nat) : TickFrame dispatchKept s (dpoOutcome t j o) := by
  have bit : ∀ f, outcomeBit o = some f → ¬ dispatchKept.reg f.addr := by
    intro f hf
    unfold outcomeBit at hf
    split at hf <;> cases hf <;> decide
  unfold dpoOutcome
  split
  · next f hf => exact .after_dpoField (bit f hf) (.after_dpoField (by decide) (.after_dpo h))
  · exact .after_dpoField (by decide) (.after_dpo h)

theorem after_holdPlan (h : TickFrame dispatchKept s t) (d : List Nat) (b : List Byte) :
    TickFrame dispatchKept s (holdPlan t d b) := by
  unfold holdPlan
  exact .after_ite h (.after_dpo h)

theorem after_dispatchTold (h : TickFrame dispatchKept s t) (j o i e : Nat) (r : Bool) :
    TickFrame dispatchKept s (dispatchTold t j o i e r) := by
  unfold dispatchTold sendEntry
  exact .after_ite (.after_furovSend h) h

theorem after_endDispatch (h : TickFrame dispatchKept s t) : TickFrame dispatchKept s (endDispatch t) :=
  .after_dpoField (by decide) (.after_dpo h)

theorem after_dpoAbort (h : TickFrame dispatchKept s t) (j : Job) (o i e : Nat) :
    TickFrame dispatchKept s (dpoAbort t j o i e) := by
  unfold dpoAbort
  split
  · exact .after_dispatchTold (.after_endDispatch (.after_dpoOutcome (.after_dpoField (by decide) (.after_dpoField (by decide)
      (h.after_holdPlan _ _))) _ _)) _ _ _ _ _
  · exact h

theorem after_tableInForce (h : TickFrame dispatchKept s t) (x : DecTable) : TickFrame dispatchKept s (tableInForce t x) := by
  unfold tableInForce
  refine .after_dpoField (by decide) (.after_setReg (.after_setReg (.after_dpo ?_) (by decide)) (by decide))
  split
  · split
    · exact h
    · exact h.after_ev
  · exact h

theorem after_tableKept (h : TickFrame dispatchKept s t) (o : Nat) : TickFrame dispatchKept s (tableKept t o) := by
  unfold tableKept
  exact .after_ite (.after_dpoField (by decide) h) (.after_ev (.after_dpoField (by decide) h))

theorem after_settleJob (h : TickFrame dispatchKept s t) : TickFrame dispatchKept s (settleJob t) := by
  unfold settleJob
  split
  · exact h.after_dpoAbort _ _ _ _
  · split
    · exact h.after_dpoOutcome _ _
    · exact h

theorem after_writePlan (h : TickFrame dispatchKept s t) : TickFrame dispatchKept s (writePlan t) := by
  unfold writePlan
  split
  · exact h.after_fields rfl False.elim (fun _ => rfl) False.elim
  · exact h

theorem after_settleEnded (h : TickFrame dispatchKept s t) (j : Nat) : TickFrame dispatchKept s (settleEnded t j) := by
  unfold settleEnded
  split
  · refine .after_ite ?_ (.after_tableKept (.after_dpo h) _)
    split
    · exact .after_tableInForce (.after_dpo h) _
    · exact .after_dpo h
  · exact h

theorem after_settleNow (h : TickFrame dispatchKept s t) (j : Nat) : TickFrame dispatchKept s (settleNow t j) :=
  settleNow_eq t j ▸ h.after_settleJob.after_writePlan.after_settleEnded j

theorem after_settlePrevious (h : TickFrame dispatchKept s t) (j : Nat) : TickFrame dispatchKept s (settlePrevious t j) := by
  unfold settlePrevious
  exact .after_ite (.after_dpo h) (h.after_settleNow j)

theorem after_digestTable (h : TickFrame dispatchKept s t) (j : Nat) : TickFrame dispatchKept s (digestTable t j) := by
  unfold digestTable
  split
  · exact h.after_digestUnit
  · exact h

theorem after_dispatchMet (h : TickFrame dispatchKept s t) : TickFrame dispatchKept s (dispatchMet t) := by
  unfold dispatchMet
  refine .after_ite ?_ (.after_ite (.after_dpoOutcome ?_ _ _) (.after_ite (.after_dpoOutcome ?_ _ _) (.after_dpo ?_))) <;>
    exact .after_ite (.after_settlePrevious (.after_dpo h) _) (.after_digestTable (.after_settlePrevious (.after_dpo h) _) _)

theorem after_meetDispatch (h : TickFrame dispatchKept s t) : TickFrame dispatchKept s (meetDispatch t) := by
  unfold meetDispatch
  exact .after_ite h.after_dispatchMet h

end TickFrame

/-! ### The loop evaluations (R118, R126, R130) -/

/-- From the supply's readings on, a tick keeps them and the memory, and but for the loop evaluations the loop engine. -/
abbrev supplyKept (lpe : Prop) : Kept :=
  ⟨True, lpe, True, fun a => 0xF0020000 ≤ a ∧ a < 0xF0030000, fun _ h => Nat.le_trans (Nat.le_of_lt h.2) (by decide)⟩

namespace TickFrame

variable {lpe : Prop} {s t : State}

/-- An element of a register array that starts above the supply's registers lies above them, whatever its index. -/
theorem after_setAbove {f : Fld} {i v : Nat} (hf : 0xF0030000 ≤ f.addr) (h : TickFrame (supplyKept lpe) s t) :
    TickFrame (supplyKept lpe) s (setFi t f i v) :=
  h.after_setReg fun hr => absurd (Nat.le_trans hf (Nat.le_add_right _ _)) (Nat.not_le.mpr hr.2)

theorem after_lpe {x : Lpe} (h : TickFrame (supplyKept False) s t) :
    TickFrame (supplyKept False) s { t with lpe := x } := h.after_fields rfl (fun _ => rfl) False.elim fun _ => rfl

theorem after_modLoop {i : Nat} {f : Loop → Loop} (h : TickFrame (supplyKept False) s t) :
    TickFrame (supplyKept False) s (modLoop t i f) := h.after_lpe

theorem after_modGroup {g : Nat} {f : LoopGroup → LoopGroup} (h : TickFrame (supplyKept False) s t) :
    TickFrame (supplyKept False) s (modGroup t g f) := h.after_lpe

theorem after_showLoop (h : TickFrame (supplyKept lpe) s t) (i : Nat) : TickFrame (supplyKept lpe) s (showLoop t i) := by
  unfold showLoop
  split
  · exact h
  · exact .after_setAbove (by decide) <| .after_setAbove (by decide) <| .after_setAbove (by decide) <|
      .after_setAbove (by decide) <| .after_setAbove (by decide) h

theorem after_setSticky (h : TickFrame (supplyKept lpe) s t) (i fl : Nat) :
    TickFrame (supplyKept lpe) s (setSticky t i fl) := by
  unfold setSticky
  exact .after_unless h fun h => .after_setAbove (by decide) (.after_setAbove (by decide) (.after_setReg h fun hr => by
    have := hr.2
    simp only [Fld.at, F.LPE_LOOP_STAT_MODE] at this
    omega))

theorem after_showLpe (h : TickFrame (supplyKept lpe) s t) : TickFrame (supplyKept lpe) s (showLpe t) :=
  .after_setAbove (by decide) (.after_setAbove (by decide) (.after_setAbove (by decide) h))

theorem after_resolveLoop (h : TickFrame (supplyKept False) s t) (i : Nat) :
    TickFrame (supplyKept False) s (resolveLoop t i) := by
  unfold resolveLoop
  split
  · exact h
  · exact .after_unless h fun h => .after_when (.after_showLoop h.after_modLoop i) fun h => .after_setAbove (by decide) h

theorem after_loopEffect (h : TickFrame (supplyKept False) s t) (n i : Nat) :
    TickFrame (supplyKept False) s (loopEffect t n i) := by
  unfold loopEffect
  exact .after_unless (.after_showLoop h.after_modLoop i) fun h => h.after_resolveLoop i

theorem after_groupEffect (h : TickFrame (supplyKept False) s t) (n g : Nat) :
    TickFrame (supplyKept False) s (groupEffect t n g) := by
  unfold groupEffect
  split
  · exact h
  · split
    · exact .after_when h fun h => h.after_modGroup
    · exact h

theorem after_settle (h : TickFrame (supplyKept False) s t) (i : Nat) (w ff : Int) :
    TickFrame (supplyKept False) s (settle t i w ff) :=
  .after_showLoop (.after_setSticky h.after_modLoop _ _) _

theorem after_runLoop (h : TickFrame (supplyKept False) s t) (i : Nat) : TickFrame (supplyKept False) s (runLoop t i) := by
  unfold runLoop
  split
  · exact h
  · refine .after_unless (.after_setAbove (by decide) (.after_setSticky ?_ _ _)) fun h => ?_
    · exact .after_when (.after_when (.after_when (.after_setAbove (by decide) h.after_modLoop)
        fun h => .after_setAbove (by decide) h) fun h => .after_setAbove (by decide) h) fun h => .after_setAbove (by decide) h
    · exact .after_unless (.after_setAbove (by decide) (h.after_settle _ _ _)) fun h => h.after_lpe

theorem after_runGroup (h : TickFrame (supplyKept False) s t) (g : Nat) : TickFrame (supplyKept False) s (runGroup t g) := by
  unfold runGroup
  simp only
  split
  · exact .after_setAbove (by decide) (.after_forAll (.after_setAbove (by decide) h) fun _ _ h => h.after_setAbove (by decide))
  · split
    on_goal 1 => refine .after_unless ?_ fun h => h.after_lpe
    all_goals
      exact .after_setAbove (by decide) (.after_setAbove (by decide) (.after_setAbove (by decide) (.after_modGroup (.after_when
        (.after_forAll (.after_forAll (.after_setAbove (by decide) h) fun _ _ h => h.after_setAbove (by decide))
          fun _ e h => .after_setAbove (by decide) (h.after_settle e.1 _ _)) fun h => .after_setAbove (by decide) h))))

theorem after_lpeEvaluate (h : TickFrame (supplyKept False) s t) (n : Nat) :
    TickFrame (supplyKept False) s (lpeEvaluate t n) := by
  unfold lpeEvaluate
  refine .after_showLpe (.after_forAll (.after_forAll (.after_forAll (.after_forAll h fun _ i h => h.after_loopEffect n i)
    fun _ g h => h.after_groupEffect n g) fun _ i h => ?_)
    fun _ g h => .after_ite (h.after_runGroup g) (h.after_setAbove (by decide)))
  split
  · exact .after_when h fun h => h.after_runLoop i
  · exact h

end TickFrame

/-! ### What follows the loop evaluations (R116, R154, R292, R295, R310) -/

namespace TickFrame

variable {s t : State}

theorem after_pulseStarts (h : TickFrame (supplyKept True) s t) : TickFrame (supplyKept True) s (pulseStarts t) :=
  .after_forAll h fun _ _ h => .after_when h fun h => .after_mtr (.after_setAbove (by decide) (.after_setAbove (by decide) h))

theorem after_showFault {k : Kept} {s t : State} (h : TickFrame k s t) : TickFrame k s (showFault t) := by
  unfold showFault
  have shown : ∀ v, TickFrame k s (setF t F.FIO_STATUS_FAULT v) := fun _ => h.after_setUpper (by decide)
  exact .after_ite (.after_evUpper (by decide) (shown _)) (.after_ite (.after_ev (shown _)) (shown _))

theorem after_driveOutputs {k : Kept} {s t : State} (h : TickFrame k s t) : TickFrame k s (driveOutputs t) := by
  unfold driveOutputs
  exact .after_unless (.after_when (h.after_setUpper (by decide)) fun h => h.after_fio) fun h => .after_showFault h.after_fio

theorem after_putSes {k : Kept} {s t : State} (h : TickFrame k s t) (n : Nat) (x : Session) : TickFrame k s (putSes t n x) :=
  .after_setUpper (by decide) (.after_setUpper (by decide) (.after_setUpper (by decide) h.after_ses))

theorem after_sesSend {k : Kept} {s t : State} (h : TickFrame k s t) (n typ : Nat) (p : List Byte) :
    TickFrame k s (sesSend t n typ p) := .after_send (.after_ses (h.after_putSes n _))

theorem after_sesAdmit {k : Kept} {s t : State} (h : TickFrame k s t) (n : Nat) : TickFrame k s (sesAdmit t n) :=
  .after_sesSend (.after_setUpper (by decide) (.after_ses (h.after_putSes n _))) _ _ _

theorem after_admitTick {k : Kept} {s t : State} (h : TickFrame k s t) : TickFrame k s (admitTick t) := by
  unfold admitTick
  refine .after_unless h fun h => ?_
  cases oldestPending t with
  | none => exact h.after_ses
  | some n => exact .after_ite (.after_sesAdmit h.after_ses _) h.after_ses

theorem after_showHealth (h : TickFrame (supplyKept True) s t) : TickFrame (supplyKept True) s (showHealth t) :=
  .after_setAbove (by decide) (.after_setAbove (by decide) (.after_setAbove (by decide) (.after_setAbove (by decide) h)))

theorem after_showStalemate (h : TickFrame (supplyKept True) s t) : TickFrame (supplyKept True) s (showStalemate t) := by
  unfold showStalemate
  exact .after_when (h.after_setAbove (by decide)) fun h => h.after_evUpper (by decide)

theorem after_tickHealth (h : TickFrame (supplyKept True) s t) : TickFrame (supplyKept True) s (tickHealth t) := by
  unfold tickHealth
  exact .after_showStalemate (.after_showHealth (.after_red rfl (.after_when h fun h => h.after_evUpper (by decide))))

theorem after_mismatch (h : TickFrame (supplyKept True) s t) (k : Nat) (e : DigestEntry) :
    TickFrame (supplyKept True) s (mismatch t k e) := by
  unfold mismatch
  refine .after_unless (h.after_setAbove (by decide)) fun h => .after_showHealth ?_
  exact .after_setReg (.after_setReg (.after_setAbove (by decide) <| .after_setAbove (by decide) <| .after_setAbove (by decide) <|
    .after_setAbove (by decide) <| .after_setAbove (by decide) <| .after_evUpper (by decide) (.after_red rfl h)) (by decide))
    (by decide)

theorem after_compareDigests (h : TickFrame (supplyKept True) s t) : TickFrame (supplyKept True) s (compareDigests t) :=
  .after_forAll (.after_red rfl h) fun _ e h => h.after_mismatch 1 e

theorem after_closeGates (h : TickFrame (supplyKept True) s t) : TickFrame (supplyKept True) s (closeGates t) :=
  h.after_setReg (by decide)

theorem after_setRole (h : TickFrame (supplyKept True) s t) (r : Nat) : TickFrame (supplyKept True) s (setRole t r) := by
  unfold setRole
  exact .after_showHealth (.after_setAbove (by decide) (.after_when (.after_unless (.after_unless h fun h => h.after_red rfl)
    fun h => h.after_red rfl) fun h => h.after_red rfl))

theorem after_setDrive (h : TickFrame (supplyKept True) s t) (d : Nat) : TickFrame (supplyKept True) s (setDrive t d) := by
  unfold setDrive
  exact .after_driveOutputs (.after_setAbove (by decide) (.after_setAbove (by decide) (.after_setAbove (by decide) h)))

theorem after_dropToken (h : TickFrame (supplyKept True) s t) : TickFrame (supplyKept True) s (dropToken t) := by
  unfold dropToken sendToken
  refine .after_unless h fun h => .after_furovSend (.after_setDrive ?_ _)
  exact (h.after_setAbove (f := F.RED_STATUS_TOKEN_OUT) (i := 0) (v := 0) (by decide)).after_others rfl rfl

theorem after_giveUp (h : TickFrame (supplyKept True) s t) (c : Nat) : TickFrame (supplyKept True) s (giveUp t c) :=
  .after_setRole (.after_red (by rfl) h.after_dropToken) _

theorem after_sendParts {k : Kept} {s t : State} (h : TickFrame k s t) : TickFrame k s (sendParts t) :=
  .after_forAll (.after_red rfl h) fun _ _ h => h.after_furovSend

theorem after_tickFrames {k : Kept} {s t : State} (h : TickFrame k s t) : TickFrame k s (tickFrames t) := by
  unfold tickFrames
  exact .after_when (.after_when (.after_red rfl (.after_when h.after_furovSend fun h => h.after_furovSend))
    fun h => h.after_sendParts) fun h => h.after_furovSend

end TickFrame

/-! ### A module that gives up the token (R274, R295) -/

theorem red_ite {c : Prop} [Decidable c] {s t u : State} (ht : t.red = s.red) (hu : u.red = s.red) :
    (if c then t else u).red = s.red := by
  split <;> assumption

theorem red_evrSubmit (s : State) (r : EvrRec) : (evrSubmit s r).red = s.red := by
  unfold evrSubmit
  exact red_ite rfl rfl

theorem red_showFault (s : State) : (showFault s).red = s.red := by
  unfold showFault
  exact red_ite (red_evrSubmit _ _) (red_ite (red_evrSubmit _ _) rfl)

theorem red_driveOutputs (s : State) : (driveOutputs s).red = s.red := by
  unfold driveOutputs
  exact red_ite (red_ite rfl rfl) ((red_showFault _).trans (red_ite rfl rfl))

theorem red_setDrive (s : State) (d : Nat) : (setDrive s d).red = s.red := red_driveOutputs _

/-- The latches of the outputs are engaged at their last levels. -/
def Latched (s : State) : Prop := s.red.latched = true ∧ s.red.holdOver = false

theorem latched_furovSend {s : State} (h : Latched s) (b : FurovBody) : Latched (furovSend s b) := by
  unfold furovSend
  split <;> exact h

theorem latched_setRole_degraded {s : State} (h : Latched s) : Latched (setRole s roDEGRADED) := h

/-- The holder of the token that gives it up latches its outputs. -/
theorem latched_dropToken {s : State} (h : holds s = true) : Latched (dropToken s) := by
  unfold dropToken sendToken
  rw [if_neg (by simp [h])]
  exact latched_furovSend ⟨by rw [red_setDrive], by rw [red_setDrive]⟩ _

theorem latched_giveUp {s : State} (h : holds s = true) (c : Nat) : Latched (giveUp s c) :=
  latched_setRole_degraded (s := { dropToken s with red := _ }) (latched_dropToken h)

/-- The warm restart that follows waits for the release of the latches (R276). -/
theorem restartIfReleased_of_latched {s : State} (h : Latched s) : restartIfReleased s = s := by
  obtain ⟨hlatched, hhold⟩ := h
  unfold restartIfReleased
  split
  · simp [hlatched, hhold]
  · rfl

theorem holds_of_giveUpDue {s : State} (h : giveUpDue s = true) : holds s = true := by
  simp only [giveUpDue, Bool.and_eq_true] at h
  exact h.1

/-- At its tick the holder gives the token up, and no restart begins yet. -/
theorem restartIfReleased_giveUp {s : State} (h : giveUpDue s = true) (c : Nat) :
    restartIfReleased (giveUp s c) = giveUp s c :=
  restartIfReleased_of_latched (latched_giveUp (holds_of_giveUpDue h) c)

theorem TickFrame.after_release {s t : State} (h : TickFrame (supplyKept True) s t) (c : Nat) :
    TickFrame (supplyKept True) s (if giveUpDue t then restartIfReleased (giveUp t c) else t) := by
  split
  · next hdue => rw [restartIfReleased_giveUp hdue]; exact h.after_giveUp c
  · exact h

/-- What a tick does after its loop evaluations keeps the supply's readings, the memory and the loop engine. -/
theorem TickFrame.after_runTick (s : State) : TickFrame (supplyKept True) (tickLoops s) (runTick s) := by
  unfold runTick
  exact .after_tickFrames (.after_red rfl (.after_release (.after_closeGates (.after_compareDigests (.after_tickHealth
    (.after_admitTick (.after_driveOutputs (.after_when (.refl _ _) fun h => h.after_pulseStarts)))))) _))

/-! ### The instant before the loop evaluations (R27) -/

theorem getF_of_getReg {s t : State} {f : Fld} (h : getReg t f.addr = getReg s f.addr) : getF t f = getF s f := by
  simp [getF, getFi, Fld.at, h]

theorem flag_of_getReg {s t : State} {f : Fld} (h : getReg t f.addr = getReg s f.addr) : flag t f = flag s f := by
  simp only [flag, getF_of_getReg h]

/-- At an instant at which no period, exchange or network cycle is still to come, the scan cores take up their tasks. -/
theorem items14_of_nothingDue {s : State} (hrun : s.runState = true) (hex : executes s = true) (hexch : atExchange s = false)
    (hdue : dueTasks s = []) (hcycle : atCycle s = false) (sp : StopPoint) :
    items14 s sp = forAll s [0, 1, 2, 3] schedule := by
  simp [items14, running, hrun, hex, hexch, hdue, hcycle, item4]

theorem roleOf_forAll_schedule {s : State} (h : roleOf s = roSINGLE) (l : List (Fin 6)) :
    roleOf (forAll s l schedule) = roSINGLE := by
  induction l generalizing s with
  | nil => exact h
  | cons c l ih => exact ih (roleOf_schedule h c)

theorem getReg_showSupply (s : State) (vin temp : BitVec 16) {a : Nat} (h1 : a ≠ R.PWR_VIN) (h2 : a ≠ R.PWR_TEMP)
    (h3 : a ≠ R.PWR_VIN_MIN) : getReg (showSupply s vin temp) a = getReg s a := by
  unfold showSupply
  rw [getReg_setF_ne _ _ _ _ h3, getReg_setF_ne _ _ _ _ h2, getReg_setF_ne _ _ _ _ h1]

theorem vin_showSupply (s : State) (vin temp : BitVec 16) : getF (showSupply s vin temp) F.PWR_VIN_MV = vin.toNat := by
  unfold showSupply
  rw [getF_setF_ne _ _ _ _ (by decide), getF_setF_ne _ _ _ _ (by decide), getF_setF_same _ _ _ ⟨by decide, by decide⟩]
  exact Nat.mod_eq_of_lt vin.isLt

theorem temp_showSupply (s : State) (vin temp : BitVec 16) : getF (showSupply s vin temp) F.PWR_TEMP_DECI_C = temp.toNat := by
  unfold showSupply
  rw [getF_setF_ne _ _ _ _ (by decide), getF_setF_same _ _ _ ⟨by decide, by decide⟩]
  exact Nat.mod_eq_of_lt temp.isLt

/-- The state in which the loop evaluations of the present tick find the module. -/
def atLoops (s : State) (vin temp : BitVec 16) : State := showSupply (meetDispatch (items14 s ⟨0, 0, 0⟩)) vin temp

/-- The loop evaluations find a single module as the tick reached it, with the readings of the tick. -/
structure FoundAtLoops (s : State) (vin temp : BitVec 16) (v : State) : Prop where
  runState : v.runState = s.runState
  tim : v.tim = s.tim
  inst : v.inst = s.inst
  boot : v.boot = s.boot
  taking : v.red.taking = s.red.taking
  role : roleOf v = roSINGLE
  gate : flag v F.CLK_GATE_ENG_LPE = flag s F.CLK_GATE_ENG_LPE
  warn : flag v F.PWR_STATUS_WARN = flag s F.PWR_STATUS_WARN
  vin : getF v F.PWR_VIN_MV = vin.toNat
  temp : getF v F.PWR_TEMP_DECI_C = temp.toNat
  mem : atDispatch s = false → v.mem = s.mem

theorem executes_congr {s t : State} (hrole : roleOf t = roleOf s) (htaking : t.red.taking = s.red.taking) :
    executes t = executes s := by
  simp only [executes, hrole, htaking]

theorem atDispatch_congr {s t : State} (hrun : t.runState = s.runState) (hex : executes t = executes s) (htim : t.tim = s.tim)
    (hprog : t.prog = s.prog) (hdpo : t.dpo = s.dpo) : atDispatch t = atDispatch s := by
  have hcycle : dispNs t = dispNs s := by unfold dispNs netNs netMs; rw [hprog]
  unfold atDispatch nowNs
  rw [hrun, hex, htim, hcycle, hdpo]

theorem foundAtLoops {s : State} (hrun : s.runState = true) (hex : executes s = true) (hrole : roleOf s = roSINGLE)
    (hexch : atExchange s = false) (hdue : dueTasks s = []) (hcycle : atCycle s = false) (vin temp : BitVec 16) :
    FoundAtLoops s vin temp (atLoops s vin temp) := by
  unfold atLoops
  rw [items14_of_nothingDue hrun hex hexch hdue hcycle]
  have scheduled : TickFrame schedulingKept s (forAll s [0, 1, 2, 3] schedule) :=
    .after_forAll (.refl _ _) fun _ c h => h.after_schedule c
  have role := roleOf_forAll_schedule hrole [0, 1, 2, 3]
  generalize forAll s [0, 1, 2, 3] schedule = w at scheduled role
  have met : TickFrame dispatchKept w (meetDispatch w) := .after_meetDispatch (.refl _ _)
  have reg : ∀ a < 0xF0030000, a ≠ R.PWR_VIN → a ≠ R.PWR_TEMP → a ≠ R.PWR_VIN_MIN →
      getReg (showSupply (meetDispatch w) vin temp) a = getReg s a := fun a ha h1 h2 h3 =>
    (getReg_showSupply _ _ _ h1 h2 h3).trans ((met.regs a (.inl ha)).trans (scheduled.regs a ha))
  exact
    { runState := met.runState.trans scheduled.runState
      tim := met.tim.trans scheduled.tim
      inst := met.inst.trans scheduled.inst
      boot := met.boot.trans scheduled.boot
      taking := met.taking.trans scheduled.taking
      role := (getF_of_getReg ((getReg_showSupply _ _ _ (by decide) (by decide) (by decide)).trans
        (met.regs _ (.inr rfl)))).trans role
      gate := flag_of_getReg (reg _ (by decide) (by decide) (by decide) (by decide))
      warn := flag_of_getReg (reg _ (by decide) (by decide) (by decide) (by decide))
      vin := vin_showSupply _ _ _
      temp := temp_showSupply _ _ _
      mem := fun hdisp => by
        have hw : atDispatch w = false :=
          (atDispatch_congr scheduled.runState (executes_congr (role.trans hrole.symm) scheduled.taking) scheduled.tim
            scheduled.prog (scheduled.dpo trivial)).trans hdisp
        show (meetDispatch w).mem = s.mem
        rw [meetDispatch, if_neg (by simp [hw])]
        exact scheduled.mem trivial }


/-! ### The tick (R116, R463) -/

theorem exec_loopEngineTick {s : State} (hstage : s.boot.stage ≠ 0) (htaking : s.red.taking = false)
    (htick : tickDone s = false) (vin temp : BitVec 16) :
    exec (.loopEngineTick vin temp) s = .next (engineTick (meetDispatch (items14 s ⟨0, 0, 0⟩)) vin temp) := by
  show execLoopEngineTick vin temp s = _
  simp [execLoopEngineTick, hstage, htaking, reachTick_of_underWay htick]

theorem nowNs_congr {s t : State} (h : t.tim = s.tim) : nowNs t = nowNs s := by simp only [nowNs, h]

theorem tickNow_congr {s t : State} (h : t.tim = s.tim) : tickNow t = tickNow s := by simp only [tickNow, nowNs_congr h]

/-- A supply above the warning level leaves the module as it is where no warning stands. -/
theorem compareVin_of_above {s : State} (hwarn : flag s F.PWR_STATUS_WARN = false) {mv : Nat} (hmv : 16000 ≤ mv) :
    compareVin s mv = s := by
  unfold compareVin
  rw [if_neg (by omega), if_neg (by simp [hwarn]), if_neg (by omega)]

theorem compareVin_of_below {s : State} {mv : Nat} (hmv : mv < 12000) : compareVin s mv = supplyResets s false := by
  unfold compareVin
  rw [if_pos hmv]

/-- On a module that samples for itself the tick carries out its loop evaluations at once. -/
theorem tickLoops_of_own {s : State} (hex : executes s = true) (hrun : s.runState = true)
    (hgate : flag s F.CLK_GATE_ENG_LPE = true) (hrole : roleOf s = roSINGLE) : tickLoops s = lpeEvaluate s (tickNow s) := by
  unfold tickLoops
  rw [if_neg (by simp [hex, hrun, hgate]), if_neg (by simp [hrole, roSINGLE, roSTANDBY])]

/-- From the supply's readings on, a tick of a module that samples for itself keeps all but its loops. -/
theorem runTick_of_own {s : State} (hex : executes s = true) (hrun : s.runState = true)
    (hgate : flag s F.CLK_GATE_ENG_LPE = true) (hrole : roleOf s = roSINGLE) :
    TickFrame (supplyKept False) s (runTick s) ∧ (runTick s).lpe = (lpeEvaluate s (tickNow s)).lpe := by
  have loops : TickFrame (supplyKept False) s (lpeEvaluate s (tickNow s)) := .after_lpeEvaluate (.refl _ _) _
  have rest := TickFrame.after_runTick s
  rw [tickLoops_of_own hex hrun hgate hrole] at rest
  exact ⟨loops.trans { rest with lpe := False.elim }, rest.lpe trivial⟩

/-- The tick is over once it has run. -/
theorem engineTick_of_above {s : State} {vin temp : BitVec 16} {v : State} (hv : showSupply s vin temp = v)
    (hwarn : flag v F.PWR_STATUS_WARN = false) (hvin : 16000 ≤ vin.toNat) (hstage : v.boot.stage ≠ 0)
    (hkept : (runTick v).boot = v.boot) :
    engineTick s vin temp = { runTick v with tim := { (runTick v).tim with tick := tickNow (runTick v) } } := by
  unfold engineTick
  rw [hv, compareVin_of_above hwarn hvin]
  dsimp only
  rw [if_neg hstage, if_neg (by rw [hkept]; exact hstage)]

/-- The bookkeeping of a reset stands in its state. -/
theorem boot_setDrive (s : State) (d : Nat) : (setDrive s d).boot = s.boot :=
  (TickFrame.after_setDrive (.refl (supplyKept True) s) d).boot

/-- A reset enters the stage before its release, with the kind and the causes it was begun with. -/
theorem boot_enterReset (s : State) (kind causes : Nat) :
    (enterReset s kind causes).boot.stage = 0 ∧ (enterReset s kind causes).boot.kind = kind ∧
      (enterReset s kind causes).boot.causes = causes := by
  unfold enterReset
  rw [boot_setDrive]
  exact ⟨rfl, rfl, rfl⟩

/-- A full reset begins at once on a module that has come up, with its cause beside those before it. -/
theorem beginReset_full {s : State} (hstage : s.boot.stage ≠ 0) (cause : Nat) :
    beginReset s rkFULL cause = enterReset { s with boot := { s.boot with causes := s.boot.causes ||| 2 ^ cause } } rkFULL
      (s.boot.causes ||| 2 ^ cause) := by
  unfold beginReset
  dsimp only
  rw [if_neg (by simp [hstage]), if_neg (by simp)]

/-- Below the reset level a full reset with cause SUPPLY begins. -/
theorem boot_supplyResets {s : State} (hstage : s.boot.stage ≠ 0) :
    (supplyResets s false).boot.stage = 0 ∧ (supplyResets s false).boot.kind = rkFULL ∧
      (supplyResets s false).boot.causes.testBit caSUPPLY = true := by
  unfold supplyResets
  rw [beginReset_full hstage]
  obtain ⟨hstage0, hkind, hcauses⟩ := boot_enterReset _ rkFULL (s.boot.causes ||| 2 ^ caSUPPLY)
  refine ⟨hstage0, hkind, (congrArg (Nat.testBit · caSUPPLY) hcauses).trans ?_⟩
  simp [Nat.testBit_or]

/-- A tick at which the supply begins a reset leaves nothing else of it. -/
theorem engineTick_of_below {s : State} {vin temp : BitVec 16} {v : State} (hv : showSupply s vin temp = v)
    (hvin : vin.toNat < 12000) (hstage : v.boot.stage ≠ 0) : engineTick s vin temp = supplyResets v false := by
  obtain ⟨hreset, -⟩ := boot_supplyResets hstage
  simp [engineTick, hv, compareVin_of_below hvin, hreset]

/-- Settles O33: the instant before the loop evaluations, the evaluations and what follows them each keep what the tick shows;
a supply below the reset level ends the tick before its evaluations. -/
theorem tickCarriedOut : Obligations.TickCarriedOut := by
  unfold Obligations.TickCarriedOut
  intro vin temp s hstage htaking htick _ _ _ hex hrun hrole hexch hdue hcycle hgate hwarn v
  have found : FoundAtLoops s vin temp v := foundAtLoops hrun hex hrole hexch hdue hcycle vin temp
  have hv : showSupply (meetDispatch (items14 s ⟨0, 0, 0⟩)) vin temp = v := rfl
  clear_value v
  have hvstage : v.boot.stage ≠ 0 := found.boot ▸ hstage
  constructor
  · intro hvin
    obtain ⟨ran, hlpe⟩ := runTick_of_own ((executes_congr (found.role.trans hrole.symm) found.taking).trans hex)
      (found.runState.trans hrun) (found.gate.trans hgate) found.role
    have htim : (runTick v).tim = s.tim := ran.tim.trans found.tim
    have htb1 : (runTick v).tim.tb1 = s.tim.tb1 := by rw [htim]
    refine ⟨_, (exec_loopEngineTick hstage htaking htick vin temp).trans
      (congrArg _ (engineTick_of_above hv (found.warn.trans hwarn) hvin hvstage ran.boot)), ?_⟩
    exact ⟨(getF_of_getReg (ran.regs _ (by decide))).trans found.vin,
      (getF_of_getReg (ran.regs _ (by decide))).trans found.temp,
      tickNow_congr found.tim ▸ hlpe, tickNow_congr htim, htb1, ran.inst.trans found.inst, ran.mem trivial,
      fun hdisp => (ran.mem trivial).trans (found.mem hdisp)⟩
  · intro hvin
    exact ⟨_, (exec_loopEngineTick hstage htaking htick vin temp).trans
      (congrArg _ (engineTick_of_below hv hvin hvstage)), boot_supplyResets hvstage⟩

end Sys2Proof.Machine
end

section
/-!
PROOFS. Messages of the host channel and requests that are heard (12 R327 to R334): what messages leave alone, and how a
request gets its effect and its reply.
-/
namespace Sys2Proof.Machine

/-! ### What messages leave alone (R284, R331, R333, R334) -/

/-- `t` comes from `s` by messages alone: they differ in the host channel, the pair's link and the trace of messages at most. -/
def MessagesOnly (s t : State) : Prop := { t with qhc := s.qhc, red := s.red, sent := s.sent } = s

namespace MessagesOnly

variable {s t u : State}

theorem refl (s : State) : MessagesOnly s s := rfl

theorem trans (h : MessagesOnly s t) (g : MessagesOnly t u) : MessagesOnly s u :=
  (congrArg (fun x : State => { x with qhc := s.qhc, red := s.red, sent := s.sent }) g :).trans h

theorem of_channel (h : { t with qhc := s.qhc, sent := s.sent } = s) : MessagesOnly s t :=
  (congrArg (fun x : State => { x with red := s.red }) h :)

theorem of_link (h : { t with red := s.red, sent := s.sent } = s) : MessagesOnly s t :=
  (congrArg (fun x : State => { x with qhc := s.qhc }) h :)

theorem regs (h : MessagesOnly s t) : t.regs = s.regs := (congrArg State.regs h :)
theorem mem (h : MessagesOnly s t) : t.mem = s.mem := (congrArg State.mem h :)
theorem nsa (h : MessagesOnly s t) : t.nsa = s.nsa := (congrArg State.nsa h :)
theorem dpo (h : MessagesOnly s t) : t.dpo = s.dpo := (congrArg State.dpo h :)
theorem mtr (h : MessagesOnly s t) : t.mtr = s.mtr := (congrArg State.mtr h :)
theorem exch (h : MessagesOnly s t) : t.exch = s.exch := (congrArg State.exch h :)
theorem evr (h : MessagesOnly s t) : t.evr = s.evr := (congrArg State.evr h :)
theorem fio (h : MessagesOnly s t) : t.fio = s.fio := (congrArg State.fio h :)
theorem net (h : MessagesOnly s t) : t.net = s.net := (congrArg State.net h :)
theorem cfg (h : MessagesOnly s t) : t.cfg = s.cfg := (congrArg State.cfg h :)

theorem getF (h : MessagesOnly s t) (f : Fld) : Machine.getF t f = Machine.getF s f := getF_congr h.regs f

theorem slotState (h : MessagesOnly s t) (slot : Nat) : Machine.slotState t slot = Machine.slotState s slot := h.getF _

theorem after_qhc {x : Qhc} (h : MessagesOnly s t) : MessagesOnly s { t with qhc := x } := h

theorem after_send {m : OutMsg} (h : MessagesOnly s t) : MessagesOnly s (send t m) := h

theorem after_ite {c : Prop} [Decidable c] (ht : MessagesOnly s t) (hu : MessagesOnly s u) :
    MessagesOnly s (if c then t else u) := by
  split <;> assumption

theorem after_toPcie (h : MessagesOnly s t) (typ flags st id : Nat) (p : List Byte) :
    MessagesOnly s (toPcie t typ flags st id p) := h.after_qhc.trans (of_channel (fillOutBox_only _))

theorem after_emitReply (h : MessagesOnly s t) (sender id typ st : Nat) (p : List Byte) :
    MessagesOnly s (emitReply t sender id typ st p) := .after_ite (after_toPcie (after_send h) ..) (after_send h)

theorem after_qhcReply (h : MessagesOnly s t) (sender id typ st : Nat) (p : List Byte) :
    MessagesOnly s (qhcReply t sender id typ st p) := after_emitReply (after_qhc h) ..

theorem after_emitUnsol (h : MessagesOnly s t) (id typ : Nat) (p : List Byte) : MessagesOnly s (emitUnsol t id typ p) := by
  unfold emitUnsol
  split
  · exact .after_ite (after_toPcie (after_send h) ..) (after_send h)
  · exact .after_ite (after_toPcie h ..) h

theorem after_unsol (h : MessagesOnly s t) (typ key : Nat) (p : List Byte) : MessagesOnly s (unsol t typ key p) :=
  .after_ite h (after_emitUnsol (after_qhc h) ..)

theorem after_pumpEvents (h : MessagesOnly s t) : MessagesOnly s (pumpEvents t) := by
  refine .after_ite h ?_
  split
  · exact after_unsol (after_qhc h) ..
  · exact h

theorem after_pumpStates (h : MessagesOnly s t) : MessagesOnly s (pumpStates t) := by
  refine .after_ite h ?_
  split
  · exact after_unsol h ..
  · exact h

theorem after_qhcPump (h : MessagesOnly s t) : MessagesOnly s (qhcPump t) := h.after_pumpEvents.after_pumpStates

theorem after_qhcDone (h : MessagesOnly s t) (kind code value : Nat) : MessagesOnly s (qhcDone t kind code value) :=
  .after_ite h (after_unsol h ..)

theorem after_forwardBody (h : MessagesOnly s t) (typ at_ : Nat) (body : List Byte) :
    MessagesOnly s (forwardBody t typ at_ body) := .after_ite (h.trans (of_link (furovSend_only ..))) h

theorem after_forwardReq (h : MessagesOnly s t) (typ : Nat) (p : List Byte) : MessagesOnly s (forwardReq t typ p) :=
  h.after_forwardBody ..

end MessagesOnly

/-! ### The host channel's own state (R331, R333) -/

/-- Filling the outbound mailbox changes it and its queue alone. -/
theorem qhc_fillOutBox (s : State) : { (fillOutBox s).qhc with outBox := s.qhc.outBox, outQ := s.qhc.outQ } = s.qhc := by
  unfold fillOutBox
  split
  · split <;> rfl
  · rfl

theorem qhc_toPcie (s : State) (typ flags st id : Nat) (p : List Byte) :
    { (toPcie s typ flags st id p).qhc with outBox := s.qhc.outBox, outQ := s.qhc.outQ } = s.qhc :=
  congrArg (fun q : Qhc => { q with outBox := s.qhc.outBox, outQ := s.qhc.outQ }) (qhc_fillOutBox _)

theorem kept_emitReply (s : State) (sender id typ st : Nat) (p : List Byte) :
    (emitReply s sender id typ st p).qhc.kept = s.qhc.kept := by
  unfold emitReply
  dsimp only
  split
  · exact (congrArg Qhc.kept (qhc_toPcie (send s _) typ qfREPLY st id p) :)
  · rfl

theorem out_emitUnsol (s : State) (id typ : Nat) (p : List Byte) : (emitUnsol s id typ p).qhc.out = s.qhc.out := by
  have htoPcie : ∀ t : State, (if t.qhc.pcieUp && t.qhc.outSeen then toPcie t typ qfUNSOL 0 id p else t).qhc.out =
      t.qhc.out := by
    intro t
    split
    · exact (congrArg Qhc.out (qhc_toPcie t typ qfUNSOL 0 id p) :)
    · rfl
  unfold emitUnsol
  split
  · exact htoPcie _
  · exact htoPcie s

/-- The newest entry that is picked is among those that stay. -/
theorem keepLatest_getLast? {α : Type} {n : Nat} (hn : 0 < n) (pick : α → Bool) (l : List α) (x : α) (hx : pick x = true) :
    (keepLatest n pick (l ++ [x])).getLast? = some x := by
  unfold keepLatest
  rw [List.foldr_append]
  simp only [List.foldr_cons, List.foldr_nil, hx, hn, if_true]
  refine List.foldrRecOn (motive := fun r : Nat × List α => r.2.getLast? = some x) _ _ rfl fun r hr y _ => ?_
  have hcons : (y :: r.2).getLast? = some x := by rw [List.getLast?_cons, hr]; rfl
  split
  · split
    · exact hcons
    · exact hr
  · exact hcons

theorem replied_qhcReply (s : State) (r : HostReq) (typ st : Nat) (b : List Byte) :
    Replied (qhcReply s r.sender r.reqId.toNat typ st b) r typ st b := by
  unfold Replied qhcReply
  rw [kept_emitReply]
  exact keepLatest_getLast? (by decide) _ _ _ (by simp)

/-- With no record stored and no committed state queued, nothing is sent of the channel's own accord. -/
theorem qhcPump_of_nothing {s : State} (hindex : s.evr.index = []) (hstates : s.evr.states = []) : qhcPump s = s := by
  have hevents : pumpEvents s = s := by simp [pumpEvents, seekSeq, hindex]
  simp [qhcPump, hevents, pumpStates, hstates]

/-! ### A request that is heard (R328, R330, R331, R334) -/

/-- The state with the time of the latest valid datagram of the host. -/
def heardAt (s : State) (t : Nat) : State := { s with qhc := { s.qhc with lastRx := t } }

theorem hostHeard_of_up {s : State} (h : s.qhc.lost = false) (r : HostReq) : ∃ t, hostHeard s r = heardAt s t := by
  unfold hostHeard
  split
  · exact ⟨s.qhc.lastRx, rfl⟩
  · exact ⟨nowNs s, by simp [heardAt, h]⟩

/-- A new request that is no RESTART changes what its answer changes, and gets its reply. -/
theorem gives_of_answer {s : State} {r : HostReq} {c : Instr} {typ : Nat} {p : List Byte} {v : Verdict} {P : State → Prop}
    (hc : exec c s = hostRow s r typ p v) (hhears : hears s r = true) (hup : s.qhc.lost = false)
    (hnew : ∀ e ∈ s.qhc.kept, e.1 ≠ r.sender ∨ e.2.1 ≠ r.reqId.toNat) (htyp : typ ≠ 0x10)
    (hans : ∀ t, hostHeard s r = heardAt s t → ∃ a st b, hostAnswer (heardAt s t) r typ p v = (a, some (st, b)) ∧
      ∀ u, Replied u r typ st b → MessagesOnly a u → P u) : Gives c s P := by
  obtain ⟨t, ht⟩ := hostHeard_of_up hup r
  obtain ⟨a, st, b, ha, hP⟩ := hans t ht
  have hfind : (heardAt s t).qhc.kept.find? (fun e => e.1 = r.sender && e.2.1 = r.reqId.toNat) = none := by
    rw [List.find?_eq_none]
    intro e he
    have := hnew e he
    simp only [Bool.and_eq_true, decide_eq_true_eq]
    tauto
  have hreq : hostRequest (heardAt s t) r typ p v = qhcReply a r.sender r.reqId.toNat typ st b := by
    simp only [hostRequest, hfind, ha, htyp, decide_false, Bool.false_and, Bool.false_eq_true, if_false]
  refine ⟨_, ?_, hP _ (replied_qhcReply a r typ st b) (.after_qhcReply (.refl a) ..)⟩
  rw [hc, hostRow, if_pos hhears, ht, hreq]

/-- A request of a type other than RESTART that passes the checks of R328 and R330 has the effect of its type. -/
theorem Heard.gives {s : State} {r : HostReq} {c : Instr} {typ : Nat} {p : List Byte} {v : Verdict} {P : State → Prop}
    (hheard : Heard s r typ p) (hc : exec c s = hostRow s r typ p v) (htyp : typ ≠ 0 ∧ typ ≤ 0x15 ∧ typ ≠ 0x10)
    (heffect : ∀ t, hostHeard s r = heardAt s t →
      ∃ a st b, hostEffect (heardAt s t) (nowNs s) r.sender r.reqId.toNat typ p v = (a, some (st, b)) ∧
        ∀ u, Replied u r typ st b → MessagesOnly a u → P u) : Gives c s P := by
  obtain ⟨hhears, hup, hnew, hguard, hservice⟩ := hheard
  obtain ⟨hzero, hmax, hrestart⟩ := htyp
  refine gives_of_answer hc hhears hup hnew hrestart fun t ht => ?_
  have hknown : (typ = 0 || decide (0x15 < typ)) = false := by simp; omega
  have hopen : (r.via.isSome && !r.secured && !openType typ) = false := by
    rcases hguard with h | h | h <;> simp [h]
  have hserved : (serviceOnly typ p && !(holds (heardAt s t) && r.via.all fun f => serviceAddr (heardAt s t) f.dst)) = false := by
    cases h : serviceOnly typ p with
    | false => rfl
    | true =>
      obtain ⟨hholds, haddr⟩ := hservice h
      have hholds : holds (heardAt s t) = true := hholds
      have haddr : (r.via.all fun f => serviceAddr (heardAt s t) f.dst) = true := haddr
      simp [hholds, haddr]
  have hanswer : hostAnswer (heardAt s t) r typ p v =
      hostEffect (heardAt s t) (nowNs s) r.sender r.reqId.toNat typ p v := by
    simp only [hostAnswer, hknown, hopen, hserved, Bool.false_eq_true, if_false]
    rfl
  rw [hanswer]
  exact heffect t ht

/-- A request of a type that needs MACsec is refused when it comes unprotected by Ethernet, with no other effect (R328). -/
theorem gives_of_unprotected {s : State} {r : HostReq} {c : Instr} {typ : Nat} {p : List Byte} {v : Verdict}
    (hc : exec c s = hostRow s r typ p v) (hhears : hears s r = true) (hup : s.qhc.lost = false)
    (hnew : ∀ e ∈ s.qhc.kept, e.1 ≠ r.sender ∨ e.2.1 ≠ r.reqId.toNat) (hvia : r.via ≠ none) (hplain : r.secured = false)
    (htyp : typ ≠ 0 ∧ typ ≤ 0x15 ∧ typ ≠ 0x10) (hclosed : openType typ = false) :
    Gives c s fun u => Replied u r typ 6 (leBytes 4 0) ∧ u.cfg = s.cfg ∧ u.nsa = s.nsa ∧ u.dpo = s.dpo ∧ u.mtr = s.mtr ∧
      u.exch = s.exch := by
  obtain ⟨hzero, hmax, hrestart⟩ := htyp
  have hknown : (typ = 0 || decide (0x15 < typ)) = false := by simp; omega
  have hsome : r.via.isSome = true := Option.isSome_iff_ne_none.2 hvia
  refine gives_of_answer hc hhears hup hnew hrestart fun t _ => ⟨heardAt s t, 6, leBytes 4 0, ?_, fun u hr hu =>
    ⟨hr, hu.cfg, hu.nsa, hu.dpo, hu.mtr, hu.exch⟩⟩
  simp [hostAnswer, hknown, hsome, hplain, hclosed]

end Sys2Proof.Machine
end

section
/-!
PROOFS. The answers of host-channel requests (02 R46 R47 R49 R52, 06 R156 R157, 10 R265, 17 R423): what each one does.
-/
namespace Sys2Proof.Machine

/-! ### Registers after an event (R442) -/

/-- An event leaves the registers of the blocks below the recorder's. -/
theorem getReg_ev_of_lt (s : State) (b e v : Nat) (l : List Nat) {a : Nat} (h : a < 0xF0120000) :
    getReg (ev s b e v l) a = getReg s a := by
  refine getReg_evrSubmit _ _ _ (Nat.ne_of_lt (Nat.lt_trans h (by decide))) (Nat.ne_of_lt (Nat.lt_trans h (by decide))) ?_
  simp only [Fld.at, F.EVR_DROP_COUNT]
  omega

theorem getF_ev_of_lt (s : State) (b e v : Nat) (l : List Nat) {f : Fld} (h : f.addr < 0xF0120000) :
    getF (ev s b e v l) f = getF s f := getF_of_getReg (getReg_ev_of_lt s b e v l h)

/-- An event that sets its bit leaves the other registers of those blocks. -/
theorem getF_evBit_of_ne (s : State) {f g : Fld} (v : Nat) (l : List Nat) (h : g.addr < 0xF0120000) (hne : g.addr ≠ f.addr) :
    getF (evBit s f v l) g = getF s g := by
  unfold evBit
  rw [getF_ev_of_lt _ _ _ _ _ h, getF_of_getReg (getReg_setF_ne s f 1 _ hne)]

theorem exch_evBit (s : State) (f : Fld) (v : Nat) (l : List Nat) : (evBit s f v l).exch = s.exch :=
  (congrArg State.exch (evBit_only s f v l) :)

/-! ### Bytes (R329) -/

theorem leNat_lt : ∀ l : List Byte, leNat l < 256 ^ l.length
  | [] => by decide
  | b :: l => by
    have := leNat_lt l
    have := b.isLt
    simp only [leNat, List.length_cons, Nat.pow_succ]
    omega

/-- A field of a payload is below the bound of its bytes. -/
theorem pn_lt (p : List Byte) (off n : Nat) : pn p off n < 256 ^ n :=
  Nat.lt_of_lt_of_le (leNat_lt _) (Nat.pow_le_pow_right (by decide) (List.length_take_le _ _))

/-- Bytes written read back. -/
theorem memBytes_memPut (m : List Host.Cell) (a : Nat) (bs : List Byte) : memBytes (memPut m a bs) a bs.length = bs := by
  induction bs generalizing m a with
  | nil => rfl
  | cons b bs ih =>
    have hfirst : memRead (memPut (memWrite m a b) (a + 1) bs) a = b := by
      rw [memRead_memPut, if_neg (by omega), memRead_memWrite_same]
    simp only [memPut, List.length_cons, memBytes, hfirst, ih]

/-! ### IMAGE_WRITE (R46, R52, R268, R488) -/

theorem reqHead_iff (p : List Byte) : reqHead p = true ↔ pn p 0 1 ≤ 2 ∧ pn p 1 1 ≤ 1 ∧ pn p 2 2 = 0 := by
  simp [reqHead, and_assoc]

/-- The image slots end where the configuration partition begins. -/
theorem imageSlot_le (kind : Nat) {slot : Nat} (h : slot ≤ 1) : imageSlot kind slot + imageSlotLen kind ≤ cfgPartBase := by
  unfold imageSlot imageSlotLen runtimeSlot programSlot cfgPartBase
  split
  · omega
  · split <;> omega

/-- Bytes written below the configuration partition while MRAM writes are not frozen stand in memory. -/
theorem mramWrite_of_below {s : State} {a : Nat} {bs : List Byte} (hfrozen : flag s F.PWR_STATUS_FROZEN = false)
    (h : a + bs.length ≤ cfgPartBase) : mramWrite s a bs = { s with mem := memPut s.mem a bs } := by
  unfold mramWrite
  rw [hfrozen]
  cases bs with
  | nil => exact ite_self s
  | cons b bs =>
    have hlt : a < 0x47000000 := by simp only [List.length_cons, cfgPartBase] at h; omega
    have hpart : (inCfgPart a || inCfgReserved a) = false := by
      simp only [inCfgPart, inCfgReserved, cfgPartBase, Bool.or_eq_false_iff, Bool.and_eq_false_iff, decide_eq_false_iff_not]
      exact ⟨.inl (decide_eq_false (by omega)), .inl (by omega)⟩
    rw [hpart]
    rfl

theorem slotField_inWord (slot : Nat) : (slotField slot).inWord := by
  unfold slotField
  split <;> exact ⟨by decide, by decide⟩

theorem slotField_addr (slot : Nat) : (slotField slot).addr = R.NSA_MODEL_STATUS := by
  unfold slotField
  split <;> rfl

/-- The state of a slot reads as it was set. -/
theorem slotState_setF (s : State) (slot : Nat) {v : Nat} (h : v < 8) : slotState (setF s (slotField slot) v) slot = v := by
  have hwidth : (slotField slot).hi + 1 - (slotField slot).lo = 3 := by unfold slotField; split <;> rfl
  unfold slotState
  rw [getF_setF_same _ _ _ (slotField_inWord slot), hwidth]
  exact Nat.mod_eq_of_lt h

/-- A withdrawn activation clears PREPARING and no other register bit. -/
theorem regs_withdrawn (s : State) : (withdrawn s).regs = (setF s F.NSA_MODEL_STATUS_PREPARING 0).regs :=
  (MessagesOnly.after_qhcDone (.refl (setF { (takeFree s).2 with nsa := { s.nsa with activation := none } }
    F.NSA_MODEL_STATUS_PREPARING 0)) 1 _ _).regs

theorem slotState_withdrawn (s : State) (slot : Nat) : slotState (withdrawn s) slot = slotState s slot := by
  unfold slotState
  rw [getF_congr (regs_withdrawn s)]
  refine getF_setF_apart _ _ _ _ ⟨by decide, by decide⟩ ?_ (.inl ?_)
  · unfold slotField
    split <;> rfl
  · unfold slotField
    split <;> decide

theorem frozen_withdrawn (s : State) : flag (withdrawn s) F.PWR_STATUS_FROZEN = flag s F.PWR_STATUS_FROZEN := by
  rw [flag_congr (regs_withdrawn s)]
  exact flag_of_getReg (getReg_setF_ne _ _ _ _ (by decide))

/-- A transfer to a model slot leaves it LOADING, and leaves the supply's freeze of MRAM writes. -/
theorem modelTransfer_spec (s : State) (slot : Nat) : slotState (modelTransfer s slot) slot = slLOADING ∧
    flag (modelTransfer s slot) F.PWR_STATUS_FROZEN = flag s F.PWR_STATUS_FROZEN := by
  have hloading : ∀ t : State, slotState (setF t (slotField slot) slLOADING) slot = slLOADING := fun t =>
    slotState_setF t slot (by decide)
  have hfrozen : ∀ t : State, t.regs = s.regs →
      flag (setF t (slotField slot) slLOADING) F.PWR_STATUS_FROZEN = flag s F.PWR_STATUS_FROZEN := fun t ht =>
    (flag_of_getReg (getReg_setF_ne _ _ _ _ (by rw [slotField_addr]; decide))).trans (flag_congr ht _)
  unfold modelTransfer
  dsimp only
  split
  · split
    · constructor
      · unfold slotState
        rw [getF_ev_of_lt _ _ _ _ _ (by rw [slotField_addr]; decide)]
        exact (slotState_withdrawn _ slot).trans (hloading _)
      · rw [flag_of_getReg (getReg_ev_of_lt _ _ _ _ _ (by decide))]
        exact (frozen_withdrawn _).trans (hfrozen _ rfl)
    · exact ⟨hloading _, hfrozen _ rfl⟩
  · exact ⟨hloading _, hfrozen _ rfl⟩

theorem frozen_programTransfer (s : State) (slot : Nat) :
    flag (programTransfer s slot) F.PWR_STATUS_FROZEN = flag s F.PWR_STATUS_FROZEN := by
  have hcancel : flag (cancelExchange s) F.PWR_STATUS_FROZEN = flag s F.PWR_STATUS_FROZEN := by
    unfold cancelExchange
    split
    · rfl
    · unfold flag
      rw [getF_evBit_of_ne _ _ _ (by decide) (by decide), getF_setF_ne _ _ _ _ (by decide), getF_setF_ne _ _ _ _ (by decide)]
      rfl
  unfold programTransfer
  split
  · split
    · exact hcancel
    · rfl
  · rfl

/-- The state in which the bytes of IMAGE_WRITE meet the slot. -/
def transferTo (s : State) (kind slot : Nat) : State :=
  if kind = ikMODEL then modelTransfer s slot else if kind = ikPROGRAM then programTransfer s slot else s

theorem frozen_transferTo (s : State) (kind slot : Nat) :
    flag (transferTo s kind slot) F.PWR_STATUS_FROZEN = flag s F.PWR_STATUS_FROZEN := by
  unfold transferTo
  split
  · exact (modelTransfer_spec s slot).2
  · split
    · exact frozen_programTransfer s slot
    · rfl

/-- An IMAGE_WRITE inside a slot that is not in use puts its bytes there. -/
theorem qImageWrite_accepted {s : State} {p : List Byte} (hlen : 8 ≤ p.length) (hhead : reqHead p = true)
    (hword : pn p 4 4 % 4 = 0) (hfit : pn p 4 4 + (p.length - 8) ≤ imageSlotLen (pn p 0 1))
    (hfree : slotInUse s (pn p 0 1) (pn p 1 1) = false) (hfrozen : flag s F.PWR_STATUS_FROZEN = false) :
    ∃ a, qImageWrite s p = ansOk a ∧
      memBytes a.mem (imageSlot (pn p 0 1) (pn p 1 1) + pn p 4 4) (p.length - 8) = p.drop 8 ∧
      (pn p 0 1 = ikMODEL → slotState a (pn p 1 1) = slLOADING) := by
  obtain ⟨-, hslot, -⟩ := (reqHead_iff p).1 hhead
  have hdrop : p.length - 8 = (p.drop 8).length := List.length_drop.symm
  have hbelow := imageSlot_le (pn p 0 1) hslot
  have hwrite := mramWrite_of_below (a := imageSlot (pn p 0 1) (pn p 1 1) + pn p 4 4) (bs := p.drop 8)
    ((frozen_transferTo s (pn p 0 1) (pn p 1 1)).trans hfrozen) (by omega)
  generalize hw : mramWrite (transferTo s (pn p 0 1) (pn p 1 1)) (imageSlot (pn p 0 1) (pn p 1 1) + pn p 4 4) (p.drop 8) = w
    at hwrite
  have hans : qImageWrite s p = ansOk (if pn p 0 1 = ikRUNTIME then w else forwardReq w 0x02 p) := by
    have hgood : (p.length < 8 || !reqHead p || pn p 4 4 % 4 ≠ 0 ||
        imageSlotLen (pn p 0 1) < pn p 4 4 + (p.length - 8) : Bool) = false := by
      simp [hhead, hword]; omega
    simp only [qImageWrite, hgood, hfree, Bool.false_eq_true, if_false, ← hw]
    rfl
  have hsent : MessagesOnly w (if pn p 0 1 = ikRUNTIME then w else forwardReq w 0x02 p) :=
    .after_ite (.refl w) (.after_forwardReq (.refl w) _ _)
  refine ⟨_, hans, ?_, fun hmodel => ?_⟩
  · rw [hsent.mem, hwrite, hdrop]
    exact memBytes_memPut _ _ _
  · rw [hsent.slotState, hwrite]
    have hstart : transferTo s (pn p 0 1) (pn p 1 1) = modelTransfer s (pn p 1 1) := if_pos hmodel
    rw [hstart]
    exact (modelTransfer_spec s (pn p 1 1)).1

/-! ### IMAGE_CHECK and IMAGE_SELECT (R46, R47, R49, R423) -/

/-- The check of a model slot that is loading begins its validation. -/
theorem qImageCheck_model {s : State} {p : List Byte} (v : Verdict) (hlen : p.length = 8) (hhead : reqHead p = true)
    (hstate : imgState s (pn p 0 1) = true) (hkind : pn p 0 1 = ikMODEL) (hloading : slotState s (pn p 1 1) = slLOADING) :
    ∃ a, qImageCheck s p v = ansOk a ∧ slotState a (pn p 1 1) = slVALIDATING := by
  refine ⟨forwardReq (setF { s with nsa := { s.nsa with validating := s.nsa.validating ++ [(pn p 1 1, pn p 4 4, false)] } }
    (slotField (pn p 1 1)) slVALIDATING) 0x03 p, ?_, ?_⟩
  · rw [hkind] at hstate
    simp [qImageCheck, hlen, hhead, hkind, hstate, hloading]
  · rw [(MessagesOnly.after_forwardReq (.refl _) _ _).slotState]
    exact slotState_setF _ _ (by decide)

/-- The check of a runtime image is that of R423 before decryption, and changes nothing. -/
theorem checkImage_runtime (s : State) (base : Nat) (written : Option Nat) (sigOk decrypts : Bool) :
    checkImage s ikRUNTIME base written sigOk decrypts = (s, imageCode s s.mem ikRUNTIME base written sigOk) := by
  unfold checkImage
  dsimp only
  split
  · rfl
  · next h => rw [if_pos rfl, not_not.1 h]

/-- The host channel has no part in the check of an image. -/
theorem imageCode_heardAt (s : State) (t : Nat) (m : Mem) (kind base : Nat) (written : Option Nat) (sigOk : Bool) :
    imageCode (heardAt s t) m kind base written sigOk = imageCode s m kind base written sigOk := by
  have hroot : fuseBytes (heardAt s t) 4 16 = fuseBytes s 4 16 := rfl
  have howner : ∀ i, ownerValid (heardAt s t) i = ownerValid s i := fun _ => rfl
  have hrt : rtCnt (heardAt s t) = rtCnt s := rfl
  have hpg : pgCnt (heardAt s t) = pgCnt s := rfl
  simp only [imageCode, hroot, howner, hrt, hpg]

/-- The check of a runtime slot answers the code of R423. -/
theorem qImageCheck_runtime {s : State} {p : List Byte} (v : Verdict) (hlen : p.length = 8) (hhead : reqHead p = true)
    (hkind : pn p 0 1 = ikRUNTIME) {c : Nat}
    (hc : imageCode s s.mem ikRUNTIME (imageSlot ikRUNTIME (pn p 1 1)) (some (pn p 4 4)) v.sigOk = c) :
    qImageCheck s p v = if c = 0 then ansOk s else ansRefuse (imageRefused s ikRUNTIME c) c := by
  have hslot : qImageCheck s p v = qCheckSlot s ikRUNTIME (pn p 1 1) (pn p 4 4) v := by
    simp [qImageCheck, hlen, hhead, hkind, imgState, ikRUNTIME, ikMODEL]
  rw [hslot]
  unfold qCheckSlot
  simp only [checkImage_runtime, hc]
  split <;> simp [*]

/-- A refused image is counted. -/
theorem refusedCount_imageRefused (s : State) (kind code : Nat) : getF (imageRefused s kind code) F.SEC_CNT_IMG_REFUSED_COUNT =
    (getF s F.SEC_CNT_IMG_REFUSED_COUNT + 1) % 2 ^ 32 := by
  unfold imageRefused
  rw [getF_evBit_of_ne _ _ _ (by decide) (by decide)]
  refine (getF_setF_same _ _ _ ⟨by decide, by decide⟩).trans ?_
  change (getF _ F.SEC_CNT_IMG_REFUSED_COUNT + 1) % _ = _
  rw [getF_setF_ne _ _ _ _ (by decide), getF_setF_ne _ _ _ _ (by decide)]
  rfl

/-- The activation of a valid slot is accepted for a cycle (R49). -/
theorem qImageSelect_model {s : State} {p : List Byte} (v : Verdict) (hhead : reqHead p = true) (hkind : pn p 0 1 = ikMODEL)
    (hlen : p.length = 12) (hlife : lifecycle s = 2) (hvalid : slotState s (pn p 1 1) = slVALID)
    (hcycle : pn p 4 8 = 0 ∨ cycleNow s + 2 ≤ pn p 4 8) {k : Nat}
    (hk : (if pn p 4 8 = 0 then cycleNow s + 2 else pn p 4 8) = k) :
    ∃ a, qImageSelect s p v = ansWith a (leBytes 8 k) ∧ ∃ x, a.nsa.activation = some x ∧ x.slot = pn p 1 1 ∧ x.at_ = k := by
  refine ⟨forwardBody (activationAccepted s (pn p 1 1) k) 0x04 (k * netNs s) (p.take 4 ++ leBytes 8 k), ?_, ?_⟩
  · have hrefused : (decide (slotState s (pn p 1 1) ≠ slVALID) ||
        (decide (pn p 4 8 ≠ 0) && decide (pn p 4 8 < cycleNow s + 2))) = false := by
      simp [hvalid]; omega
    have hform : (!reqHead p || decide (pn p 0 1 = ikPROGRAM) || decide (p.length ≠ (if pn p 0 1 = ikMODEL then 12 else 4))) =
        false := by
      simp [hhead, hkind, hlen, ikPROGRAM, ikMODEL]
    have hstate : imgState s (pn p 0 1) = true := by simp [imgState, hlife]
    have hmodel : pn p 0 1 ≠ ikRUNTIME := by rw [hkind]; decide
    simp only [qImageSelect, hform, hstate, hmodel, hrefused, hk, Bool.not_true, Bool.false_eq_true, if_false]
  · rw [(MessagesOnly.after_forwardBody (.refl _) _ _ _).nsa]
    exact ⟨_, rfl, rfl, rfl⟩

/-! ### PROG_EXCHANGE (R265) -/

theorem exch_imageRefused (s : State) (kind code : Nat) : (imageRefused s kind code).exch = s.exch := exch_evBit ..

theorem exch_checkImage (s : State) (kind base : Nat) (written : Option Nat) (sigOk decrypts : Bool) :
    (checkImage s kind base written sigOk decrypts).1.exch = s.exch := by
  have hfetch : ∀ slot attr, (fetchKey s slot attr).1.exch = s.exch := by
    intro slot attr
    unfold fetchKey
    split
    · rfl
    · exact exch_evBit ..
  unfold checkImage
  dsimp only
  split
  · rfl
  · split
    · rfl
    · split
      · exact hfetch _ _
      · rfl

/-- A refused exchange shows its code and leaves a pending one. -/
theorem exchRefused_spec (s : State) {code : Nat} (h : code < 16) :
    (exchRefused s code).exch = s.exch ∧ getF (exchRefused s code) F.SCN_EXCH_REFUSE = code := by
  have hcode : getF (setF s F.SCN_EXCH_REFUSE code) F.SCN_EXCH_REFUSE = code :=
    (getF_setF_same _ _ _ ⟨by decide, by decide⟩).trans (Nat.mod_eq_of_lt h)
  unfold exchRefused
  dsimp only
  rw [exch_evBit, getF_evBit_of_ne _ _ _ (by decide) (by decide)]
  split
  · exact ⟨rfl, hcode⟩
  · refine ⟨rfl, ?_⟩
    rw [getF_setF_ne _ _ _ _ (by decide),
      getF_setF_apart _ _ _ _ ⟨by decide, by decide⟩ (by decide) (.inr (by decide))]
    exact hcode

/-- An accepted exchange is pending and shows no code. -/
theorem exchAccepted_spec (s : State) (slot : Nat) (p : Program) :
    (exchAccepted s slot p).exch.isSome = true ∧ getF (exchAccepted s slot p) F.SCN_EXCH_REFUSE = 0 := by
  have hshown : ∀ t : State, t.regs =
      (setF (setF (setF s F.SCN_EXCH_REFUSE 0) F.SCN_EXCH_STATE 1) F.SCN_STATUS_EXCH_PENDING 1).regs →
      getF t F.SCN_EXCH_REFUSE = 0 := by
    intro t ht
    rw [getF_congr ht, getF_setF_ne _ _ _ _ (by decide),
      getF_setF_apart _ _ _ _ ⟨by decide, by decide⟩ (by decide) (.inr (by decide))]
    exact getF_setF_same _ _ _ ⟨by decide, by decide⟩
  unfold exchAccepted
  dsimp only
  split
  · exact ⟨rfl, hshown _ rfl⟩
  · refine ⟨rfl, ?_⟩
    unfold setX
    rw [getF_set64_ne _ _ _ (by decide) (by decide)]
    exact hshown _ rfl

/-- What a request of R265 for a slot ends in: a refusal with a code of four bits, which leaves a pending exchange, or an
acceptance. -/
def ExchangeEnds (s : State) (slot : Nat) (x : State × Nat) : Prop :=
  (∃ t n, x = (exchRefused t n, n) ∧ t.exch = s.exch ∧ n ≠ 0 ∧ n < 16) ∨ ∃ t p, x = (exchAccepted t slot p, 0)

theorem exchangeRequest_ends (s : State) (slot : Nat) (v : Verdict) : ExchangeEnds s slot (exchangeRequest s slot v) := by
  unfold exchangeRequest
  dsimp only
  have hexch := exch_checkImage s ikPROGRAM (imageSlot ikPROGRAM slot) none v.sigOk v.plain.isSome
  generalize checkImage s ikPROGRAM (imageSlot ikPROGRAM slot) none v.sigOk v.plain.isSome = x at hexch ⊢
  obtain ⟨t, c⟩ := x
  dsimp only at hexch ⊢
  have hshown : (if c = 0 then t else imageRefused t ikPROGRAM c).exch = s.exch := by
    split
    · exact hexch
    · exact (exch_imageRefused ..).trans hexch
  generalize (if c = 0 then t else imageRefused t ikPROGRAM c) = u at hshown ⊢
  have hrefused : ∀ n, n ≠ 0 → n < 16 → ExchangeEnds s slot (exchRefused u n, n) := fun n hn hlt =>
    .inl ⟨u, n, rfl, hshown, hn, hlt⟩
  split
  · exact hrefused _ (by split <;> decide) (by split <;> decide)
  · split
    · exact hrefused 1 (by decide) (by decide)
    · split
      · exact hrefused 3 (by decide) (by decide)
      · split
        · exact hrefused 2 (by decide) (by decide)
        · split
          · exact hrefused 4 (by decide) (by decide)
          · split
            · exact hrefused 6 (by decide) (by decide)
            · exact .inr ⟨u, _, rfl⟩

/-- PROG_EXCHANGE for a slot that does not run answers what the request of R265 answers. -/
theorem qExchange_eq {s : State} {p : List Byte} (v : Verdict) (hlen : p.length = 4) (hslot : pn p 0 1 ≤ 1) (hzero : pn p 1 3 = 0)
    (hlife : lifecycle s = 2) (hfree : slotInUse s ikPROGRAM (pn p 0 1) = false) :
    qExchange s p v = if (exchangeRequest s (pn p 0 1) v).2 ≠ 0
      then ansRefuse (exchangeRequest s (pn p 0 1) v).1 (exchangeRequest s (pn p 0 1) v).2
      else ansOk (forwardReq (exchangeRequest s (pn p 0 1) v).1 0x05 p) := by
  have hform : (decide (p.length ≠ 4) || decide (1 < pn p 0 1) || decide (pn p 1 3 ≠ 0)) = false := by
    simp [hlen, hzero, hslot]
  have hstate : imgState s ikPROGRAM = true := by simp [imgState, hlife]
  simp only [qExchange, hform, hstate, hfree, Bool.not_true, Bool.false_eq_true, if_false]

/-! ### Metering (R156, R157) -/

/-- METER_CONFIG is accepted to wait, or refused with the code of R157. -/
theorem qMeterConfig_eq {s : State} {p : List Byte} (acc : Nat) (hlen : ecallLenOk 3 0 p.length (bodyW p 0 / 65536) = true)
    {c : Nat} (hc : mtrRefuse s (bodyW p 0 / 65536) (bodyW p 0 % 65536) (bodyW p 1) ((bodyWords p).drop 2) = c) :
    qMeterConfig s acc p = if c ≠ 0 then ansRefuse (setF s F.MTR_EVENTS_CFG_REFUSED 1) c
      else ansOk (forwardBody (setF { s with mtr := { s.mtr with
        pend := s.mtr.pend ++ [(acc, bodyW p 0 / 65536, bodyW p 0 % 65536, (bodyWords p).drop 2)], serial := s.mtr.serial + 1 } }
        F.MTR_STATUS_CFG_PENDING 1) 0x09 (configAt s) p) := by
  unfold qMeterConfig mtrSubmit
  by_cases h : c = 0
  · simp [hlen, hc, h]
  · simp [hlen, hc, h]

end Sys2Proof.Machine
end

section
/-!
PROOFS. What the host channel sends and takes beside requests (12 R329 R331 R333 R334): unsolicited messages and their
replies, datagrams of one fragment, and the mailboxes.
-/
namespace Sys2Proof.Machine

/-! ### Unsolicited messages (R334, R452, R453) -/

theorem mem_sent_toPcie {s : State} {m : OutMsg} (h : m ∈ s.sent) (typ flags st id : Nat) (p : List Byte) :
    m ∈ (toPcie s typ flags st id p).sent := by
  unfold toPcie fillOutBox
  split
  · split
    · exact List.mem_cons_of_mem _ h
    · exact h
  · exact h

/-- An unsolicited message goes to the host address where the settings give one, beside what has been sent before. -/
theorem mem_sent_emitUnsol (s : State) (id typ : Nat) (p : List Byte) :
    (∀ m ∈ s.sent, m ∈ (emitUnsol s id typ p).sent) ∧ ∀ a b, hostRoute s = some (a, b) →
      .qhcUnsol a b id typ p (msgDatagrams etherFrag typ qfUNSOL 0 id p) ∈ (emitUnsol s id typ p).sent := by
  have htoPcie : ∀ (t : State), ∀ m ∈ t.sent,
      m ∈ (if t.qhc.pcieUp && t.qhc.outSeen then toPcie t typ qfUNSOL 0 id p else t).sent := by
    intro t m hm
    split
    · exact mem_sent_toPcie hm ..
    · exact hm
  unfold emitUnsol
  split
  · next a b hroute =>
    refine ⟨fun m hm => htoPcie _ m (List.mem_cons_of_mem _ hm), fun a' b' h => ?_⟩
    obtain ⟨rfl, rfl⟩ : a = a' ∧ b = b' := by simpa [hroute] using h
    exact htoPcie _ _ List.mem_cons_self
  · next hroute => exact ⟨htoPcie s, fun a b h => by simp [hroute] at h⟩

/-- The messages of a list sent again go to the host address one by one, and those that wait stay. -/
theorem forAll_emitUnsol (l : List Unsol) (s : State) :
    let u := forAll s l fun s u => emitUnsol s u.reqId u.typ u.payload
    u.qhc.out = s.qhc.out ∧ (∀ m ∈ s.sent, m ∈ u.sent) ∧ ∀ x ∈ l, ∀ a b, hostRoute s = some (a, b) →
      .qhcUnsol a b x.reqId x.typ x.payload (msgDatagrams etherFrag x.typ qfUNSOL 0 x.reqId x.payload) ∈ u.sent := by
  induction l generalizing s with
  | nil => exact ⟨rfl, fun _ h => h, by simp⟩
  | cons y l ih =>
    obtain ⟨hkeep, hsend⟩ := mem_sent_emitUnsol s y.reqId y.typ y.payload
    obtain ⟨hout, hsent, hlist⟩ := ih (emitUnsol s y.reqId y.typ y.payload)
    have hroute : hostRoute (emitUnsol s y.reqId y.typ y.payload) = hostRoute s := by
      unfold hostRoute
      rw [(MessagesOnly.after_emitUnsol (.refl s) _ _ _).net]
    refine ⟨hout.trans (out_emitUnsol ..), fun m hm => hsent m (hkeep m hm), fun x hx a b hab => ?_⟩
    rcases List.mem_cons.1 hx with rfl | hx
    · exact hsent _ (hsend a b hab)
    · exact hlist x hx a b (hroute.trans hab)

/-- The reply to an unsolicited message is 200 ms late (R334). -/
def retryDue (s : State) (u : Unsol) : Bool := decide (u.sends + 200000000 ≤ nowNs s)

/-- The state in which every message that is due again counts as sent now. -/
def retryDated (s : State) : State :=
  { s with qhc := { s.qhc with out := s.qhc.out.map fun u => if retryDue s u then { u with sends := nowNs s } else u } }

theorem exec_qhcUnsolRetry {s : State} (hup : s.qhc.lost = false) : exec .qhcUnsolRetry s =
    .next (forAll (retryDated s) (s.qhc.out.filter (retryDue s)) fun s u => emitUnsol s u.reqId u.typ u.payload) := by
  change Host.Outcome.next (if s.qhc.lost then retryDated s else _) = _
  rw [hup]
  rfl

/-- A message that is due again goes to the host address and waits from now. -/
theorem qhcUnsolRetry_gives {s : State} (hup : s.qhc.lost = false) : Gives .qhcUnsolRetry s fun u =>
    ∀ x ∈ s.qhc.out, x.sends + 200000000 ≤ nowNs s →
      (∀ a b, hostRoute s = some (a, b) → .qhcUnsol a b x.reqId x.typ x.payload
        (msgDatagrams etherFrag x.typ qfUNSOL 0 x.reqId x.payload) ∈ u.sent) ∧ { x with sends := nowNs s } ∈ u.qhc.out := by
  refine ⟨_, exec_qhcUnsolRetry hup, fun x hx hlate => ?_⟩
  have hdue : retryDue s x = true := decide_eq_true hlate
  obtain ⟨hout, -, hsent⟩ := forAll_emitUnsol (s.qhc.out.filter (retryDue s)) (retryDated s)
  refine ⟨hsent x (List.mem_filter.2 ⟨hx, hdue⟩), ?_⟩
  rw [hout]
  exact List.mem_map.2 ⟨x, hx, by rw [hdue]; rfl⟩

/-! ### Datagrams of one fragment (R329, R331) -/

/-- A message that is whole with its first fragment is not held. -/
theorem holdMessage_new {s : State} {m : Reassembly} (h : ∀ x ∈ s.qhc.parts, x.sender ≠ m.sender) :
    holdMessage s m true = s := by
  have hrest : s.qhc.parts.filter (fun x => !(x.sender = m.sender && x.reqId = m.reqId)) = s.qhc.parts := by
    rw [List.filter_eq_self]
    intro x hx
    simp [h x hx]
  unfold holdMessage
  dsimp only
  rw [hrest]
  rfl

theorem allCome_putFrag_first {m : Reassembly} (h : m.frags = []) (p : List Byte) (t : Nat) :
    allCome (putFrag m 0 p true t) = true := by
  simp [allCome, putFrag, h]

theorem wholeMessage_putFrag_first {m : Reassembly} (h : m.frags = []) {p : List Byte} (htotal : m.total = p.length) (t : Nat) :
    wholeMessage (putFrag m 0 p true t) = some p := by
  simp [wholeMessage, putFrag, h, htotal]

/-- A repetition of a request whose reply is kept gets it again, whatever it asks for (R331). -/
theorem replyAgain_of_kept {s : State} {r : HostReq} (h : replyKept s r = true) (typ : Nat) (p : List Byte) (v : Verdict) :
    replyAgain r s = hostRequest s r typ p v := by
  unfold replyAgain hostRequest
  split
  · rfl
  · next hfind =>
    rw [List.find?_eq_none] at hfind
    obtain ⟨e, he, hmatch⟩ := List.any_eq_true.1 h
    exact absurd hmatch (hfind e he)

/-- The first and only fragment of a message of a sender that has none under reassembly is carried out as a request. -/
theorem takeFragment_whole {s : State} {r : HostReq} (typ : Nat) {total : Nat} {p : List Byte} (v : Verdict)
    (htotal : total = p.length) (hparts : ∀ m ∈ s.qhc.parts, m.sender ≠ r.sender) :
    takeFragment s r typ 0 total true false p v = hostRequest s r typ p v := by
  have hold : s.qhc.parts.find? (fun m => m.sender = r.sender && m.reqId = r.reqId.toNat) = none := by
    rw [List.find?_eq_none]
    intro m hm
    simp [hparts m hm]
  unfold takeFragment
  dsimp only
  rw [hold]
  dsimp only
  split
  · next hkept =>
    unfold answerMessage
    rw [allCome_putFrag_first rfl, holdMessage_new (by exact hparts)]
    exact replyAgain_of_kept hkept typ p v
  · rw [if_neg Bool.false_ne_true, wholeMessage_putFrag_first rfl htotal]
    rfl

/-- A datagram that carries a whole request: its header is right, it is the first and last fragment, and it fits its way. -/
structure CarriesRequest (r : HostReq) (d : List Byte) : Prop where
  good : qhcGood d = true
  version : pn d 0 1 = 1
  flags : pn d 2 1 = qfLAST
  status : pn d 3 1 = 0
  reserved : pn d 18 2 = 0
  frag : pn d 8 4 = 0
  total : pn d 12 4 = (d.drop 24).length
  fits : d.length ≤ 24 + if r.sender = 0 then mboxFrag else etherFrag

/-- A datagram that carries a whole request, from a sender that is heard and has no message under reassembly, is the request. -/
theorem takeDatagram_whole {s : State} {r : HostReq} {d : List Byte} (v : Verdict) (hd : CarriesRequest r d)
    (hhears : hears s r = true) (hup : s.qhc.lost = false) (hparts : ∀ m ∈ s.qhc.parts, m.sender ≠ r.sender) :
    takeDatagram s r d v =
      hostRequest (hostHeard s r) { r with reqId := BitVec.ofNat 32 (pn d 4 4) } (pn d 1 1) (d.drop 24) v := by
  obtain ⟨hgood, hversion, hflags, hstatus, hreserved, hfrag, htotal, hfits⟩ := hd
  obtain ⟨t, ht⟩ := hostHeard_of_up hup r
  unfold takeDatagram
  dsimp only
  have hheard : hostHeard s { r with reqId := BitVec.ofNat 32 (pn d 4 4) } = heardAt s t := ht
  have hsender : HostReq.sender { r with reqId := BitVec.ofNat 32 (pn d 4 4) } = r.sender := rfl
  have hsame : hears s { r with reqId := BitVec.ofNat 32 (pn d 4 4) } = true := hhears
  rw [ht]
  generalize ({ r with reqId := BitVec.ofNat 32 (pn d 4 4) } : HostReq) = q at hheard hsender hsame ⊢
  have hsize : (d.drop 24).length ≤ if q.sender = 0 then mboxFrag else etherFrag := by
    rw [List.length_drop, hsender]; omega
  have hmax : (d.drop 24).length ≤ qhcMax := hsize.trans (by split <;> decide)
  have hlast : qfLAST.testBit 1 = true := rfl
  rw [if_neg (by simp [hsame, hgood]), hheard, hflags, hfrag, if_neg (by decide)]
  simp only [hversion, hstatus, hreserved, hlast, htotal, Nat.not_lt.2 hsize, Nat.not_lt.2 hmax, ne_eq, not_true_eq_false,
    decide_false, Bool.or_false, Bool.not_true, Bool.false_and]
  exact takeFragment_whole _ v rfl (by rw [hsender]; exact hparts)

/-! ### The mailbox (R333) -/

/-- The datagram of a full inbound mailbox whose length is in its range is taken once the mailbox is free. -/
theorem takeMailbox_full {s : State} (v : Verdict) (hrun : s.runtimeUp = true) (hpcie : s.qhc.pcieUp = true)
    (hfull : s.qhc.inFull = true) {word : Nat → Nat} (hword : word = fun i => (alGet? s.qhc.inBox (4 * i)).getD 0)
    (hlo : 24 ≤ word 1) (hhi : word 1 ≤ 32760) :
    takeMailbox s v = takeDatagram (send { s with qhc := { s.qhc with inFull := false } } (.msi 1)) ⟨none, 0, true⟩
      (((List.range 8190).flatMap fun i => leBytes 4 (word (i + 2))).take (word 1)) v := by
  have hhears : hears s ⟨none, 0, true⟩ = true := by simp [hears, hrun, hpcie]
  subst hword
  unfold takeMailbox
  dsimp only at hlo hhi ⊢
  rw [if_neg (by rw [hfull, hhears]; decide), if_pos (by simp [hlo, hhi])]

/-- A key that a filter keeps is found as before. -/
theorem find?_filter_of_key {β : Type} (m : List (Nat × β)) {p : Nat → Bool} {j : Nat} (h : p j = true) :
    (m.filter fun e => p e.1).find? (fun e => e.1 = j) = m.find? fun e => e.1 = j := by
  rw [List.find?_filter]
  congr 1
  funext e
  by_cases he : e.1 = j
  · simp [he, h]
  · simp [he]

/-- A key that a filter drops is not found. -/
theorem find?_filter_of_not_key {β : Type} (m : List (Nat × β)) {p : Nat → Bool} {j : Nat} (h : p j = false) :
    (m.filter fun e => p e.1).find? (fun e => e.1 = j) = none := by
  rw [List.find?_eq_none]
  intro e he hj
  have : p e.1 = true := (List.mem_filter.1 he).2
  rw [of_decide_eq_true hj, h] at this
  exact Bool.false_ne_true this

theorem alGet?_alPut {β : Type} (m : List (Nat × β)) (k j : Nat) (v : β) :
    alGet? (alPut m k v) j = if j = k then some v else alGet? m j := by
  have hbelow : (amBelow m k).find? (fun e => e.1 = j) = if j < k then m.find? (fun e => e.1 = j) else none := by
    split
    · next h => exact find?_filter_of_key m (p := fun a => decide (a < k)) (decide_eq_true h)
    · next h => exact find?_filter_of_not_key m (p := fun a => decide (a < k)) (decide_eq_false h)
  have habove : (amAbove m k).find? (fun e => e.1 = j) = if k < j then m.find? (fun e => e.1 = j) else none := by
    split
    · next h => exact find?_filter_of_key m (p := fun a => decide (k < a)) (decide_eq_true h)
    · next h => exact find?_filter_of_not_key m (p := fun a => decide (k < a)) (decide_eq_false h)
  unfold alGet? alPut
  rw [List.find?_append, List.find?_cons, hbelow, habove]
  rcases Nat.lt_trichotomy j k with h | rfl | h
  · simp [h, h.ne, h.ne', Nat.lt_asymm h]
  · simp
  · simp [h, h.ne, h.ne', Nat.lt_asymm h]

theorem alGet?_alDel {β : Type} (m : List (Nat × β)) (k j : Nat) :
    alGet? (alDel m k) j = if j = k then none else alGet? m j := by
  unfold alGet? alDel
  split
  · next h => rw [find?_filter_of_not_key m (p := fun a => a != k) (by simp [h])]; rfl
  · next h => rw [find?_filter_of_key m (p := fun a => a != k) (by simp [h])]

/-- A word of IN_LEN or IN_DATA written while the inbound mailbox is empty. -/
def inWordPut (s : State) (off w : Nat) : State :=
  { s with qhc := { s.qhc with inBox := if w = 0 then alDel s.qhc.inBox off else alPut s.qhc.inBox off w } }

/-- A word of the inbound mailbox as the PCIe side reads it, by its offset. -/
theorem mailboxRead_of_in (s : State) {a : Nat} (h : a < 0x8000) :
    mailboxRead s a = if a / 4 * 4 = 0 then bNat s.qhc.inFull else (alGet? s.qhc.inBox (a / 4 * 4)).getD 0 := by
  unfold mailboxRead
  dsimp only
  rw [if_pos (show a / 4 * 4 < 0x8000 by omega)]

theorem mailboxRead_inWordPut (s : State) {off a : Nat} (hoff : 4 ≤ off) (ha : a < 0x8000) (w : Nat) :
    mailboxRead (inWordPut s (off / 4 * 4) w) a = if a / 4 = off / 4 then w else mailboxRead s a := by
  have hkey : a / 4 * 4 = off / 4 * 4 ↔ a / 4 = off / 4 := by omega
  have hword : (alGet? (inWordPut s (off / 4 * 4) w).qhc.inBox (a / 4 * 4)).getD 0 =
      if a / 4 = off / 4 then w else (alGet? s.qhc.inBox (a / 4 * 4)).getD 0 := by
    unfold inWordPut
    dsimp only
    split
    · next hw => rw [alGet?_alDel]; simp only [hkey]; split <;> simp [hw]
    · rw [alGet?_alPut]; simp only [hkey]; split <;> rfl
  rw [mailboxRead_of_in _ ha, mailboxRead_of_in _ ha, hword]
  by_cases hzero : a / 4 * 4 = 0
  · rw [if_pos hzero, if_pos hzero, if_neg (by omega)]
    rfl
  · rw [if_neg hzero, if_neg hzero]

/-- A write of the PCIe side at a word of IN_LEN or IN_DATA, or of the outbound mailbox beyond its control word. -/
theorem mailboxWrite_word {s : State} {off : Nat} (w : Nat) (v : Verdict) (hpcie : s.qhc.pcieUp = true) (hlo : 4 ≤ off)
    (hout : off < 0x8000 ∨ 0x8004 ≤ off) :
    mailboxWrite s off w v = if s.qhc.inFull = true ∨ 0x8004 ≤ off then cfgErr s else inWordPut s (off / 4 * 4) w := by
  have hcond : (decide (0x8000 < off / 4 * 4) || s.qhc.inFull) = true ↔ s.qhc.inFull = true ∨ 0x8004 ≤ off := by
    simp only [Bool.or_eq_true, decide_eq_true_eq]
    rw [or_comm]
    have : 0x8000 < off / 4 * 4 ↔ 0x8004 ≤ off := by omega
    rw [this]
  unfold mailboxWrite
  dsimp only
  rw [if_neg (by simp [hpcie]), if_neg (by omega), if_neg (by omega)]
  simp only [hcond]
  rfl

/-- The PCIe side has taken the datagram of the outbound mailbox, and none waits for its place. -/
theorem outTaken_of_none {s : State} (hpcie : s.qhc.pcieUp = true) (h : s.qhc.outQ = []) :
    outTaken s = { s with qhc := { s.qhc with outBox := [], outSeen := true } } := by
  simp [outTaken, hpcie, fillOutBox, h]

/-- The PCIe side has taken the datagram of the outbound mailbox, and the next one takes its place. -/
theorem outTaken_of_next {s : State} (hpcie : s.qhc.pcieUp = true) {d : List Byte} {rest : List (List Byte)}
    (h : s.qhc.outQ = d :: rest) :
    outTaken s = send { s with qhc := { s.qhc with outBox := d, outQ := rest, outSeen := true } } (.msi 0) := by
  simp [outTaken, hpcie, fillOutBox, h]

/-! ### Replies of the host (R334) -/

/-- The reply to an unsolicited message ends its wait; with nothing else to send, that is all. -/
theorem out_hostReplied {s : State} {id : Nat} {x : Unsol} (hx : (s.qhc.out.find? fun u => u.reqId = id) = some x)
    (hindex : s.evr.index = []) (hstates : s.evr.states = []) :
    (hostReplied s id).qhc.out = s.qhc.out.filter fun y => y.reqId != id := by
  unfold hostReplied
  rw [hx]
  dsimp only
  split
  · rw [qhcPump_of_nothing (by exact hindex) (by simp [hstates])]
  · rw [qhcPump_of_nothing (by exact hindex) (by exact hstates)]

end Sys2Proof.Machine
end

section
/-!
PROOFS. What a request that is heard does, by type (02 R46 R49 R53, 04 R102, 06 R152 R156 R158, 10 R265, 12 R330 R332,
16 R410, 17 R428, 18 R452 R453), the commands of datagrams and mailboxes, and O52.
-/
namespace Sys2Proof.Machine

section

variable {s : State} {r : HostReq} {p : List Byte}

/-! ### Status and images -/

theorem statusRead_gives (hheard : Heard s r 0x01 []) : Gives (.statusRead r []) s fun u => u.regs = s.regs ∧
    ∃ b, (qStatus s []).2 = some (0, b) ∧ Replied u r 0x01 0 b ∧ b.take 4 = leBytes 4 (getReg s R.RED_STATUS).toNat :=
  hheard.gives rfl (by decide) fun t _ => ⟨heardAt s t, 0, _, rfl, fun _ hr hu => ⟨hu.regs, _, rfl, hr, rfl⟩⟩

theorem imageWrite_gives (hheard : Heard s r 0x02 p) (hlen : 8 ≤ p.length) (hhead : reqHead p = true)
    (hword : pn p 4 4 % 4 = 0) (hfit : pn p 4 4 + (p.length - 8) ≤ imageSlotLen (pn p 0 1))
    (hfree : slotInUse s (pn p 0 1) (pn p 1 1) = false) (hfrozen : flag s F.PWR_STATUS_FROZEN = false) :
    Gives (.imageWrite r p) s fun u => Replied u r 0x02 0 (leBytes 4 0) ∧
      memBytes u.mem (imageSlot (pn p 0 1) (pn p 1 1) + pn p 4 4) (p.length - 8) = p.drop 8 ∧
      (pn p 0 1 = ikMODEL → slotState u (pn p 1 1) = slLOADING) := by
  refine hheard.gives rfl (by decide) fun t _ => ?_
  obtain ⟨a, hans, hbytes, hloading⟩ := qImageWrite_accepted (s := heardAt s t) hlen hhead hword hfit hfree hfrozen
  exact ⟨a, 0, _, hans, fun u hr hu => ⟨hr, hu.mem ▸ hbytes, fun hmodel => (hu.slotState _).trans (hloading hmodel)⟩⟩

theorem imageCheck_model_gives (hheard : Heard s r 0x03 p) (v : Verdict) (hlen : p.length = 8) (hhead : reqHead p = true)
    (hstate : imgState s (pn p 0 1) = true) (hkind : pn p 0 1 = ikMODEL) (hloading : slotState s (pn p 1 1) = slLOADING) :
    Gives (.imageCheck r p v) s fun u => slotState u (pn p 1 1) = slVALIDATING ∧ Replied u r 0x03 0 (leBytes 4 0) := by
  refine hheard.gives rfl (by decide) fun t _ => ?_
  obtain ⟨a, hans, hvalidating⟩ := qImageCheck_model (s := heardAt s t) v hlen hhead hstate hkind hloading
  exact ⟨a, 0, _, hans, fun u hr hu => ⟨(hu.slotState _).trans hvalidating, hr⟩⟩

theorem imageCheck_runtime_gives (hheard : Heard s r 0x03 p) (v : Verdict) (hlen : p.length = 8) (hhead : reqHead p = true)
    (hkind : pn p 0 1 = ikRUNTIME) :
    let c := (checkImage s (pn p 0 1) (imageSlot (pn p 0 1) (pn p 1 1)) (some (pn p 4 4)) v.sigOk v.plain.isSome).2
    (c = 0 → Gives (.imageCheck r p v) s fun u => Replied u r 0x03 0 (leBytes 4 0)) ∧
    (c ≠ 0 → Gives (.imageCheck r p v) s fun u => Replied u r 0x03 3 (leBytes 4 c) ∧
      getF u F.SEC_CNT_IMG_REFUSED_COUNT = (getF s F.SEC_CNT_IMG_REFUSED_COUNT + 1) % 2 ^ 32) := by
  intro c
  have hc : c = imageCode s s.mem ikRUNTIME (imageSlot ikRUNTIME (pn p 1 1)) (some (pn p 4 4)) v.sigOk := by
    simp only [c, hkind, checkImage_runtime]
  clear_value c
  have hans : ∀ t, qImageCheck (heardAt s t) p v =
      if c = 0 then ansOk (heardAt s t) else ansRefuse (imageRefused (heardAt s t) ikRUNTIME c) c := fun t =>
    qImageCheck_runtime v hlen hhead hkind ((imageCode_heardAt s t _ _ _ _ _).trans hc.symm)
  constructor
  · intro hc
    exact hheard.gives rfl (by decide) fun t _ => ⟨_, 0, _, (hans t).trans (if_pos hc), fun u hr _ => hr⟩
  · intro hc
    exact hheard.gives rfl (by decide) fun t _ => ⟨_, 3, _, (hans t).trans (if_neg hc), fun u hr hu =>
      ⟨hr, (hu.getF _).trans (refusedCount_imageRefused ..)⟩⟩

theorem imageSelect_gives (hheard : Heard s r 0x04 p) (v : Verdict) (hhead : reqHead p = true) (hkind : pn p 0 1 = ikMODEL)
    (hlen : p.length = 12) (hlife : lifecycle s = 2) (hvalid : slotState s (pn p 1 1) = slVALID)
    (hcycle : pn p 4 8 = 0 ∨ cycleNow s + 2 ≤ pn p 4 8) :
    Gives (.imageSelect r p v) s fun u =>
      let k := if pn p 4 8 = 0 then cycleNow s + 2 else pn p 4 8
      Replied u r 0x04 0 (leBytes 8 k) ∧ ∃ a, u.nsa.activation = some a ∧ a.slot = pn p 1 1 ∧ a.at_ = k := by
  refine hheard.gives rfl (by decide) fun t _ => ?_
  obtain ⟨a, hans, x, hx, hslot, hat⟩ := qImageSelect_model (s := heardAt s t) v hhead hkind hlen hlife hvalid hcycle rfl
  exact ⟨a, 0, _, hans, fun u hr hu => ⟨hr, x, by rw [hu.nsa, hx], hslot, hat⟩⟩

/-! ### Exchange, forecast and mask -/

theorem progExchange_gives (hheard : Heard s r 0x05 p) (v : Verdict) (hlen : p.length = 4) (hslot : pn p 0 1 ≤ 1)
    (hzero : pn p 1 3 = 0) (hlife : lifecycle s = 2) (hfree : slotInUse s ikPROGRAM (pn p 0 1) = false) {h : State}
    (hh : hostHeard s r = h) :
    let x := exchangeRequest h (pn p 0 1) v
    (x.2 = 0 → Gives (.progExchange r p v) s fun u => Replied u r 0x05 0 (leBytes 4 0) ∧ u.exch = x.1.exch ∧
      getF u F.SCN_EXCH_REFUSE = 0 ∧ u.exch.isSome = true) ∧
    (x.2 ≠ 0 → Gives (.progExchange r p v) s fun u => Replied u r 0x05 3 (leBytes 4 x.2) ∧ u.exch = s.exch ∧
      getF u F.SCN_EXCH_REFUSE = x.2) := by
  intro x
  have hans : ∀ t, hostHeard s r = heardAt s t → qExchange (heardAt s t) p v =
      if x.2 ≠ 0 then ansRefuse x.1 x.2 else ansOk (forwardReq x.1 0x05 p) := by
    intro t ht
    rw [qExchange_eq (s := heardAt s t) v hlen hslot hzero hlife hfree, ← ht, hh]
  rcases exchangeRequest_ends h (pn p 0 1) v with ⟨a, n, hx, hexch, hn, hlt⟩ | ⟨a, q, hx⟩
  · have hx : x = (exchRefused a n, n) := hx
    rw [hx] at hans ⊢
    obtain ⟨hkept, hcode⟩ := exchRefused_spec a hlt
    refine ⟨fun h => absurd h hn, fun _ => hheard.gives rfl (by decide) fun t ht =>
      ⟨_, 3, _, (hans t ht).trans (if_pos hn), fun u hr hu => ⟨hr, ?_, (hu.getF _).trans hcode⟩⟩⟩
    have hbefore : h.exch = s.exch := (congrArg State.exch (hh.symm.trans ht) :)
    exact hu.exch.trans (hkept.trans (hexch.trans hbefore))
  · have hx : x = (exchAccepted a (pn p 0 1) q, 0) := hx
    rw [hx] at hans ⊢
    obtain ⟨hpending, hcode⟩ := exchAccepted_spec a (pn p 0 1) q
    refine ⟨fun _ => hheard.gives rfl (by decide) fun t ht =>
      ⟨_, 0, _, (hans t ht).trans (if_neg (not_not.2 rfl)), fun u hr hu => ?_⟩, fun h => absurd rfl h⟩
    have hsame := (MessagesOnly.after_forwardReq (.refl _) 0x05 p).trans hu
    exact ⟨hr, hsame.exch, (hsame.getF _).trans hcode, by rw [hsame.exch]; exact hpending⟩

theorem forecast_gives (hheard : Heard s r 0x06 p) (hgood : forecastOk s p = true) :
    Gives (.forecast r p) s fun u => Replied u r 0x06 0 (leBytes 4 0) ∧
      u.dpo.pendForecast = some (nowNs s, forecastRead p) := by
  refine hheard.gives rfl (by decide) fun t _ =>
    ⟨forwardReq (deliverForecast (heardAt s t) (nowNs s) p) 0x06 p, 0, _, if_pos hgood, fun u hr hu => ⟨hr, ?_⟩⟩
  have hwaits : deliverForecast (heardAt s t) (nowNs s) p = _ := if_pos hgood
  rw [((MessagesOnly.after_forwardReq (.refl _) 0x06 p).trans hu).dpo, hwaits]

theorem mask_gives (hheard : Heard s r 0x07 p) (hlen : 8 ≤ p.length) (hwords : p.length % 4 = 0) :
    (maskRangeOk (pn p 0 4) (pn p 4 4) (p.length / 4 - 2) = true → Gives (.mask r p) s fun u =>
      Replied u r 0x07 0 (leBytes 4 0) ∧
      u.nsa.pendMask = s.nsa.pendMask ++ [(nowNs s, pn p 0 4, maskBits ((bodyWords p).drop 2))]) ∧
    (maskRangeOk (pn p 0 4) (pn p 4 4) (p.length / 4 - 2) = false → Gives (.mask r p) s fun u =>
      Replied u r 0x07 3 (leBytes 4 6) ∧ u.nsa = s.nsa) := by
  have hans : ∀ t acc, qMask (heardAt s t) acc p = if maskRangeOk (pn p 0 4) (pn p 4 4) (p.length / 4 - 2) then
      ansOk (forwardReq (queueMask (heardAt s t) acc (pn p 0 4) (maskBits ((bodyWords p).drop 2))) 0x07 p)
      else ansRefuse (heardAt s t) 6 := fun t acc => if_neg (by simp [hwords, hlen])
  constructor
  · intro hrange
    refine hheard.gives rfl (by decide) fun t _ => ⟨_, 0, _, (hans t _).trans (if_pos hrange), fun u hr hu => ⟨hr, ?_⟩⟩
    rw [((MessagesOnly.after_forwardReq (.refl _) 0x07 p).trans hu).nsa]
    rfl
  · intro hrange
    exact hheard.gives rfl (by decide) fun t _ =>
      ⟨_, 3, _, (hans t _).trans (if_neg (by simp [hrange])), fun u hr hu => ⟨hr, hu.nsa⟩⟩

/-! ### Metering -/

theorem meterConfig_gives (hheard : Heard s r 0x09 p) (hlen : ecallLenOk 3 0 p.length (bodyW p 0 / 65536) = true) :
    let c := mtrRefuse s (bodyW p 0 / 65536) (bodyW p 0 % 65536) (bodyW p 1) ((bodyWords p).drop 2)
    (c = 0 → Gives (.meterConfig r p) s fun u => Replied u r 0x09 0 (leBytes 4 0) ∧
      flag u F.MTR_STATUS_CFG_PENDING = true ∧
      u.mtr.pend = s.mtr.pend ++ [(nowNs s, bodyW p 0 / 65536, bodyW p 0 % 65536, (bodyWords p).drop 2)]) ∧
    (c ≠ 0 → Gives (.meterConfig r p) s fun u => Replied u r 0x09 3 (leBytes 4 c) ∧ u.mtr = s.mtr ∧
      getF u F.MTR_EVENTS_CFG_REFUSED = 1) := by
  intro c
  have hans := fun t => qMeterConfig_eq (s := heardAt s t) (nowNs s) hlen (c := c) rfl
  constructor
  · intro hc
    refine hheard.gives rfl (by decide) fun t _ => ⟨_, 0, _, (hans t).trans (if_neg (not_not.2 hc)), fun u hr hu => ?_⟩
    have hsame := (MessagesOnly.after_forwardBody (.refl _) 0x09 _ p).trans hu
    refine ⟨hr, ?_, by rw [hsame.mtr]; rfl⟩
    rw [flag, hsame.getF, getF_setF_same _ _ _ ⟨by decide, by decide⟩]
    rfl
  · intro hc
    exact hheard.gives rfl (by decide) fun t _ => ⟨_, 3, _, (hans t).trans (if_pos hc), fun u hr hu =>
      ⟨hr, hu.mtr, (hu.getF _).trans (getF_setF_same _ _ _ ⟨by decide, by decide⟩)⟩⟩

theorem meterClear_gives (hheard : Heard s r 0x0A p) (hlen : p.length = 4) (hclass : pn p 0 1 ≤ 1) (hzero : pn p 1 1 = 0)
    (hchan : pn p 2 2 < (if pn p 0 1 = 1 then 4096 else 34)) :
    Gives (.meterClear r p) s fun u => Replied u r 0x0A 0 (leBytes 4 0) ∧
      u.mtr.clears = s.mtr.clears ++ [(nowNs s, decide (pn p 0 1 = 1), pn p 2 2)] := by
  refine hheard.gives rfl (by decide) fun t _ => ⟨_, 0, _,
    if_neg (by simp [hlen, hclass, hzero, Nat.not_le.2 hchan]), fun u hr hu => ⟨hr, ?_⟩⟩
  rw [((MessagesOnly.after_forwardReq (.refl _) 0x0A p).trans hu).mtr]
  rfl

theorem meterRead_gives (hheard : Heard s r 0x0B p) (hlen : p.length = 4) (hslot : pn p 0 4 < 256)
    (hgood : (goodSlots s).any (fun e => e.1 = pn p 0 4) = true) :
    Gives (.meterRead r p) s fun u => Replied u r 0x0B 0 (memBytes s.mem (slotAddr (pn p 0 4)) 0x40000) ∧ u.mem = s.mem :=
  hheard.gives rfl (by decide) fun t _ => ⟨heardAt s t, 0, _,
    (if_neg (by simp [hlen, Nat.not_le.2 hslot])).trans (if_pos hgood), fun _ hr hu => ⟨hr, hu.mem⟩⟩

theorem meterAck_gives (hheard : Heard s r 0x0C p) (hlen : p.length = 4) : Gives (.meterAck r p) s fun u =>
    Replied u r 0x0C 0 (leBytes 4 0) ∧ getF u F.MTR_ARCH_ACK_SEQ = pn p 0 4 := by
  refine hheard.gives rfl (by decide) fun t _ => ⟨setF (heardAt s t) F.MTR_ARCH_ACK_SEQ (pn p 0 4), 0, _,
    if_neg (not_not.2 hlen), fun u hr hu => ⟨hr, ?_⟩⟩
  rw [hu.getF, getF_setF_same _ _ _ ⟨by decide, by decide⟩]
  exact Nat.mod_eq_of_lt (pn_lt p 0 4)

/-! ### Safe values, settings, attestation and acknowledgements -/

theorem safeValues_gives (hheard : Heard s r 0x0E p) (hlen : p.length = 4) (hzero : pn p 2 2 = 0) :
    Gives (.safeValues r p) s fun u => Replied u r 0x0E 0 (leBytes 4 0) ∧ u.cfg = { s.cfg with safe := pn p 0 2 } ∧
      u.fio = s.fio := by
  refine hheard.gives rfl (by decide) fun t _ => ⟨_, 0, _, if_neg (by simp [hlen, hzero]), fun u hr hu => ?_⟩
  have hsame := (MessagesOnly.after_forwardReq (.refl _) 0x0E p).trans hu
  have hev := ev_only { heardAt s t with cfg := { s.cfg with safe := pn p 0 2 } } blkFIO 0x82 3 [pn p 0 2]
  exact ⟨hr, hsame.cfg.trans (congrArg State.cfg hev :), hsame.fio.trans (congrArg State.fio hev :)⟩

theorem setting_gives (hheard : Heard s r 0x0F p) (hlen : 4 ≤ p.length) (hzero : pn p 2 2 = 0) :
    (pn p 0 2 = 0 ∨ 6 < pn p 0 2 → Gives (.setting r p) s fun u => Replied u r 0x0F 3 (leBytes 4 1) ∧ u.cfg = s.cfg) ∧
    (1 ≤ pn p 0 2 → pn p 0 2 ≤ 6 → settingOk (pn p 0 2) (p.drop 4) = true → Gives (.setting r p) s fun u =>
      Replied u r 0x0F 0 (leBytes 4 0) ∧ u.cfg = (storeSetting s (pn p 0 2) (p.drop 4)).cfg) := by
  have hans : ∀ t, qSetting (heardAt s t) p = if pn p 0 2 = 0 || 6 < pn p 0 2 then ansRefuse (heardAt s t) 1
      else if settingOk (pn p 0 2) (p.drop 4) then ansOk (storeSetting (heardAt s t) (pn p 0 2) (p.drop 4))
      else ansBad (heardAt s t) := fun t => if_neg (by simp [hlen, hzero])
  have hstored : ∀ t, (storeSetting (heardAt s t) (pn p 0 2) (p.drop 4)).cfg = (storeSetting s (pn p 0 2) (p.drop 4)).cfg := by
    intro t
    unfold storeSetting
    dsimp only
    split <;> rfl
  constructor
  · intro hkey
    exact hheard.gives rfl (by decide) fun t _ => ⟨_, 3, _, (hans t).trans (if_pos (by simpa using hkey)),
      fun _ hr hu => ⟨hr, hu.cfg⟩⟩
  · intro hlo hhi hok
    refine hheard.gives rfl (by decide) fun t _ => ⟨_, 0, _, (hans t).trans ((if_neg ?_).trans (if_pos hok)),
      fun _ hr hu => ⟨hr, hu.cfg.trans (hstored t)⟩⟩
    simp; omega

theorem attest_gives (hheard : Heard s r 0x12 p) (hlen : p.length = 32) (hlife : lifecycle s ≠ 3)
    (hready : flag s F.SEC_STATUS_ID_READY = true) :
    Gives (.attest r p) s fun u => let b := reportBody s (attestDigests s) p
      Replied u r 0x12 0 (b ++ Config.identitySign (identitySeed s "ID") (sha3_512 b)) := by
  refine hheard.gives rfl (by decide) fun t _ => ⟨heardAt s t, 0, _,
    (if_neg (not_not.2 hlen)).trans (if_neg ?_), fun _ hr _ => hr⟩
  have hlife : lifecycle (heardAt s t) ≠ 3 := hlife
  have hready : flag (heardAt s t) F.SEC_STATUS_ID_READY = true := hready
  simp [hlife, hready]

theorem evrAck_gives (hheard : Heard s r 0x14 p) (hlen : p.length = 8) : Gives (.evrAck r p) s fun u =>
    Replied u r 0x14 0 (leBytes 4 0) ∧ hostAck u = pn p 0 8 := by
  refine hheard.gives rfl (by decide) fun t _ => ⟨_, 0, _, if_neg (not_not.2 hlen), fun u hr hu => ⟨hr, ?_⟩⟩
  have hregs := ((MessagesOnly.after_qhcPump (.refl _)).trans hu).regs
  simp only [hostAck, get64, getReg_congr hregs]
  exact (get64_set64 _ _ (by decide)).trans (Nat.mod_eq_of_lt (pn_lt p 0 8))

theorem stateAck_gives (hheard : Heard s r 0x15 p) (hlen : p.length = 8) : Gives (.stateAck r p) s fun u =>
    Replied u r 0x15 0 (leBytes 4 0) ∧ u.evr.states = s.evr.states.filter (fun x => pn p 0 8 < x.cycle) := by
  refine hheard.gives rfl (by decide) fun t _ => ⟨_, 0, _, if_neg (not_not.2 hlen), fun u hr hu => ⟨hr, ?_⟩⟩
  rw [((MessagesOnly.after_qhcPump (.refl _)).trans hu).evr]
  rfl

/-! ### Replies, datagrams and mailboxes -/

theorem qhcHostReply_gives {x : Unsol} (hhears : hears s r = true) (hguard : r.via = none ∨ r.secured = true)
    (hup : s.qhc.lost = false) (hx : (s.qhc.out.find? fun u => u.reqId = r.reqId.toNat) = some x)
    (hindex : s.evr.index = []) (hstates : s.evr.states = []) :
    Gives (.qhcHostReply r) s fun u => u.qhc.out = s.qhc.out.filter (fun y => y.reqId != r.reqId.toNat) := by
  obtain ⟨t, ht⟩ := hostHeard_of_up hup r
  have hreply : (hears s r && mayReply r) = true := by
    rcases hguard with h | h <;> simp [hhears, mayReply, h]
  refine ⟨_, congrArg Host.Outcome.next (if_pos hreply), ?_⟩
  rw [ht]
  exact out_hostReplied (s := heardAt s t) hx hindex hstates

theorem sender_ne_zero {f : NetFrom} (h : r.via = some f) : r.sender ≠ 0 := by
  unfold HostReq.sender
  rw [h]
  dsimp only
  split <;> omega

variable {d : List Byte}

/-- A whole request from an Ethernet port. -/
theorem exec_qhcFragmentReceive_whole (v : Verdict) (hvia : r.via.isSome = true) (hd : CarriesRequest r d)
    (hhears : hears s r = true) (hup : s.qhc.lost = false) (hparts : ∀ m ∈ s.qhc.parts, m.sender ≠ r.sender) :
    exec (.qhcFragmentReceive r d v) s = .next
      (hostRequest (hostHeard s r) { r with reqId := BitVec.ofNat 32 (pn d 4 4) } (pn d 1 1) (d.drop 24) v) :=
  congrArg Host.Outcome.next
    ((if_neg (by simpa using Option.isSome_iff_ne_none.1 hvia)).trans (takeDatagram_whole v hd hhears hup hparts))

/-- The request of the mailbox. -/
def pcieReq : HostReq := ⟨none, 0, true⟩

/-- A whole request in the full inbound mailbox. -/
theorem takeMailbox_whole (v : Verdict) (hrun : s.runtimeUp = true) (hpcie : s.qhc.pcieUp = true)
    (hfull : s.qhc.inFull = true) (hup : s.qhc.lost = false) (hparts : ∀ m ∈ s.qhc.parts, m.sender ≠ 0)
    {word : Nat → Nat} (hword : word = fun i => (alGet? s.qhc.inBox (4 * i)).getD 0) (hlo : 24 ≤ word 1)
    (hhi : word 1 ≤ 32760) (hbox : d = ((List.range 8190).flatMap fun i => leBytes 4 (word (i + 2))).take (word 1))
    (hd : CarriesRequest pcieReq d) :
    takeMailbox s v = hostRequest
      (hostHeard (send { s with qhc := { s.qhc with inFull := false } } (.msi 1)) ⟨none, 0, true⟩)
      { via := none, reqId := BitVec.ofNat 32 (pn d 4 4), secured := true } (pn d 1 1) (d.drop 24) v := by
  rw [takeMailbox_full v hrun hpcie hfull hword hlo hhi, ← hbox]
  have hhears : hears (send { s with qhc := { s.qhc with inFull := false } } (.msi 1)) pcieReq = true := by
    simp [hears, hrun, hpcie, pcieReq, send]
  exact takeDatagram_whole v hd hhears hup hparts

/-- FULL written to the empty inbound mailbox has its datagram taken as that of a full one. -/
theorem exec_pcieMailboxIn_full (v : Verdict) (hpcie : s.qhc.pcieUp = true) : exec (.pcieMailboxIn (.write 0 1 v)) s =
    .next (takeMailbox { s with qhc := { s.qhc with inFull := true } } v) := by
  change Host.Outcome.next (mailboxWrite s 0 1 v) = _
  simp [mailboxWrite, hpcie]

theorem inFull_cleared (hempty : s.qhc.inFull = false) : { s with qhc := { s.qhc with inFull := false } } = s := by
  rw [← hempty]

theorem pcieMailboxOutTaken_gives (hpcie : s.qhc.pcieUp = true) : Gives .pcieMailboxOutTaken s fun u =>
    u.qhc.outSeen = true ∧ (s.qhc.outQ = [] → u.qhc.outBox = [] ∧ u.sent = s.sent) ∧
    ∀ d rest, s.qhc.outQ = d :: rest → u.qhc.outBox = d ∧ u.qhc.outQ = rest ∧ u.sent = .msi 0 :: s.sent := by
  refine ⟨_, rfl, ?_⟩
  cases hq : s.qhc.outQ with
  | nil => rw [outTaken_of_none hpcie hq]; exact ⟨rfl, fun _ => ⟨rfl, rfl⟩, by simp⟩
  | cons d rest =>
    rw [outTaken_of_next hpcie hq]
    refine ⟨rfl, by simp, fun d' rest' h => ?_⟩
    obtain ⟨rfl, rfl⟩ := List.cons.inj h
    exact ⟨rfl, rfl, rfl⟩

theorem exec_hostChannelLoss (hup : s.qhc.lost = false) (hlate : s.qhc.lastRx + 5000000000 ≤ nowNs s) :
    exec .hostChannelLoss s = .next { s with qhc := { s.qhc with lost := true, out := [], evSent := 0 } } :=
  congrArg Host.Outcome.next (if_pos (by simp [hup, hlate]))

theorem exec_pcieMailboxIn_word {off : BitVec 16} (w : BitVec 32) (v : Verdict) (hpcie : s.qhc.pcieUp = true)
    (hlo : 4 ≤ off.toNat) (hout : off.toNat < 0x8000 ∨ 0x8004 ≤ off.toNat) :
    exec (.pcieMailboxIn (.write off w v)) s = .next (if s.qhc.inFull = true ∨ 0x8004 ≤ off.toNat then cfgErr s
      else inWordPut s (off.toNat / 4 * 4) w.toNat) :=
  congrArg Host.Outcome.next (mailboxWrite_word w.toNat v hpcie hlo hout)

end

/-! ### The statement -/

/-- Settles O52, a rule for each type of request and each command: a request has the effect of its answer, its reply and its
forwarding are messages alone, and a datagram that carries a whole request is that request. -/
theorem hostRequests : Obligations.HostRequests := by
  unfold Obligations.HostRequests
  intro s r p v h ok kind slot
  refine ⟨?unprotected, ?statusRead, imageWrite_gives, ?imageCheck, ?imageSelect, ?progExchange, forecast_gives, mask_gives,
    meterConfig_gives, meterClear_gives, meterRead_gives, meterAck_gives, safeValues_gives, setting_gives, attest_gives,
    evrAck_gives, stateAck_gives, fun _ => qhcHostReply_gives, ?datagram, ?mailboxWord, pcieMailboxOutTaken_gives, rfl,
    qhcUnsolRetry_gives, exec_hostChannelLoss⟩
  case unprotected =>
    intro hhears hup hnew hvia hplain i hi
    have refused := fun {c : Instr} (typ : Nat) {w : Verdict} (hc : exec c s = hostRow s r typ p w) =>
      gives_of_unprotected hc hhears hup hnew hvia hplain
    simp only [List.mem_cons, List.not_mem_nil, or_false] at hi
    rcases hi with rfl | rfl | rfl | rfl | rfl
    · exact refused 0x05 rfl (by decide) rfl
    · exact refused 0x06 rfl (by decide) rfl
    · exact refused 0x07 rfl (by decide) rfl
    · exact refused 0x09 rfl (by decide) rfl
    · exact refused 0x0F rfl (by decide) rfl
  case statusRead =>
    rintro hheard rfl
    exact statusRead_gives hheard
  case imageCheck =>
    exact fun hheard hlen hhead hstate => ⟨imageCheck_model_gives hheard v hlen hhead hstate,
      imageCheck_runtime_gives hheard v hlen hhead⟩
  case imageSelect =>
    exact fun hheard hhead hkind => imageSelect_gives hheard v hhead hkind
  case progExchange =>
    exact fun hheard hlen hslot hzero hlife hfree => progExchange_gives hheard v hlen hslot hzero hlife hfree rfl
  case datagram =>
    intro d hgood hversion hflags hstatus hreserved hfrag htotal hup hrun whole
    constructor
    · intro hvia hhears hlen hparts
      obtain ⟨f, hf⟩ := Option.isSome_iff_exists.1 hvia
      exact exec_qhcFragmentReceive_whole v hvia ⟨hgood, hversion, hflags, hstatus, hreserved, hfrag, htotal,
        by rwa [if_neg (sender_ne_zero hf)]⟩ hhears hup hparts
    · intro word hpcie hlo hhi hbox hparts
      have hd : CarriesRequest pcieReq d := ⟨hgood, hversion, hflags, hstatus, hreserved, hfrag, htotal, by
        have hlen : d.length ≤ word 1 := hbox ▸ List.length_take_le _ _
        exact hlen.trans hhi⟩
      constructor
      · intro hempty
        rw [exec_pcieMailboxIn_full v hpcie, takeMailbox_whole (s := { s with qhc := { s.qhc with inFull := true } }) v hrun hpcie
          rfl hup hparts rfl hlo hhi hbox hd]
        exact congrArg (fun t => Host.Outcome.next (whole (send t (.msi 1)) ⟨none, 0, true⟩)) (inFull_cleared hempty)
      · intro hfull
        exact congrArg Host.Outcome.next (takeMailbox_whole v hrun hpcie hfull hup hparts rfl hlo hhi hbox hd)
  case mailboxWord =>
    intro off w hpcie hlo hout
    have hexec := exec_pcieMailboxIn_word w v hpcie hlo hout
    refine ⟨fun hbarred => hexec.trans (by rw [if_pos hbarred]), fun hempty hin => ?_⟩
    have hopen : ¬ (s.qhc.inFull = true ∨ 0x8004 ≤ off.toNat) := by
      simp only [hempty, Bool.false_eq_true, false_or]
      omega
    refine ⟨_, hexec.trans (congrArg _ (if_neg hopen)), ?_, rfl, fun a ha hne => ?_⟩
    · rw [mailboxRead_inWordPut s hlo hin, if_pos rfl]
    · rw [mailboxRead_inWordPut s hlo ha, if_neg hne]

end Sys2Proof.Machine
end

section
/-!
PROOFS. What register sets and messages leave alone, and how a study leaves the queue (03 R62 R82 R88, 09 R231, 11 R291).
-/
namespace Sys2Proof.Machine

/-! ### What changes registers alone -/

/-- `t` comes from `s` by register sets alone. -/
def RegsOnly (s t : State) : Prop := { t with regs := s.regs } = s

namespace RegsOnly

variable {s t u : State}

theorem refl (s : State) : RegsOnly s s := rfl

theorem trans (h : RegsOnly s t) (g : RegsOnly t u) : RegsOnly s u :=
  (congrArg (fun x : State => { x with regs := s.regs }) g :).trans h

theorem mem (h : RegsOnly s t) : t.mem = s.mem := (congrArg State.mem h :)
theorem sec (h : RegsOnly s t) : t.sec = s.sec := (congrArg State.sec h :)
theorem nsa (h : RegsOnly s t) : t.nsa = s.nsa := (congrArg State.nsa h :)
theorem lpe (h : RegsOnly s t) : t.lpe = s.lpe := (congrArg State.lpe h :)
theorem tasks (h : RegsOnly s t) : t.tasks = s.tasks := (congrArg State.tasks h :)

theorem after_setReg {a : Nat} {v : Word} (h : RegsOnly s t) : RegsOnly s (setReg t a v) := h

theorem after_setFi {f : Fld} {i v : Nat} (h : RegsOnly s t) : RegsOnly s (setFi t f i v) := h

theorem after_setF {f : Fld} {v : Nat} (h : RegsOnly s t) : RegsOnly s (setF t f v) := h

theorem after_plainWrite {a : Nat} {v : Word} (h : RegsOnly s t) : RegsOnly s (plainWrite t a v) :=
  h.trans (plainWrite_only t a v)

theorem after_ite {c : Prop} [Decidable c] (ht : RegsOnly s t) (hu : RegsOnly s u) : RegsOnly s (if c then t else u) := by
  split <;> assumption

theorem after_forAll {α : Type} {l : List α} {f : State → α → State} (h : RegsOnly s t)
    (hf : ∀ v x, RegsOnly s v → RegsOnly s (f v x)) : RegsOnly s (forAll t l f) := by
  induction l generalizing t with
  | nil => exact h
  | cons x l ih => exact ih (hf t x h)

end RegsOnly

/-! ### Messages of the pair (R284, R289, R291) -/

namespace MessagesOnly

variable {s t : State}

theorem sec (h : MessagesOnly s t) : t.sec = s.sec := (congrArg State.sec h :)
theorem tasks (h : MessagesOnly s t) : t.tasks = s.tasks := (congrArg State.tasks h :)

theorem getFi (h : MessagesOnly s t) (f : Fld) (i : Nat) : Machine.getFi t f i = Machine.getFi s f i := getFi_congr h.regs f i

theorem after_red {x : Red} (h : MessagesOnly s t) : MessagesOnly s { t with red := x } := h

theorem after_forAll {α : Type} {l : List α} {f : State → α → State} (h : MessagesOnly s t)
    (hf : ∀ v x, MessagesOnly s v → MessagesOnly s (f v x)) : MessagesOnly s (forAll t l f) := by
  induction l generalizing t with
  | nil => exact h
  | cons x l ih => exact ih (hf t x h)

theorem after_furovSend (h : MessagesOnly s t) (b : FurovBody) : MessagesOnly s (furovSend t b) :=
  h.trans (of_link (furovSend_only t b))

theorem after_digestUnit (h : MessagesOnly s t) (source task inst : Nat) (b : List Byte) :
    MessagesOnly s (digestUnit t source task inst b) := by
  unfold digestUnit
  exact .after_ite (.after_furovSend (.after_red h) _) h

theorem after_sendEntry (h : MessagesOnly s t) (e : JobEntry) : MessagesOnly s (sendEntry t e) :=
  .after_ite (h.after_furovSend _) h

theorem after_sendJob (h : MessagesOnly s t) (j : Job) (stop : Option StopPoint) (e : JobEnd) :
    MessagesOnly s (sendJob t j stop e) :=
  .after_sendEntry (.after_forAll h fun _ _ h => h.after_sendEntry _) _

end MessagesOnly

/-! ### How a study leaves the queue (R62, R82, R88, R231, R291) -/

theorem regsOnly_jobNotes (s : State) (n : Notes) (warmBad : Bool) : RegsOnly s (jobNotes s n warmBad) := by
  have hshown : RegsOnly s (showNotes s n) :=
    .after_ite (.after_ite (.after_setF (.refl s)) (.refl s)) (.after_setF (.after_ite (.after_setF (.refl s)) (.refl s)))
  exact .after_ite (.after_setF (hshown.after_setFi)) hshown.after_setFi

/-- The DONE record of a study, which waits for the post with its result block (R62, R231, R232). -/
def studyRecord (j : Job) (r : NetState) : PostItem :=
  { recordOf j.ticket 0 1 1 r.outcome (dw j.desc 10 * 2 ^ 32 + dTag j.desc) with
    isStudy := true, dueTime := j.start + dw j.desc 2 * 1000, userOff := dw j.desc 10, userBytes := resultBytes r }

/-- The queue without its head, and the record of the study that was it. -/
def studyGone (s : State) (j : Job) (r : NetState) : State :=
  modTask (setF { s with nsa := { s.nsa with studies := s.nsa.studies.drop 1 } } F.NSA_STATUS_STUDY_BUSY
    (bNat (!(s.nsa.studies.drop 1).isEmpty))) (taskIx j.task) fun k => { k with posts := k.posts ++ [studyRecord j r] }

/-- Beside its place in the queue and its record, a study that leaves sends messages alone. -/
theorem messagesOnly_studyOut (s : State) (j : Job) (r : NetState) : MessagesOnly (studyGone s j r) (studyOut s j r) :=
  .after_sendJob (.after_digestUnit (.refl (studyGone s j r)) ..) ..

/-- `t` comes from `s` by `n` studies that leave the head of the queue. -/
structure StudiesLeave (n : Nat) (s t : State) : Prop where
  studies : t.nsa.studies = s.nsa.studies.drop n
  committed : t.nsa.committed = s.nsa.committed
  mem : t.mem = s.mem

theorem StudiesLeave.trans {n k : Nat} {s t u : State} (h : StudiesLeave n s t) (g : StudiesLeave k t u) :
    StudiesLeave (n + k) s u :=
  ⟨by rw [g.studies, h.studies, List.drop_drop], g.committed.trans h.committed, g.mem.trans h.mem⟩

theorem studiesLeave_studyOut {s t : State} (h : RegsOnly s t) (j : Job) (r : NetState) : StudiesLeave 1 s (studyOut t j r) := by
  have hgone : StudiesLeave 1 t (studyGone t j r) := ⟨rfl, rfl, rfl⟩
  have hout := messagesOnly_studyOut t j r
  exact { studies := by rw [hout.nsa, hgone.studies, h.nsa]
          committed := by rw [hout.nsa, hgone.committed, h.nsa]
          mem := by rw [hout.mem, hgone.mem, h.mem] }

theorem studiesLeave_studyCut (s : State) (j : Job) (sp : StopPoint) (elapsed outcome : Nat) :
    StudiesLeave 1 s (studyCut s j sp elapsed outcome) := by
  unfold studyCut
  split
  · exact studiesLeave_studyOut (.refl s) ..
  · exact studiesLeave_studyOut (regsOnly_jobNotes ..) ..

theorem studiesLeave_studyCancel (s : State) (j : Job) : StudiesLeave 1 s (studyCancel s j) := by
  obtain ⟨hstudies, hcommitted, hmem⟩ := studiesLeave_studyCut (takeFree s).2 j (freeStop j (takeFree s).1)
    (usSince j.start (nowNs s)) 5
  exact ⟨hstudies, hcommitted, hmem⟩

/-- Every study that is queued or runs leaves at its cancellation. -/
theorem studiesLeave_cancelStudies (s : State) : StudiesLeave s.nsa.studies.length s (cancelStudies s) := by
  have hrest : ∀ (js : List Job) (n : Nat) (t : State), StudiesLeave n s t →
      StudiesLeave (n + js.length) s (forAll t js fun s j => studyCut s j ⟨0, 0, 0⟩ (usSince j.start (nowNs s)) 5) := by
    intro js
    induction js with
    | nil => exact fun n t h => h
    | cons j js ih =>
      intro n t h
      rw [List.length_cons, Nat.add_comm js.length, ← Nat.add_assoc]
      exact ih (n + 1) _ (h.trans (studiesLeave_studyCut t j ..))
  unfold cancelStudies
  split
  · next hnone => exact ⟨by rw [hnone]; rfl, rfl, rfl⟩
  · next j js hqueue =>
    rw [hqueue, List.length_cons, Nat.add_comm]
    exact hrest js 1 _ (studiesLeave_studyCancel s j)

end Sys2Proof.Machine
end

section
/-!
PROOFS. The clear commands of the CTRL registers (00 R8 to R11, 03 R88, 05 R127, 10 R269, 19 R470): fields that a run of sets
leaves at 0, stores to CTRL, and O32.
-/
namespace Sys2Proof.Machine

/-! ### What a run of effects leaves -/

section
variable {α : Type} {P : State → Prop} {l : List α} {f : State → α → State}

/-- What every effect of a run keeps holds after it. -/
theorem forAll_keeps (hkeep : ∀ v, ∀ y ∈ l, P v → P (f v y)) {s : State} (hs : P s) : P (forAll s l f) :=
  List.foldlRecOn (motive := P) l f hs fun v hv y hy => hkeep v y hy hv

/-- What one effect of a run brings about and every other one keeps holds after it. -/
theorem forAll_brings {x : α} (hx : x ∈ l) (hbring : ∀ v, P (f v x)) (hkeep : ∀ v, ∀ y ∈ l, P v → P (f v y))
    (s : State) : P (forAll s l f) := by
  obtain ⟨before, after, rfl⟩ := List.append_of_mem hx
  have hafter : ∀ v, ∀ y ∈ after, P v → P (f v y) := fun v y hy => hkeep v y (by simp [hy])
  have hrun : forAll s (before ++ x :: after) f = forAll (f (forAll s before f) x) after f := by simp [forAll]
  exact hrun ▸ forAll_keeps hafter (hbring _)

end

/-! ### Fields at 0 -/

theorem getFi_setFi_zero (s : State) {f : Fld} (i : Nat) (h : f.inWord) : getFi (setFi s f i 0) f i = 0 :=
  (getFi_setFi_same s f i 0 h).trans (Nat.zero_mod _)

/-- A field that reads 0 keeps doing so when any field, of its register or another, is set to 0. -/
theorem getFi_zero_setFi_zero {s : State} {f g : Fld} {i : Nat} (j : Nat) (hg : g.inWord) (h : getFi s f i = 0) :
    getFi (setFi s g j 0) f i = 0 := by
  by_cases hat : f.at i = g.at j
  · have hlt := putBits_lt g.hi g.lo 0 (getReg s (f.at i)).toNat 32 hg.1 hg.2 (getReg s (f.at i)).isLt
    apply Nat.eq_of_testBit_eq
    intro k
    have hbit := congrArg (Nat.testBit · k) h
    simp only [getFi, fieldOf, testBit_bitsOf, Nat.zero_testBit] at hbit
    simp only [getFi, setFi, ← hat, getReg_setReg_same, fieldOf, BitVec.toNat_ofNat, Nat.mod_eq_of_lt hlt, testBit_bitsOf,
      testBit_putBits _ _ _ _ _ hg.1, Nat.zero_testBit]
    split
    · simp
    · exact hbit
  · exact (getFi_setFi_ne _ _ _ _ _ _ hat).trans h

/-- After a run that sets fields to 0, each of them reads 0. -/
theorem getFi_forAll_zero {α : Type} {l : List α} {f : α → Fld} {i : α → Nat} {x : α} (hx : x ∈ l)
    (hl : ∀ y ∈ l, (f y).inWord) (s : State) : getFi (forAll s l fun s y => setFi s (f y) (i y) 0) (f x) (i x) = 0 :=
  forAll_brings (P := fun u => getFi u (f x) (i x) = 0) hx (fun v => getFi_setFi_zero v _ (hl x hx))
    (fun _ y hy => getFi_zero_setFi_zero _ (hl y hy)) s

theorem getFi_forAll_fields_zero {l : List Fld} {f : Fld} (hf : f ∈ l) (hl : ∀ g ∈ l, g.inWord) (i : Nat) (s : State) :
    getFi (forAll s l fun s g => setFi s g i 0) f i = 0 :=
  getFi_forAll_zero (f := fun g => g) (i := fun _ => i) hf hl s

theorem getFi_forAll_elements_zero {l : List Fld} {f : Fld} {j n : Nat} (hf : f ∈ l) (hj : j < n) (hl : ∀ g ∈ l, g.inWord)
    (s : State) : getFi (forAll s (List.range n) fun s i => forAll s l fun s g => setFi s g i 0) f j = 0 :=
  forAll_brings (P := fun u => getFi u f j = 0) (List.mem_range.2 hj) (fun v => getFi_forAll_fields_zero hf hl j v)
    (fun _ i _ h => forAll_keeps (P := fun u => getFi u f j = 0) (fun _ g hg => getFi_zero_setFi_zero i (hl g hg)) h) s

theorem getFi_clearFields {l : List (Fld × Nat)} {e : Fld × Nat} {j : Nat} (he : e ∈ l) (hj : j < e.2)
    (hl : ∀ e ∈ l, e.1.inWord) (s : State) : getFi (clearFields s l) e.1 j = 0 :=
  forAll_brings (P := fun u => getFi u e.1 j = 0) he
    (fun v => getFi_forAll_zero (f := fun _ => e.1) (i := id) (List.mem_range.2 hj) (fun _ _ => hl e he) v)
    (fun _ y hy h => forAll_keeps (P := fun u => getFi u e.1 j = 0) (fun _ i _ => getFi_zero_setFi_zero i (hl y hy)) h) s

theorem regsOnly_clearFields (s : State) (l : List (Fld × Nat)) : RegsOnly s (clearFields s l) :=
  .after_forAll (.refl s) fun _ _ h => h.after_forAll fun _ _ h => h.after_setFi

theorem counterFields_inWord : ∀ e ∈ counterFields, e.1.inWord := by
  have listed : ∀ e ∈ counterFields, e.1.lo ≤ e.1.hi ∧ e.1.hi < 32 := by decide
  exact listed

/-! ### A store to CTRL (R8 to R11) -/

theorem takes_of_unlocked (s : State) {a : Nat} {v : Word} {r : RegDef} (hr : regDefAt a = some r) (hlock : r.hasRwl = false)
    (hnamed : v.toNat &&& r.reservedMask = 0) : Takes s a v :=
  ⟨r, hr, by simp [writeBarred, hlock, hnamed]⟩

/-- What goes to the peer for a setting that it takes is messages alone. -/
theorem messagesOnly_shareSetting (old s : State) (a : Nat) : MessagesOnly s (shareSetting old s a) :=
  .after_ite (.of_link (furovSend_only ..)) (.refl s)

/-- At the CTRL of every block but RTC, CAN and UART a store acts by the bits of CTRL. -/
theorem ctlAction_ctrl {s : State} {a : Nat} (pcie : Bool) (v : Word) (hblock : blockOf a ∉ [0x0C, 0x0D, 0x0E])
    (hoff : offOf a = 0) : ctlAction s pcie a v = ctrlWrite s a v := by
  simp only [List.mem_cons, List.not_mem_nil, or_false, not_or] at hblock
  obtain ⟨hrtc, hcan, huart⟩ := hblock
  simp [ctlAction, hrtc, hcan, huart, hoff]

theorem ctrlWrite_of_takes {s : State} {a : Nat} {v : Word} (h : Takes s a v) : ctrlWrite s a v =
    let t := if v.getLsbD 1 then ctrlBit1 (plainWrite s a v) a else plainWrite s a v
    let t := if v.getLsbD 2 && clearsAt a then clearCounters t a else t
    if a = R.DPO_CTRL then ctrlWritten t else t := checkedWrite_takes _ _ _ _ h

/-- A store of a one to bit 1 alone of NSA_CTRL or SCN_CTRL meets no gate, no lock and no setting of the pair, and acts by the
bit. -/
theorem regStore_ctrlBit1 (s : State) {a : Nat} (ha : a ∈ [R.NSA_CTRL, R.SCN_CTRL]) :
    regStore s false a 4 2 = ctrlBit1 (plainWrite s a 2) a := by
  have listed : ∀ a ∈ [R.NSA_CTRL, R.SCN_CTRL],
      regDefAt a = some ⟨0x0, 0x0, 1, [⟨8, 8, .w1s, 0⟩, ⟨2, 2, .wo, 0⟩, ⟨1, 1, .wo, 0⟩]⟩ ∧ gateBits a = [] ∧
        (a % 4 = 0 ∧ ctlBase ≤ a ∧ a < ctlEnd) ∧ blockOf a ∉ [0x0C, 0x0D, 0x0E] ∧ offOf a = 0 ∧
        sharedSettings.contains a = false ∧ a ≠ R.DPO_CTRL := by decide
  obtain ⟨hr, hgate, ⟨hword, hlo, hhi⟩, hblock, hoff, hshared, hdpo⟩ := listed a ha
  have hbus : ctlBusErr s false a 4 = false := by simp [ctlBusErr, gateOff, hgate, hword, hlo, hhi]
  have htakes : Takes s a 2 := takes_of_unlocked s hr (by decide) (by decide)
  rw [regStore_of_takes hbus htakes, shareSetting_of_unshared _ _ hshared, ctlAction_ctrl _ _ hblock hoff,
    ctrlWrite_of_takes htakes]
  simp [hdpo]

/-! ### CLR_CNT (R88, R470) -/

/-- What CLR_CNT stores: a one in its bit, and for DPO the RW bits as they stand. -/
def clrCntWord (s : State) (b : Nat) : Word :=
  if b = 0x04 then BitVec.ofNat 32 (4 + (getReg s R.DPO_CTRL).toNat % 4) else 4

theorem exec_clearCounters (b : Fin 22) (n : Fin 4) (s : State) :
    exec (.clearCounters b n) s = .next (regStore s false (ctrlOf b.val n.val) 4 (clrCntWord s b.val)) := rfl

theorem clrCntWord_getLsbD_two (s : State) (b : Nat) : (clrCntWord s b).getLsbD 2 = true := by
  unfold clrCntWord
  split
  · have listed : ∀ k < 4, (BitVec.ofNat 32 (4 + k)).getLsbD 2 = true := by decide
    exact listed _ (Nat.mod_lt _ (by decide))
  · rfl

/-- A CTRL with CLR_CNT takes the store of it: no lock bars it (R10), and every bit stored is a field's
(R9). -/
theorem takes_clrCnt (s : State) (b : Fin 22) (n : Fin 4) (h : clearsAt (ctrlOf b.val n.val) = true) :
    Takes s (ctrlOf b.val n.val) (clrCntWord s b.val) := by
  have listed : ∀ (b : Fin 22) (n : Fin 4), clearsAt (ctrlOf b.val n.val) = true →
      ((regDefAt (ctrlOf b.val n.val)).any fun r => !r.hasRwl && (List.range 4).all fun k =>
        (BitVec.ofNat 32 (4 + k)).toNat &&& r.reservedMask == 0 || (b.val != 0x04 && k != 0)) = true := by
    decide +kernel
  have hctrl := listed b n h
  rw [Option.any_eq_true] at hctrl
  obtain ⟨r, hr, hfree⟩ := hctrl
  simp only [Bool.and_eq_true, Bool.not_eq_true', List.all_eq_true, List.mem_range] at hfree
  obtain ⟨hlock, hnamed⟩ := hfree
  refine takes_of_unlocked s hr hlock ?_
  unfold clrCntWord
  split
  · next hb => simpa [hb] using hnamed _ (Nat.mod_lt (getReg s R.DPO_CTRL).toNat (by decide))
  · simpa using hnamed 0 (by decide)

/-- The counters that a CLR_CNT clears (R470). -/
def clearedCounters : List (Fld × Nat) := (F.CLK_CNT_FALLBACK_COUNT, 1) :: (F.PWR_CNT_DIP_COUNT, 1) :: counterFields

/-- Every counter of a block but CAN reads 0 once CLR_CNT has cleared them. -/
theorem getFi_clearCounters {a j : Nat} {e : Fld × Nat} (s : State) (he : e ∈ clearedCounters)
    (hblock : blockOf e.1.addr = blockOf a) (hcan : blockOf a ≠ 0x0D) (hj : j < e.2) : getFi (clearCounters s a) e.1 j = 0 := by
  have hcounter : ∀ e ∈ counterFields, blockOf e.1.addr ≠ 0x01 ∧ blockOf e.1.addr ≠ 0x02 := by decide
  have hclk : blockOf F.CLK_CNT_FALLBACK_COUNT.addr = 0x01 := by decide
  have hpwr : blockOf F.PWR_CNT_DIP_COUNT.addr = 0x02 := by decide
  unfold clearCounters
  rw [← hblock] at hcan ⊢
  rcases List.mem_cons.1 he with rfl | he
  · obtain rfl : j = 0 := by simpa using hj
    simp only [hclk, if_true]
    exact getFi_setFi_zero s 0 ⟨by decide, by decide⟩
  rcases List.mem_cons.1 he with rfl | he
  · obtain rfl : j = 0 := by simpa using hj
    simp only [hpwr, if_true]
    exact (getFi_setFi_ne _ _ _ _ _ _ (by decide)).trans (getFi_setFi_zero s 0 ⟨by decide, by decide⟩)
  · obtain ⟨h1, h2⟩ := hcounter e he
    simp only [h1, h2, hcan, if_false]
    exact getFi_clearFields (List.mem_filter.2 ⟨he, by simp⟩) hj
      (fun y hy => counterFields_inWord y (List.mem_of_mem_filter hy)) s

theorem regsOnly_clearCounters (s : State) (a : Nat) : RegsOnly s (clearCounters s a) :=
  .after_ite (.after_setF (.refl s)) (.after_ite (.after_setF (.after_setF (.refl s)))
    (.after_ite (.after_forAll (.refl s) fun _ _ h => h.after_setFi) (regsOnly_clearFields s _)))

theorem blockOf_ctrlOf (b : Fin 22) (n : Fin 4) : blockOf (ctrlOf b.val n.val) = b.val := by
  simp only [blockOf, ctrlOf, ctlBase]
  split
  · omega
  · split <;> omega

theorem offOf_ctrlOf {b : Nat} (n : Nat) (hcan : b ≠ 0x0D) (huart : b ≠ 0x0E) : offOf (ctrlOf b n) = 0 := by
  simp [offOf, ctrlOf, hcan, huart]

/-- The counters of a CAN channel. -/
def canCounters : List Fld :=
  [F.CAN_CNT_RX_OK_COUNT, F.CAN_CNT_TX_OK_COUNT, F.CAN_CNT_RX_OVF_COUNT, F.CAN_CNT_ERR_COUNT, F.CAN_CNT_BOFF_COUNT]

/-- The counters of a UART. -/
def uartCounters : List Fld :=
  [F.UART_CNT_RX_OK_COUNT, F.UART_CNT_TX_OK_COUNT, F.UART_CNT_RX_OVF_COUNT, F.UART_CNT_CRC_COUNT]

theorem clearedCounters_can :
    clearedCounters.filter (fun e => blockOf e.1.addr = 0x0D) = canCounters.map fun f => (f, 4) := by decide

theorem clearedCounters_uart :
    clearedCounters.filter (fun e => blockOf e.1.addr = 0x0E) = uartCounters.map fun f => (f, 4) := by decide

theorem serialCounters_inWord : ∀ f ∈ canCounters ++ uartCounters, f.inWord := by
  have listed : ∀ f ∈ canCounters ++ uartCounters, f.lo ≤ f.hi ∧ f.hi < 32 := by decide
  exact listed

/-- CTRL of a CAN channel: CLR_CNT clears the counters of the channel. -/
theorem ctlAction_canCtrl (s : State) (n : Fin 4) {v : Word} (hv : v.getLsbD 2 = true)
    (htakes : Takes s (ctrlOf 0x0D n.val) v) : ctlAction s false (ctrlOf 0x0D n.val) v =
    forAll (plainWrite s (ctrlOf 0x0D n.val) v) canCounters fun s f => setFi s f n.val 0 := by
  have hoff : offOf (ctrlOf 0x0D n.val) = n.val * 0x4000 := by
    simp only [offOf, ctrlOf, ctlBase, if_true]
    omega
  have hblock : blockOf (ctrlOf 0x0D n.val) = 0x0D := blockOf_ctrlOf 0x0D n
  simp [ctlAction, canWrite, hblock, hoff, canCfgOff, checkedWrite_takes _ _ _ _ htakes, hv, canCounters]

/-- CTRL of the UARTs: CLR_CNT clears the counters of all four. -/
theorem ctlAction_uartCtrl (s : State) (n : Fin 4) {v : Word} (hv : v.getLsbD 2 = true)
    (htakes : Takes s (ctrlOf 0x0E n.val) v) : ctlAction s false (ctrlOf 0x0E n.val) v =
    forAll (plainWrite s (ctrlOf 0x0E n.val) v) (List.range 4) fun s k => forAll s uartCounters fun s f => setFi s f k 0 := by
  have hoff : offOf (ctrlOf 0x0E n.val) = 0x1000 := by simp [offOf, ctrlOf, ctlBase]
  have hblock : blockOf (ctrlOf 0x0E n.val) = 0x0E := blockOf_ctrlOf 0x0E n
  simp [ctlAction, uartWrite, hblock, hoff, checkedWrite_takes _ _ _ _ htakes, hv, uartCounters]

/-- `u` comes from `s` with an element of a field at 0, and with the memory and the security block as they were. -/
def Cleared (s : State) (f : Fld) (j : Nat) (u : State) : Prop := getFi u f j = 0 ∧ u.mem = s.mem ∧ u.sec = s.sec

theorem RegsOnly.cleared {s u : State} {f : Fld} {j : Nat} (h : RegsOnly s u) (hzero : getFi u f j = 0) : Cleared s f j u :=
  ⟨hzero, h.mem, h.sec⟩

theorem MessagesOnly.cleared {s t u : State} {f : Fld} {j : Nat} (h : MessagesOnly t u) (ht : Cleared s f j t) :
    Cleared s f j u := by
  obtain ⟨hzero, hmem, hsec⟩ := ht
  exact ⟨(h.getFi f j).trans hzero, h.mem.trans hmem, h.sec.trans hsec⟩

theorem Cleared.with_dpo {s t : State} {f : Fld} {j : Nat} (h : Cleared s f j t) (x : Dpo) :
    Cleared s f j { t with dpo := x } := h

theorem Cleared.forwardBody {s t : State} {f : Fld} {j : Nat} (h : Cleared s f j t) (typ at_ : Nat) (body : List Byte) :
    Cleared s f j (forwardBody t typ at_ body) := (MessagesOnly.after_forwardBody (.refl t) ..).cleared h

/-- DPO_CTRL written is a setting noted for its instant, and messages. -/
theorem Cleared.ctrlWritten {s t : State} {f : Fld} {j : Nat} (h : Cleared s f j t) : Cleared s f j (ctrlWritten t) := by
  unfold Machine.ctrlWritten
  exact (h.with_dpo _).forwardBody _ _ _

/-- Bit 1 of what CLR_CNT stores has no effect of its own: it is 0, or PLY_OFF of DPO_CTRL, which is of type RW. -/
theorem clrCnt_ctrlBit1 (s t : State) (b : Fin 22) (n : Nat) :
    (if (clrCntWord s b.val).getLsbD 1 then ctrlBit1 t (ctrlOf b.val n) else t) = t := by
  by_cases hb : b.val = 0x04
  · have hnone : ctrlBit1 t (ctrlOf b.val n) = t := by
      have hctrl : ctrlOf b.val n = R.DPO_CTRL := by simp [hb, ctrlOf, ctlBase]
      rw [hctrl]
      exact (if_neg (by decide)).trans ((if_neg (by decide)).trans (if_neg (by decide)))
    rw [hnone, ite_self]
  · have hbit : (clrCntWord s b.val).getLsbD 1 = false := by
      simp only [clrCntWord, if_neg hb]
      decide
    rw [hbit, if_neg Bool.false_ne_true]

/-- RTC_CTRL has no CLR_CNT. -/
theorem clearsAt_rtc (n : Nat) : clearsAt (ctrlOf 0x0C n) = false := by
  have hctrl : ctrlOf 0x0C n = R.RTC_CTRL := rfl
  rw [hctrl]
  decide

/-- In the other blocks CLR_CNT is the clearing of the block's counters; DPO_CTRL is noted as written beside. -/
theorem ctrlWrite_clrCnt (s : State) (b : Fin 22) (n : Fin 4) (hclears : clearsAt (ctrlOf b.val n.val) = true) :
    let t := clearCounters (plainWrite s (ctrlOf b.val n.val) (clrCntWord s b.val)) (ctrlOf b.val n.val)
    ctrlWrite s (ctrlOf b.val n.val) (clrCntWord s b.val) = if ctrlOf b.val n.val = R.DPO_CTRL then ctrlWritten t else t := by
  intro t
  rw [ctrlWrite_of_takes (takes_clrCnt s b n hclears)]
  dsimp only
  rw [clrCnt_ctrlBit1, clrCntWord_getLsbD_two, hclears, Bool.and_self, if_pos rfl]

/-- CLR_CNT leaves every counter of its block, or of its CAN channel, at 0. -/
theorem cleared_ctlAction (s : State) (b : Fin 22) (n : Fin 4) {e : Fld × Nat} {j : Nat}
    (hclears : clearsAt (ctrlOf b.val n.val) = true) (he : e ∈ clearedCounters) (hblock : blockOf e.1.addr = b.val)
    (hj : j < e.2) (hchan : b.val = 0x0D → j = n.val) :
    Cleared s e.1 j (ctlAction s false (ctrlOf b.val n.val) (clrCntWord s b.val)) := by
  have htakes := takes_clrCnt s b n hclears
  have hbit := clrCntWord_getLsbD_two s b.val
  have hb := blockOf_ctrlOf b n
  by_cases hrtc : b.val = 0x0C
  · rw [hrtc, clearsAt_rtc] at hclears
    exact absurd hclears Bool.false_ne_true
  by_cases hcan : b.val = 0x0D
  · obtain rfl := hchan hcan
    rw [hcan] at hblock htakes hbit ⊢
    have hfield : e ∈ canCounters.map fun f => (f, 4) :=
      clearedCounters_can ▸ List.mem_filter.2 ⟨he, by simpa using hblock⟩
    obtain ⟨f, hf, rfl⟩ := List.mem_map.1 hfield
    rw [ctlAction_canCtrl s n hbit htakes]
    exact (RegsOnly.after_forAll (.after_plainWrite (.refl s)) fun _ _ h => h.after_setFi).cleared
      (getFi_forAll_fields_zero hf (fun f hf => serialCounters_inWord f (List.mem_append_left _ hf)) n.val _)
  by_cases huart : b.val = 0x0E
  · rw [huart] at hblock htakes hbit ⊢
    have hfield : e ∈ uartCounters.map fun f => (f, 4) :=
      clearedCounters_uart ▸ List.mem_filter.2 ⟨he, by simpa using hblock⟩
    obtain ⟨f, hf, rfl⟩ := List.mem_map.1 hfield
    rw [ctlAction_uartCtrl s n hbit htakes]
    exact (RegsOnly.after_forAll (.after_plainWrite (.refl s)) fun _ _ h => h.after_forAll fun _ _ h => h.after_setFi).cleared
      (getFi_forAll_elements_zero hf hj (fun f hf => serialCounters_inWord f (List.mem_append_right _ hf)) _)
  have hoff : offOf (ctrlOf b.val n.val) = 0 := offOf_ctrlOf n.val hcan huart
  rw [ctlAction_ctrl _ _ (by simp [hb, hrtc, hcan, huart]) hoff, ctrlWrite_clrCnt s b n hclears]
  have hcleared : Cleared s e.1 j (clearCounters (plainWrite s (ctrlOf b.val n.val) (clrCntWord s b.val)) (ctrlOf b.val n.val)) :=
    (RegsOnly.trans (.after_plainWrite (.refl s)) (regsOnly_clearCounters _ _)).cleared
      (getFi_clearCounters _ he (hblock.trans hb.symm) (by rwa [hb]) hj)
  split
  · exact hcleared.ctrlWritten
  · exact hcleared

theorem clearCounters_gives {b : Fin 22} {n : Fin 4} {s : State} {r : RegDef} {e : Fld × Nat} {j : Nat}
    (hbus : ctlBusErr s false (ctrlOf b.val n.val) 4 = false) (hr : regDefAt (ctrlOf b.val n.val) = some r)
    (hbit : ∃ f ∈ r.fields, f.kind = .wo ∧ f.lo = 2) (he : e ∈ clearedCounters) (hblock : blockOf e.1.addr = b.val)
    (hj : j < e.2) (hchan : b.val = 0x0D → j = n.val) : Gives (.clearCounters b n) s (Cleared s e.1 j) := by
  have hclears : clearsAt (ctrlOf b.val n.val) = true := by simpa [clearsAt, hr] using hbit
  refine ⟨_, exec_clearCounters b n s, ?_⟩
  rw [regStore_of_takes hbus (takes_clrCnt s b n hclears)]
  exact (messagesOnly_shareSetting ..).cleared (cleared_ctlAction s b n hclears he hblock hj hchan)

/-! ### CLR_SAT (R127) -/

/-- The sticky flags of one loop cleared. -/
def clearLoopSticky (s : State) (i : Nat) : State :=
  showSatSum (setReg s (F.LPE_LOOP_STAT_MODE.at i) (getReg s (F.LPE_LOOP_STAT_MODE.at i) &&& 0xFFFFFFE0#32)) i

theorem clearSticky_eq (s : State) : clearSticky s = forAll s (s.lpe.loops.map (·.1)) clearLoopSticky := rfl

theorem regsOnly_clearLoopSticky (s : State) (i : Nat) : RegsOnly s (clearLoopSticky s i) :=
  .after_setFi (.after_setReg (.refl s))

/-- The status words of the 512 loops lie above the words of LPE_SAT_SUM. -/
theorem getReg_clearLoopSticky (s : State) {i : Nat} (hi : i < 512) (k : Nat) :
    getReg (clearLoopSticky s i) (F.LPE_LOOP_STAT_MODE.at k) =
      if k = i then getReg s (F.LPE_LOOP_STAT_MODE.at k) &&& 0xFFFFFFE0#32 else getReg s (F.LPE_LOOP_STAT_MODE.at k) := by
  have hsum : F.LPE_LOOP_STAT_MODE.at k ≠ F.LPE_SAT_SUM_ANY.at (i / 32) := by
    simp only [Fld.at, F.LPE_LOOP_STAT_MODE, F.LPE_SAT_SUM_ANY]
    omega
  have hstat : F.LPE_LOOP_STAT_MODE.at k = F.LPE_LOOP_STAT_MODE.at i ↔ k = i := by
    simp only [Fld.at, F.LPE_LOOP_STAT_MODE]
    omega
  have hset : getReg (clearLoopSticky s i) (F.LPE_LOOP_STAT_MODE.at k) =
      getReg (setReg s (F.LPE_LOOP_STAT_MODE.at i) (getReg s (F.LPE_LOOP_STAT_MODE.at i) &&& 0xFFFFFFE0#32))
        (F.LPE_LOOP_STAT_MODE.at k) := getReg_setReg_ne _ _ _ _ hsum
  rw [hset, getReg_setReg]
  by_cases hk : k = i
  · rw [hk, if_pos rfl, if_pos rfl]
  · rw [if_neg hk, if_neg (mt hstat.1 hk)]

theorem exec_clrSat (s : State) : exec .clrSat s = .next (clearSticky s) := rfl

theorem clrSat_gives {s : State} (hloops : ∀ e ∈ s.lpe.loops, e.1 < 512) : Gives .clrSat s fun u =>
    u.lpe = s.lpe ∧ ∀ e ∈ s.lpe.loops, ∀ j < 5, (getReg u (F.LPE_LOOP_STAT_MODE.at e.1)).getLsbD j = false := by
  have hindex : ∀ i ∈ s.lpe.loops.map (·.1), i < 512 := List.forall_mem_map.2 hloops
  have hmask : ∀ j < 5, (0xFFFFFFE0#32).getLsbD j = false := by decide
  refine ⟨_, exec_clrSat s, (RegsOnly.after_forAll (.refl s) fun v i h => h.trans (regsOnly_clearLoopSticky v i)).lpe,
    fun e he j hj => ?_⟩
  rw [clearSticky_eq]
  refine forAll_brings (P := fun u => (getReg u (F.LPE_LOOP_STAT_MODE.at e.1)).getLsbD j = false)
    (List.mem_map_of_mem he) (fun v => ?_) (fun v i hi h => ?_) s
  · rw [getReg_clearLoopSticky v (hloops e he), if_pos rfl, BitVec.getLsbD_and, hmask j hj, Bool.and_false]
  · rw [getReg_clearLoopSticky v (hindex i hi)]
    split
    · rw [BitVec.getLsbD_and, h, Bool.false_and]
    · exact h

/-! ### CLR_MAX (R269) -/

theorem exec_clrMax (s : State) : exec .clrMax s = .next (regStore s false R.SCN_CTRL 4 2) := rfl

theorem regStore_clrMax (s : State) : regStore s false R.SCN_CTRL 4 2 =
    forAll (plainWrite s R.SCN_CTRL 2) (List.range 16) fun s t => setFi s F.SCN_TASK_MAX_VALUE t 0 :=
  regStore_ctrlBit1 s (by decide)

theorem clrMax_gives (s : State) : Gives .clrMax s fun u => ∀ t < 16, getFi u F.SCN_TASK_MAX_VALUE t = 0 := by
  refine ⟨_, (exec_clrMax s).trans (congrArg _ (regStore_clrMax s)), fun t ht => ?_⟩
  exact getFi_forAll_zero (f := fun _ => F.SCN_TASK_MAX_VALUE) (i := fun t => t) (List.mem_range.2 ht)
    (fun _ _ => ⟨by decide, by decide⟩) _

/-! ### CANCEL_STUDY (R88) -/

theorem exec_cancelStudy (s : State) : exec .cancelStudy s = .next (regStore s false R.NSA_CTRL 4 2) := rfl

theorem regStore_cancelStudy (s : State) :
    regStore s false R.NSA_CTRL 4 2 = cancelStudies (plainWrite s R.NSA_CTRL 2) := regStore_ctrlBit1 s (by decide)

theorem cancelStudy_gives (s : State) : Gives .cancelStudy s fun u =>
    u.nsa.studies = [] ∧ u.nsa.committed = s.nsa.committed ∧ u.mem = s.mem := by
  have hstored : RegsOnly s (plainWrite s R.NSA_CTRL 2) := .after_plainWrite (.refl s)
  have hleave := studiesLeave_cancelStudies (plainWrite s R.NSA_CTRL 2)
  exact ⟨_, (exec_cancelStudy s).trans (congrArg _ (regStore_cancelStudy s)), hleave.studies.trans (List.drop_length ..),
    hleave.committed.trans (congrArg Nsa.committed hstored.nsa), hleave.mem.trans hstored.mem⟩

/-- Settles O32, a rule for each of the four commands: CLR_CNT sets its counters to 0 one by one and no set of a counter to 0
undoes another, CLR_SAT does the same with the sticky flags, and each study that is cancelled leaves the queue. -/
theorem clearCommands : Obligations.ClearCommands := by
  unfold Obligations.ClearCommands
  exact ⟨fun b n s r e j hbus hr hbit he hblock hj hchan => clearCounters_gives hbus hr hbit he hblock hj hchan,
    fun s hloops => clrSat_gives hloops, clrMax_gives, cancelStudy_gives⟩

end Sys2Proof.Machine
end

section
/-!
PROOFS. The solver's jobs (02 R46 R47 R50, 03 R62 R73 R82 R83, 04 R99, 11 R291): deadlines, budgets, faults and ends, the
preparation and the validation of a model, and O42.
-/
namespace Sys2Proof.Machine

/-! ### Deadlines and budgets (R73, R82, R99) -/

/-- A module that decides for itself carries its own deadlines and budgets out. -/
theorem gives_of_own {c : Instr} {s : State} {f : State → State} {P : State → Prop} (hown : roleOf s ≠ roSTANDBY)
    (hc : exec c s = ownDecision s f) (hP : P (f s)) : Gives c s P :=
  ⟨f s, hc.trans (by rw [ownDecision, if_neg hown]), hP⟩

theorem nsa_evBit (s : State) (f : Fld) (v : Nat) (l : List Nat) : (evBit s f v l).nsa = s.nsa :=
  (congrArg State.nsa (evBit_only s f v l) :)

/-- The bit of an event reads 1 after it. -/
theorem getF_evBit_same (s : State) {f : Fld} (v : Nat) (l : List Nat) (hword : f.inWord) (hbit : f.hi = f.lo)
    (haddr : f.addr < 0xF0120000) : getF (evBit s f v l) f = 1 := by
  unfold evBit
  rw [getF_ev_of_lt _ _ _ _ _ haddr, getF_setF_same _ _ _ hword, hbit, Nat.add_sub_cancel_left]
  rfl

theorem stopOk_iff (a b c n cg : Nat) : stopOk ⟨a, b, c⟩ n cg = true ↔ a < n ∧ b ≤ 3 ∧ c ≤ cg := by
  simp [stopOk, and_assoc]

theorem hyd_modCycle {s : State} {j : Job} (h : s.nsa.hyd = some j) (hkind : j.kind = 0) (f : Job → Job) :
    (modCycle s f).nsa.hyd = some (f j) := by
  simp [modCycle, h, hkind]

section
variable {s : State} {j : Job} (hown : roleOf s ≠ roSTANDBY) (hjob : s.nsa.hyd = some j)
include hown hjob

theorem hydraulicDeadline_gives {a b c : Nat} (hgoes : j.stop = none) (hkind : j.kind = 0) (ha : a < dNewton j.desc)
    (hb : b ≤ 3) (hc : c ≤ dCg j.desc) : Gives (.hydraulicDeadline .hyd a b c) s fun u =>
      u.nsa.hyd = some { j with stop := some ⟨a, b, c⟩ } ∧ u.regs = s.regs := by
  have hstop : stopJob j ⟨a, b, c⟩ = { j with stop := some ⟨a, b, c⟩ } := by
    simp [stopJob, hgoes, (stopOk_iff ..).2 ⟨ha, hb, hc⟩]
  exact gives_of_own hown (f := fun s => hydStop s .hyd ⟨a, b, c⟩) rfl
    ⟨(hyd_modCycle hjob hkind _).trans (congrArg some hstop), rfl⟩

theorem jobDeadline_gives (a b c : Nat) (hkind : j.kind = 0) (htherm : j.thermSkip = false) :
    Gives (.jobDeadline .hyd a b c) s fun u =>
      u.nsa.hyd = some { j with thermSkip := true, thermDone := c } ∧ getF u F.NSA_EVENTS_THERM_SKIPPED = 1 := by
  have hstop : jobStop s .hyd ⟨a, b, c⟩ =
      evBit (modCycle s fun j => j.cutAt ⟨a, 4, c⟩) F.NSA_EVENTS_THERM_SKIPPED 3 [] := by
    simp [jobStop, hjob, hkind, htherm]
  refine gives_of_own hown (f := fun s => jobStop s .hyd ⟨a, b, c⟩) rfl ?_
  rw [hstop]
  constructor
  · rw [nsa_evBit, hyd_modCycle hjob hkind]
    rfl
  · exact getF_evBit_same _ _ _ ⟨by decide, by decide⟩ rfl (by decide)

theorem refineDeadline_gives {a b c : Nat} (hgoes : j.stop = none) (hkind : j.kind = 4) (ha : a < bitsOf 31 28 (dw j.desc 15))
    (hb : b ≤ 3) (hc : c ≤ bitsOf 25 16 (dw j.desc 15)) : Gives (.refineDeadline a b c) s fun u =>
      u.nsa.hyd = some { j with stop := some ⟨a, b, c⟩ } ∧ getF u F.DPO_PLY_LAST_REFINE_DL = 1 := by
  have hstop : refineStop s ⟨a, b, c⟩ =
      setF { s with nsa := { s.nsa with hyd := some { j with stop := some ⟨a, b, c⟩ } } } F.DPO_PLY_LAST_REFINE_DL 1 := by
    simp [refineStop, hjob, hkind, hgoes, (stopOk_iff ..).2 ⟨ha, hb, hc⟩]
  refine gives_of_own hown (f := fun s => refineStop s ⟨a, b, c⟩) rfl ?_
  rw [hstop]
  exact ⟨rfl, getF_setF_same _ _ _ ⟨by decide, by decide⟩⟩

theorem factBudgetExpiry_gives {a : Nat} (hkind : j.kind = 0) (hfactor : factorsIn j a = true) :
    Gives (.factBudgetExpiry .hyd a) s fun u =>
      u.nsa.hyd = some { j with abandoned := j.abandoned ++ [(a, s.nsa.factor)] } ∧
        getF u F.NSA_EVENTS_PRECOND_FALLBACK = 1 := by
  have hstop : factStop s .hyd a = evBit (modCycle s (abandonIn s.nsa.factor a)) F.NSA_EVENTS_PRECOND_FALLBACK 3 [] := by
    simp [factStop, hjob, hkind, hfactor]
  have habandon : abandonIn s.nsa.factor a j = { j with abandoned := j.abandoned ++ [(a, s.nsa.factor)] } := if_pos hfactor
  have hexec : exec (.factBudgetExpiry .hyd a) s =
      ownDecision s fun _ => sendEntry (factStop s .hyd a) (.fact (jobId s .hyd j) a false) := by
    change execFactBudgetExpiry .hyd a s = _
    simp [execFactBudgetExpiry, runningJob, hjob, hfactor, ownDecision]
  have htold : MessagesOnly (factStop s .hyd a) (sendEntry (factStop s .hyd a) (.fact (jobId s .hyd j) a false)) :=
    .after_sendEntry (.refl _) _
  refine gives_of_own hown hexec ⟨?_, ?_⟩
  · rw [htold.nsa, hstop, nsa_evBit, hyd_modCycle hjob hkind, habandon]
  · rw [htold.getF, hstop]
    exact getF_evBit_same _ _ _ ⟨by decide, by decide⟩ rfl (by decide)

end

/-! ### Faults of a ply (R82, R83, R291) -/

theorem cutAt_cycle (j : Job) (sp : StopPoint) : (j.cutAt sp).cycle = j.cycle := by
  unfold Job.cutAt
  split <;> rfl

/-- A job cut off where it stands has a header of its cycle with OUTCOME 3. -/
theorem cutJob_header (md : Model) (ms : Nat) (j : Job) (kept : Option Factor) (base : BaseState) (warm : Job.M WarmOut)
    (therm : Bool) (sp : StopPoint) (elapsed : Nat) :
    (cutJob md ms j kept base warm therm sp elapsed).r.outcome = 3 ∧
      (cutJob md ms j kept base warm therm sp elapsed).r.cycle = j.cycle :=
  ⟨rfl, cutAt_cycle j sp⟩

/-- A ply that ends at its second fault is kept for its check. -/
theorem plyFault_spec (s : State) (md : Model) (j : Job) (sp : StopPoint) (elapsed : Nat) :
    (plyFault s md j sp elapsed).nsa.ply = none ∧
      ∃ p, (plyFault s md j sp elapsed).nsa.plyDone = some p ∧ p.result.outcome = 3 ∧ p.result.cycle = j.cycle := by
  have hheader := cutJob_header md (netMs s) j s.nsa.factor j.base (pure (plyWarm md j)) true sp elapsed
  unfold plyFault plyCut
  generalize cutJob md (netMs s) j s.nsa.factor j.base (pure (plyWarm md j)) true sp elapsed = o at hheader ⊢
  exact ⟨rfl, _, rfl, hheader⟩

theorem nsa_clusterFaulty (s : State) (c : Nat) : (clusterFaulty s c).nsa = s.nsa := (congrArg State.nsa (ev_only ..) :)

theorem testBit_clusterFaulty (s : State) (c : Fin 8) :
    (getF (clusterFaulty s c.val) F.NSA_CLUSTER_FAULTY).testBit c.val = true := by
  unfold clusterFaulty
  rw [getF_ev_of_lt _ _ _ _ _ (by decide), getF_setF_same _ _ _ ⟨by decide, by decide⟩, Nat.testBit_mod_two_pow,
    Nat.testBit_or, Nat.testBit_two_pow_self]
  simp [F.NSA_CLUSTER_FAULTY, c.isLt]

theorem messagesOnly_faultTold (s : State) (sel : JobSel) (j : Job) (sp : StopPoint) (elapsed : Nat) :
    MessagesOnly s (faultTold s sel j sp elapsed) := .after_ite (.after_sendJob (.refl s) ..) (.refl s)

section
variable {s : State} {j : Job} {c : Fin 8} (hjob : s.nsa.ply = some j) (hlane : (laneMask s .ply).testBit c.val = true)
include hjob hlane

theorem unitRetry_ply_first_gives (a b i us : Nat) : Gives (.unitRetry .ply c false a b i us) s fun u =>
    u.nsa.ply = some { j with retried := true } ∧
      getF u F.NSA_CNT_RETRY_COUNT = (getF s F.NSA_CNT_RETRY_COUNT + 1) % 2 ^ 32 := by
  have hfault : unitFault s .ply c.val false ⟨a, b, i⟩ us = countRetry (retryJob s .ply) := by
    simp [unitFault, runningJob, hjob, hlane]
  refine ⟨_, congrArg Host.Outcome.next hfault, ?_, ?_⟩
  · exact congrArg (Option.map _) hjob
  · exact getF_setF_same _ _ _ ⟨by decide, by decide⟩

theorem unitRetry_ply_second_gives {md : Model} (hown : roleOf s ≠ roSTANDBY) (hmodel : s.nsa.model = some md)
    (a b i us : Nat) : Gives (.unitRetry .ply c true a b i us) s fun u =>
      u.nsa.ply = none ∧ (getF u F.NSA_CLUSTER_FAULTY).testBit c.val = true ∧
        ∃ p, u.nsa.plyDone = some p ∧ p.result.outcome = 3 ∧ p.result.cycle = j.cycle := by
  have hfault : unitFault s .ply c.val true ⟨a, b, i⟩ us =
      clusterFaulty (faultTold (plyFault s md j ⟨a, b, i⟩ us) .ply j ⟨a, b, i⟩ us) c.val := by
    simp [unitFault, runningJob, hjob, hlane, hown, faultJob, hmodel]
  refine ⟨_, congrArg Host.Outcome.next hfault, ?_⟩
  dsimp only
  rw [nsa_clusterFaulty, (messagesOnly_faultTold ..).nsa]
  obtain ⟨hgone, hkept⟩ := plyFault_spec s md j ⟨a, b, i⟩ us
  exact ⟨hgone, testBit_clusterFaulty _ c, hkept⟩

end

/-! ### The end of a study (R62, R227, R291) -/

theorem exec_studyDone {s : State} {j : Job} {js : List Job} (hown : roleOf s ≠ roSTANDBY) (hqueue : s.nsa.studies = j :: js)
    (hlane : waits s .study j = false) (us : Nat) : exec (.studyDone us) s = .next (studyEnd s j us) := by
  change execStudyDone us s = _
  simp [execStudyDone, hqueue, hlane, withEnd, hown]

/-- A study that runs to its end leaves the queue with its result, after notes that change registers alone. -/
theorem studyEnd_eq (s : State) (j : Job) (us : Nat) : ∃ t r, RegsOnly s t ∧ studyEnd s j us = studyOut t j r := by
  refine ⟨_, _, ?_, rfl⟩
  exact .after_ite (.after_setFi (.after_setF (regsOnly_jobNotes ..))) (regsOnly_jobNotes ..)

theorem posts_studyGone (s : State) (j : Job) (r : NetState) :
    (taskOf (studyGone s j r) (taskIx j.task)).posts = (taskOf s (taskIx j.task)).posts ++ [studyRecord j r] := by
  unfold studyGone
  rw [taskOf_modTask_same]
  rfl

theorem studyBusy_studyGone {s : State} {j : Job} {js : List Job} (hqueue : s.nsa.studies = j :: js) (r : NetState) :
    getF (studyGone s j r) F.NSA_STATUS_STUDY_BUSY = if js = [] then 0 else 1 := by
  have hbusy : getF (studyGone s j r) F.NSA_STATUS_STUDY_BUSY = bNat (!(s.nsa.studies.drop 1).isEmpty) % 2 :=
    getF_setF_same _ F.NSA_STATUS_STUDY_BUSY _ ⟨by decide, by decide⟩
  rw [hbusy, hqueue]
  cases js <;> rfl

theorem taskOf_congr {s t : State} (h : t.tasks = s.tasks) (i : Fin 16) : taskOf t i = taskOf s i := by
  simp only [taskOf, h]

theorem studyDone_gives {s : State} {j : Job} {js : List Job} (hown : roleOf s ≠ roSTANDBY) (hqueue : s.nsa.studies = j :: js)
    (hlane : waits s .study j = false) (us : Nat) : Gives (.studyDone us) s fun u =>
      u.nsa.studies = js ∧ getF u F.NSA_STATUS_STUDY_BUSY = (if js = [] then 0 else 1) ∧
      ∃ p, (taskOf u (taskIx j.task)).posts = (taskOf s (taskIx j.task)).posts ++ [p] ∧ p.ticket = j.ticket ∧
        p.status = 1 ∧ p.isStudy = true ∧ p.dueTime = j.start + dw j.desc 2 * 1000 ∧ p.userOff = dw j.desc 10 := by
  obtain ⟨t, r, hnotes, hend⟩ := studyEnd_eq s j us
  have hout := messagesOnly_studyOut t j r
  have hstudies : t.nsa.studies = j :: js := hnotes.nsa ▸ hqueue
  refine ⟨_, (exec_studyDone hown hqueue hlane us).trans (congrArg _ hend), ?_, ?_, studyRecord j r, ?_,
    rfl, rfl, rfl, rfl, rfl⟩
  · rw [(studiesLeave_studyOut hnotes j r).studies, hqueue]
    rfl
  · rw [hout.getF, studyBusy_studyGone hstudies]
  · rw [taskOf_congr hout.tasks, posts_studyGone, taskOf_congr hnotes.tasks]

/-! ### The preparation and the validation of a model (R46, R47, R50) -/

theorem modelPreparationDone_gives {s : State} {a : Activation} (h : s.nsa.activation = some a) :
    Gives .modelPreparationDone s fun u =>
      u.nsa.activation = some { a with prepared := true } ∧ getF u F.NSA_MODEL_STATUS_PREPARING = 0 := by
  have hexec : exec .modelPreparationDone s =
      .next (setF { s with nsa := { s.nsa with activation := some { a with prepared := true } } }
        F.NSA_MODEL_STATUS_PREPARING 0) := by
    change execModelPreparationDone s = _
    simp [execModelPreparationDone, h]
  exact ⟨_, hexec, rfl, getF_setF_same _ _ _ ⟨by decide, by decide⟩⟩

/-- A module that decides for itself reports no slot to a peer. -/
theorem reportValid_of_own {s : State} (h : roleOf s ≠ roSTANDBY) (slot : Nat) : reportValid s slot = s := by
  unfold reportValid
  split
  · simp [h]
  · rfl

/-- The validation of a slot is no longer in progress. -/
def validationOver (s : State) (slot : Nat) : State :=
  { s with nsa := { s.nsa with validating := s.nsa.validating.filter fun e => e.1 != slot } }

theorem exec_modelValidationDone {s : State} {slot : Fin 2} {n : Nat} (h : s.nsa.validating = [(slot.val, n, false)])
    (ok : Bool) : exec (.modelValidationDone slot ok) s = .next (validated s slot.val n false ok) := by
  change execModelValidationDone slot ok s = _
  simp [execModelValidationDone, h]

theorem validating_validationOver {s : State} {slot n : Nat} {r : Bool} (h : s.nsa.validating = [(slot, n, r)]) :
    (validationOver s slot).nsa.validating = [] := by
  simp [validationOver, h]

section
variable {s : State} {slot n : Nat} {ok : Bool}

/-- A slot that passes is VALID, with no failure shown. -/
theorem validated_of_pass (hown : roleOf s ≠ roSTANDBY)
    (hpass : validateModel s.mem (modelSlotBase slot) n (ok && (ownerValid s 0 || ownerValid s 1)) = none) :
    validated s slot n false ok =
      qhcDone (setReg (setF (validationOver s slot) (slotField slot) slVALID) R.NSA_MODEL_ERR 0) 0 0 0 := by
  have hrole : roleOf (setReg (setF (validationOver s slot) (slotField slot) slVALID) R.NSA_MODEL_ERR 0) = roleOf s := by
    refine getF_of_getReg ((getReg_setReg_ne _ _ _ _ (by decide)).trans (getReg_setF_ne _ _ _ _ ?_))
    rw [slotField_addr]
    decide
  have hstart : validated s slot n false ok =
      qhcDone (reportValid (setReg (setF (validationOver s slot) (slotField slot) slVALID) R.NSA_MODEL_ERR 0) slot) 0 0 0 := by
    have hv : validateModel s.mem (modelSlotBase slot) n
        (ok && (ownerValid (validationOver s slot) 0 || ownerValid (validationOver s slot) 1)) = none := hpass
    unfold validationOver at hv ⊢
    simp [validated, hv]
  rw [hstart, reportValid_of_own (by rwa [hrole])]

/-- A slot that fails is INVALID, with its failure shown. -/
theorem validated_of_fail {f : Nat × Nat × Nat}
    (hfail : validateModel s.mem (modelSlotBase slot) n (ok && (ownerValid s 0 || ownerValid s 1)) = some f) :
    validated s slot n false ok = qhcDone (showInvalid (validationOver s slot) slot f) 0 f.1 0 := by
  have hv : validateModel s.mem (modelSlotBase slot) n
      (ok && (ownerValid (validationOver s slot) 0 || ownerValid (validationOver s slot) 1)) = some f := hfail
  unfold validationOver at hv ⊢
  simp [validated, hv]

end

/-- A failure shown leaves its slot INVALID, its code in NSA_MODEL_ERR, and the jobs as they were. -/
theorem showInvalid_spec (s : State) (slot : Nat) (f : Nat × Nat × Nat) :
    (showInvalid s slot f).nsa = s.nsa ∧ slotState (showInvalid s slot f) slot = slINVALID ∧
      getF (showInvalid s slot f) F.NSA_MODEL_ERR_CODE = f.1 % 2 ^ F.NSA_MODEL_ERR_CODE.width := by
  have haddr := slotField_addr slot
  refine ⟨(congrArg State.nsa (ev_only ..) :), ?_, ?_⟩
  · unfold showInvalid showModelErr slotState
    rw [getF_ev_of_lt _ _ _ _ _ (by rw [haddr]; decide)]
    iterate 5 rw [getF_of_getReg (getReg_setF_ne _ _ _ _ (by rw [haddr]; decide))]
    exact slotState_setF s slot (by decide)
  · unfold showInvalid showModelErr
    rw [getF_ev_of_lt _ _ _ _ _ (by decide), getF_setF_ne _ _ _ _ (by decide), getF_setF_ne _ _ _ _ (by decide),
      getF_setF_apart _ _ _ _ ⟨by decide, by decide⟩ (by decide) (.inr (by decide)),
      getF_setF_apart _ _ _ _ ⟨by decide, by decide⟩ (by decide) (.inr (by decide)),
      getF_setF_same _ _ _ ⟨by decide, by decide⟩]
    rfl

section
variable {s : State} {slot : Fin 2} {n : Nat} {ok : Bool} (hval : s.nsa.validating = [(slot.val, n, false)])
include hval

theorem modelValidationDone_valid_gives (hown : roleOf s ≠ roSTANDBY)
    (hpass : validateModel s.mem (modelSlotBase slot.val) n (ok && (ownerValid s 0 || ownerValid s 1)) = none) :
    Gives (.modelValidationDone slot ok) s fun u => slotState u slot.val = slVALID ∧ u.nsa.validating = [] := by
  refine ⟨_, (exec_modelValidationDone hval ok).trans (congrArg _ (validated_of_pass hown hpass)), ?_⟩
  have hdone := MessagesOnly.after_qhcDone
    (.refl (setReg (setF (validationOver s slot.val) (slotField slot.val) slVALID) R.NSA_MODEL_ERR 0)) 0 0 0
  dsimp only
  rw [hdone.slotState, hdone.nsa]
  refine ⟨?_, validating_validationOver hval⟩
  unfold slotState
  rw [getF_of_getReg (getReg_setReg_ne _ _ _ _ (by rw [slotField_addr]; decide))]
  exact slotState_setF _ slot.val (by decide)

theorem modelValidationDone_invalid_gives {f : Nat × Nat × Nat}
    (hfail : validateModel s.mem (modelSlotBase slot.val) n (ok && (ownerValid s 0 || ownerValid s 1)) = some f) :
    Gives (.modelValidationDone slot ok) s fun u => slotState u slot.val = slINVALID ∧
      getF u F.NSA_MODEL_ERR_CODE = f.1 % 2 ^ F.NSA_MODEL_ERR_CODE.width ∧ u.nsa.validating = [] := by
  refine ⟨_, (exec_modelValidationDone hval ok).trans (congrArg _ (validated_of_fail hfail)), ?_⟩
  have hdone := MessagesOnly.after_qhcDone (.refl (showInvalid (validationOver s slot.val) slot.val f)) 0 f.1 0
  obtain ⟨hnsa, hstate, hcode⟩ := showInvalid_spec (validationOver s slot.val) slot.val f
  dsimp only
  rw [hdone.slotState, hdone.getF, hdone.nsa, hnsa]
  exact ⟨hstate, hcode, validating_validationOver hval⟩

end

/-! ### The statement -/

/-- Settles O42, a rule for each command: what a job notes changes registers alone and what the peer is told messages alone, so
that each end of a job is the change that its rule names. -/
theorem solverJobs : Obligations.SolverJobs := by
  unfold Obligations.SolverJobs
  intro s hown
  refine ⟨?deadlines, ?faults, fun j js us hqueue hlane => studyDone_gives hown hqueue hlane us,
    fun a h => modelPreparationDone_gives h, ?validation⟩
  case deadlines =>
    intro j a b c hjob hgoes sp
    exact ⟨hydraulicDeadline_gives hown hjob hgoes, jobDeadline_gives hown hjob a b c, refineDeadline_gives hown hjob hgoes,
      factBudgetExpiry_gives hown hjob⟩
  case faults =>
    intro j md c a b i us hjob hmodel hlane
    exact ⟨unitRetry_ply_first_gives hjob hlane a b i us, unitRetry_ply_second_gives hjob hlane hown hmodel a b i us⟩
  case validation =>
    intro slot n ok hval v
    exact ⟨modelValidationDone_valid_gives hval hown, fun f => modelValidationDone_invalid_gives hval⟩

end Sys2Proof.Machine
end

section
/-!
PROOFS. The dispatch instant and the dispatch job (04 R103 R112 R113 R115): which table an instant leaves in force, how the job
starts, ends and stops, the switches of DPO_CTRL, and O43.
-/
namespace Sys2Proof.Machine

/-! ### An outcome shown (R112, R113) -/

theorem dpo_dpoOutcome (s : State) (j o : Nat) :
    (dpoOutcome s j o).dpo = { s.dpo with ended := some (j, o), due := none } := by
  unfold dpoOutcome
  split <;> rfl

/-- An outcome shows in DPO_EVENTS, if it has an event. -/
theorem outcomeBit_addr {o : Nat} {f : Fld} (h : outcomeBit o = some f) : f.addr = R.DPO_EVENTS := by
  unfold outcomeBit at h
  split at h <;> cases h <;> rfl

/-- An outcome sets LAST_OUTCOME and leaves every register but DPO_EVENTS otherwise. -/
theorem getReg_dpoOutcome (s : State) (j o : Nat) {a : Nat} (h : a ≠ R.DPO_EVENTS) :
    getReg (dpoOutcome s j o) a = getReg (setF s F.DPO_STATUS_LAST_OUTCOME o) a := by
  unfold dpoOutcome
  split
  · next f hf => exact getReg_setF_ne _ f 1 a (outcomeBit_addr hf ▸ h)
  · rfl

theorem getReg_dpoOutcome_of_ne (s : State) (j o : Nat) {a : Nat} (hstatus : a ≠ R.DPO_STATUS) (hevents : a ≠ R.DPO_EVENTS) :
    getReg (dpoOutcome s j o) a = getReg s a :=
  (getReg_dpoOutcome s j o hevents).trans (getReg_setF_ne _ _ _ _ hstatus)

theorem decValid_dpoOutcome (s : State) (j o : Nat) :
    getF (dpoOutcome s j o) F.DPO_STATUS_DEC_VALID = getF s F.DPO_STATUS_DEC_VALID :=
  (getF_of_getReg (getReg_dpoOutcome s j o (by decide))).trans
    (getF_setF_apart _ _ _ _ ⟨by decide, by decide⟩ rfl (.inl (by decide)))

/-! ### The parts of a dispatch instant (R24, R103) -/

/-- Dispatch instant `j` met. -/
def metAt (s : State) (j : Nat) : State := { s with dpo := { s.dpo with instant := some j } }

/-- The dispatch job of instant `j` due, or the outcome that it has without one. -/
def jobDue (s : State) (j : Nat) : State :=
  if s.nsa.dispDesc.isNone then s
  else if s.dpo.dpoOff then dpoOutcome s j 8
  else if s.nsa.model.isNone then dpoOutcome s j 4
  else { s with dpo := { s.dpo with due := some (j, nowNs s) } }

/-- The table digested, unless a standby waits for the end of its job. -/
def tableDigested (s : State) (j : Nat) : State := if s.dpo.late.isSome then s else digestTable s j

theorem dispatchMet_eq (s : State) : dispatchMet s =
    let j := nowNs s / dispNs s
    jobDue (tableDigested (settlePrevious (metAt s j) j) j) j := rfl

/-! ### The table in force (R24, R112) -/

/-- `t` shows the decision table and the count of kept tables that `s` shows. -/
structure SameTable (s t : State) : Prop where
  table : t.dpo.table = s.dpo.table
  index : get64 t R.DPO_DEC_LO R.DPO_DEC_HI = get64 s R.DPO_DEC_LO R.DPO_DEC_HI
  valid : getF t F.DPO_STATUS_DEC_VALID = getF s F.DPO_STATUS_DEC_VALID
  kept : getF t F.DPO_CNT_KEPT_COUNT = getF s F.DPO_CNT_KEPT_COUNT

namespace SameTable

variable {s t : State}

theorem refl (s : State) : SameTable s s := ⟨rfl, rfl, rfl, rfl⟩

theorem after_digestTable (h : SameTable s t) (j : Nat) : SameTable s (digestTable t j) := by
  have hsent : MessagesOnly t (digestTable t j) := by
    unfold digestTable
    split
    · exact .after_digestUnit (.refl t) ..
    · exact .refl t
  exact { table := (congrArg Dpo.table hsent.dpo).trans h.table
          index := by simp only [get64, getReg_congr hsent.regs]; exact h.index
          valid := (hsent.getF _).trans h.valid
          kept := (hsent.getF _).trans h.kept }

theorem after_dpoOutcome (h : SameTable s t) (j o : Nat) : SameTable s (dpoOutcome t j o) where
  table := by rw [dpo_dpoOutcome]; exact h.table
  index := by
    rw [get64, getReg_dpoOutcome_of_ne _ _ _ (by decide) (by decide), getReg_dpoOutcome_of_ne _ _ _ (by decide) (by decide)]
    exact h.index
  valid := (decValid_dpoOutcome t j o).trans h.valid
  kept := (getF_of_getReg (getReg_dpoOutcome_of_ne _ _ _ (by decide) (by decide))).trans h.kept

theorem after_tableDigested (h : SameTable s t) (j : Nat) : SameTable s (tableDigested t j) := by
  unfold tableDigested
  split
  · exact h
  · exact h.after_digestTable j

theorem after_jobDue (h : SameTable s t) (j : Nat) : SameTable s (jobDue t j) := by
  unfold jobDue
  split
  · exact h
  · split
    · exact h.after_dpoOutcome j 8
    · split
      · exact h.after_dpoOutcome j 4
      · exact ⟨h.table, h.index, h.valid, h.kept⟩

end SameTable

/-- A dispatch instant settles the previous one; what follows leaves the table that it then shows. -/
theorem sameTable_dispatchMet (s : State) :
    SameTable (settlePrevious (metAt s (nowNs s / dispNs s)) (nowNs s / dispNs s)) (dispatchMet s) :=
  dispatchMet_eq s ▸ .after_jobDue (.after_tableDigested (.refl _) _) _

/-- With no job in progress or due and no plan block held, only the outcome of the previous instant is left to settle. -/
theorem settlePrevious_of_idle {s : State} (hjob : s.dpo.job = none) (hdue : s.dpo.due = none) (hplan : s.dpo.plan = none)
    (j : Nat) : settlePrevious s j = settleEnded s j := by
  have hsettled : settleJob s = s := by simp [settleJob, hjob, hdue]
  have hwritten : writePlan s = s := by simp [writePlan, hplan]
  simp [settlePrevious, hjob, settleNow_eq, hsettled, hwritten]

/-- The outcome of the previous instant taken up. -/
def outcomeTaken (s : State) : State := { s with dpo := { s.dpo with ended := none } }

/-- The table of the job of the previous instant comes into force, or else the outcome keeps the old one. -/
theorem settleEnded_of_applied {s : State} {j : Nat} {t : DecTable} (hj : 0 < j) (hended : s.dpo.ended = some (j - 1, 0))
    (hnext : s.dpo.next = some t) : settleEnded s j = tableInForce (outcomeTaken s) t := by
  simp [settleEnded, outcomeTaken, hended, hnext, Nat.sub_add_cancel hj]

theorem settleEnded_of_other {s : State} {i j o : Nat} (hended : s.dpo.ended = some (i, o)) (ho : o ≠ 0) :
    settleEnded s j = tableKept (outcomeTaken s) o := by
  simp [settleEnded, outcomeTaken, hended, ho]

/-- A table that was computed under the model that is active comes into force as it is (R52). -/
theorem tableInForce_of_sameModel {s : State} (h : s.dpo.nextModel = s.nsa.model) (t : DecTable) :
    tableInForce s t = setF (set64 { s with dpo := { s.dpo with table := some t, next := none } }
      R.DPO_DEC_LO R.DPO_DEC_HI t.index) F.DPO_STATUS_DEC_VALID 1 := by
  unfold tableInForce
  rw [h]
  cases s.nsa.model <;> simp

theorem tableInForce_spec {s : State} (h : s.dpo.nextModel = s.nsa.model) (t : DecTable) :
    (tableInForce s t).dpo.table = some t ∧ get64 (tableInForce s t) R.DPO_DEC_LO R.DPO_DEC_HI = t.index % 2 ^ 64 ∧
      getF (tableInForce s t) F.DPO_STATUS_DEC_VALID = 1 := by
  rw [tableInForce_of_sameModel h]
  refine ⟨rfl, ?_, getF_setF_same _ _ _ ⟨by decide, by decide⟩⟩
  rw [get64, getReg_setF_ne _ _ _ _ (by decide), getReg_setF_ne _ _ _ _ (by decide)]
  exact get64_set64 _ _ (by decide)

theorem tableKept_spec (s : State) (o : Nat) : (tableKept s o).dpo.table = s.dpo.table ∧
    getF (tableKept s o) F.DPO_CNT_KEPT_COUNT = (getF s F.DPO_CNT_KEPT_COUNT + 1) % 2 ^ 32 := by
  have hcount : getF (bump s F.DPO_CNT_KEPT_COUNT) F.DPO_CNT_KEPT_COUNT = (getF s F.DPO_CNT_KEPT_COUNT + 1) % 2 ^ 32 :=
    getF_setF_same _ _ _ ⟨by decide, by decide⟩
  unfold tableKept
  dsimp only
  split
  · exact ⟨rfl, hcount⟩
  · exact ⟨(congrArg (·.dpo.table) (ev_only (bump s F.DPO_CNT_KEPT_COUNT) blkDPO 0x80 4 [o]) :),
      (getF_ev_of_lt _ _ _ _ _ (by decide)).trans hcount⟩

/-! ### The dispatch instant (R24, R103, R112) -/

theorem exec_dispatchInstant {s : State} (hrun : s.runState = true) (hexec : executes s = true)
    (hinstant : nowNs s % dispNs s = 0) (hcycle : s.nsa.instant = some (cycleNow s))
    (hnew : s.dpo.instant ≠ some (nowNs s / dispNs s)) : exec .dispatchInstant s = .next (dispatchMet s) := by
  change Host.Outcome.next (meetDispatch s) = _
  simp [meetDispatch, atDispatch, hrun, hexec, hinstant, hcycle, hnew]

section
variable {s : State} (hmet : exec .dispatchInstant s = .next (dispatchMet s)) (hjob : s.dpo.job = none)
  (hdue : s.dpo.due = none) (hplan : s.dpo.plan = none)
include hmet hjob hdue hplan

theorem dispatchInstant_applied_gives {t : DecTable} (hended : s.dpo.ended = some (nowNs s / dispNs s - 1, 0))
    (hj : 0 < nowNs s / dispNs s) (hnext : s.dpo.next = some t) (hmodel : s.dpo.nextModel = s.nsa.model) :
    Gives .dispatchInstant s fun u => u.dpo.table = some t ∧ get64 u R.DPO_DEC_LO R.DPO_DEC_HI = t.index % 2 ^ 64 ∧
      getF u F.DPO_STATUS_DEC_VALID = 1 := by
  have hsame := sameTable_dispatchMet s
  rw [settlePrevious_of_idle (s := metAt s _) hjob hdue hplan, settleEnded_of_applied (s := metAt s _) hj hended hnext] at hsame
  obtain ⟨htable, hindex, hvalid, -⟩ := hsame
  obtain ⟨hforce, hshown, hset⟩ := tableInForce_spec (s := outcomeTaken (metAt s _)) hmodel t
  exact ⟨_, hmet, htable.trans hforce, hindex.trans hshown, hvalid.trans hset⟩

theorem dispatchInstant_kept_gives {i o : Nat} (hended : s.dpo.ended = some (i, o)) (ho : o ≠ 0) :
    Gives .dispatchInstant s fun u => u.dpo.table = s.dpo.table ∧
      getF u F.DPO_CNT_KEPT_COUNT = (getF s F.DPO_CNT_KEPT_COUNT + 1) % 2 ^ 32 := by
  have hsame := sameTable_dispatchMet s
  rw [settlePrevious_of_idle (s := metAt s _) hjob hdue hplan, settleEnded_of_other (s := metAt s _) hended ho] at hsame
  obtain ⟨htable, -, -, hkept⟩ := hsame
  obtain ⟨hold, hcount⟩ := tableKept_spec (outcomeTaken (metAt s (nowNs s / dispNs s))) o
  exact ⟨_, hmet, htable.trans hold, hkept.trans hcount⟩

end

/-! ### The start of the dispatch job (R103) -/

theorem exec_dispatchJobStart {s : State} {i a : Nat} {st : NetState} {md : Model} {sn : Snapshot} {d : List Nat}
    {f : Forecast} (hdue : s.dpo.due = some (i, a)) (hstate : s.nsa.committed = some st) (hmodel : s.nsa.model = some md)
    (hsnap : s.nsa.snap = some sn) (hdesc : s.nsa.dispDesc = some d) (hcycle : st.cycle = a / netNs s)
    (hon : s.dpo.dpoOff = false) (hfcst : validForecast s = some f) (hchecked : descRefuse s d [5] = 0)
    (hblocks : blockRefuse s md d = 0) : exec .dispatchJobStart s = .next (dispatchStart s md i a d st f sn) := by
  change execDispatchJobStart s = _
  simp [execDispatchJobStart, hdue, hstate, hmodel, hsnap, hdesc, hcycle, hon, hfcst, hchecked, hblocks]

theorem dispatchStart_spec (s : State) (md : Model) (i a : Nat) (d : List Nat) (st : NetState) (f : Forecast) (sn : Snapshot) :
    let u := dispatchStart s md i a d st f sn
    (∃ x, u.dpo.job = some x ∧ x.desc = d ∧ x.start = a ∧ x.model = some md) ∧ u.dpo.jobIndex = i ∧ u.dpo.due = none ∧
      getF u F.NSA_STATUS_DPO_BUSY = 1 :=
  ⟨⟨_, rfl, rfl, rfl, rfl⟩, rfl, rfl, getF_setF_same _ _ _ ⟨by decide, by decide⟩⟩

/-! ### The end of the dispatch job (R111, R112, R113, R291) -/

/-- The plan block of a job held, and what DPO_STATUS and DPO_LAST_TIME show of the job. -/
def planShown (s : State) (d : List Nat) (b : List Byte) (ext elapsed : Nat) : State :=
  setF (setF (holdPlan s d b) F.DPO_STATUS_FCST_EXTENDED ext) F.DPO_LAST_TIME_ELAPSED elapsed

/-- The dispatch job over with an outcome, and the peer told of it. -/
def jobOver (s : State) (j o iters elapsed : Nat) : State :=
  dispatchTold (endDispatch (dpoOutcome s j o)) j o iters elapsed s.dpo.retried

theorem dpo_planShown (s : State) (d : List Nat) (b : List Byte) (ext elapsed : Nat) :
    (planShown s d b ext elapsed).dpo.table = s.dpo.table ∧ (planShown s d b ext elapsed).dpo.jobIndex = s.dpo.jobIndex := by
  unfold planShown holdPlan
  split <;> exact ⟨rfl, rfl⟩

theorem elapsed_planShown (s : State) (d : List Nat) (b : List Byte) (ext elapsed : Nat) :
    getF (planShown s d b ext elapsed) F.DPO_LAST_TIME_ELAPSED = elapsed % 2 ^ 32 :=
  getF_setF_same _ _ _ ⟨by decide, by decide⟩

theorem messagesOnly_jobOver (s : State) (j o iters elapsed : Nat) :
    MessagesOnly (endDispatch (dpoOutcome s j o)) (jobOver s j o iters elapsed) := .after_sendEntry (.refl _) _

theorem dpo_jobOver (s : State) (j o iters elapsed : Nat) : (jobOver s j o iters elapsed).dpo =
    { s.dpo with job := none, retried := false, ended := some (j, o), due := none } := by
  rw [(messagesOnly_jobOver ..).dpo]
  change { (dpoOutcome s j o).dpo with job := none, retried := false } = _
  rw [dpo_dpoOutcome]

theorem dpoBusy_jobOver (s : State) (j o iters elapsed : Nat) :
    getF (jobOver s j o iters elapsed) F.NSA_STATUS_DPO_BUSY = 0 :=
  ((messagesOnly_jobOver ..).getF _).trans (getF_setF_same _ _ _ ⟨by decide, by decide⟩)

theorem elapsed_jobOver (s : State) (j o iters elapsed : Nat) :
    getF (jobOver s j o iters elapsed) F.DPO_LAST_TIME_ELAPSED = getF s F.DPO_LAST_TIME_ELAPSED := by
  rw [(messagesOnly_jobOver ..).getF]
  exact (getF_setF_ne _ _ _ _ (by decide)).trans
    (getF_of_getReg (getReg_dpoOutcome_of_ne _ _ _ (by decide) (by decide)))

theorem dpoAbort_eq {s : State} {x : Job} {f : Forecast} {md : Model} (hfcst : s.dpo.jobFcst = some f)
    (hmodel : x.model = some md) (o iters elapsed : Nat) : ∃ b ext,
    let v := planShown s x.desc b ext elapsed
    dpoAbort s x o iters elapsed = jobOver v v.dpo.jobIndex o iters elapsed := by
  unfold dpoAbort
  rw [hfcst, hmodel]
  exact ⟨_, _, rfl⟩

/-- The table of a job that ended APPLIED, which comes into force at the next dispatch instant. -/
def tableNext (s : State) (t : DecTable) (md : Model) (prev : Option (Nat × Nat × List Int × List Nat)) : State :=
  bump { s with dpo := { s.dpo with next := some t, nextModel := some md, prevPlan := prev } } F.DPO_CNT_APPLIED_COUNT

theorem dispatchEnd_eq (s : State) (x : Job) (md : Model) (f : Forecast) (us : Nat) : ∃ b ext prev,
    let o := dispatchRun (dinOf s x md f)
    let ok := decide (o.rp ≤ sInt 32 (dw x.desc 14))
    let v := planShown s x.desc b ext us
    dispatchEnd s x md f us = jobOver (if ok then tableNext v { index := v.dpo.jobIndex, values := o.table } md prev else v)
      v.dpo.jobIndex (if ok then 0 else 6) 24 us := ⟨_, _, _, rfl⟩

theorem roleOf_dispatchEnd (s : State) (x : Job) (md : Model) (f : Forecast) (us : Nat) :
    roleOf (dispatchEnd s x md f us) = roleOf s := by
  obtain ⟨b, ext, prev, hend⟩ := dispatchEnd_eq s x md f us
  have hshown : TickFrame dispatchKept s (planShown s x.desc b ext us) :=
    .after_dpoField (by decide) (.after_dpoField (by decide) (.after_holdPlan (.refl _ s) _ _))
  have hkept : TickFrame dispatchKept s (dispatchEnd s x md f us) := by
    rw [hend]
    exact .after_dispatchTold (.after_endDispatch (.after_dpoOutcome
      (.after_ite (.after_dpoField (by decide) (.after_dpo hshown)) hshown) _ _)) _ _ _ _ _
  exact getF_of_getReg (hkept.regs _ (.inr rfl))

/-- A job that runs to its end leaves the table in force, and its own for the next instant where it ends APPLIED. -/
theorem dispatchEnd_spec (s : State) (x : Job) (md : Model) (f : Forecast) (us : Nat) :
    let o := dispatchRun (dinOf s x md f)
    let u := dispatchEnd s x md f us
    u.dpo.job = none ∧ getF u F.NSA_STATUS_DPO_BUSY = 0 ∧ u.dpo.table = s.dpo.table ∧
      u.dpo.ended = some (s.dpo.jobIndex, if o.rp ≤ sInt 32 (dw x.desc 14) then 0 else 6) ∧
      (o.rp ≤ sInt 32 (dw x.desc 14) → u.dpo.next = some { index := s.dpo.jobIndex, values := o.table }) := by
  obtain ⟨b, ext, prev, hend⟩ := dispatchEnd_eq s x md f us
  obtain ⟨htable, hindex⟩ := dpo_planShown s x.desc b ext us
  dsimp only at hend ⊢
  rw [hend, hindex]
  generalize dispatchRun (dinOf s x md f) = o
  refine ⟨by rw [dpo_jobOver], dpoBusy_jobOver .., ?_⟩
  rw [dpo_jobOver]
  by_cases hok : o.rp ≤ sInt 32 (dw x.desc 14)
  · simp [hok, tableNext, bump, bumpBy, setFi, htable]
  · simp [hok, htable]

theorem dispatchJobEnd_gives {s : State} {x : Job} {md : Model} {f : Forecast} {us : Nat} {P : State → Prop}
    (hown : roleOf s ≠ roSTANDBY) (hjob : s.dpo.job = some x) (hfcst : s.dpo.jobFcst = some f) (hmodel : x.model = some md)
    (hlane : waits s .dpo x = false) (hP : P (dispatchEnd s x md f us)) : Gives (.dispatchJobEnd us) s P := by
  have hrole : roleOf (dispatchEnd s x md f us) ≠ roSTANDBY := by rwa [roleOf_dispatchEnd]
  refine ⟨_, ?_, hP⟩
  change execDispatchJobEnd us s = _
  simp [execDispatchJobEnd, hjob, hfcst, hmodel, hlane, withEnd, hown, afterDispatch, hrole]

theorem dpoDeadline_gives {s : State} {x : Job} {md : Model} {f : Forecast} (hown : roleOf s ≠ roSTANDBY)
    (hjob : s.dpo.job = some x) (hfcst : s.dpo.jobFcst = some f) (hmodel : x.model = some md) (n us : Nat) :
    Gives (.dpoDeadline n us) s fun u => u.dpo.job = none ∧ u.dpo.ended = some (s.dpo.jobIndex, 1) ∧
      u.dpo.table = s.dpo.table ∧ getF u F.DPO_LAST_TIME_ELAPSED = us % 2 ^ 32 := by
  obtain ⟨b, ext, hend⟩ := dpoAbort_eq hfcst hmodel 1 (min n 24) us
  obtain ⟨htable, hindex⟩ := dpo_planShown s x.desc b ext us
  have hstop : dispatchStop s n us = jobOver (planShown s x.desc b ext us) s.dpo.jobIndex 1 (min n 24) us := by
    rw [dispatchStop, hjob, ← hindex]
    exact hend
  refine gives_of_own hown (f := fun s => dispatchStop s n us) rfl ?_
  rw [hstop, dpo_jobOver, elapsed_jobOver]
  exact ⟨rfl, rfl, htable, elapsed_planShown ..⟩

/-! ### The switches of DPO_CTRL (R115) -/

/-- A write of DPO_CTRL notes from when it applies, beside what it sends to the peer. -/
theorem messagesOnly_ctrlWritten (s : State) :
    MessagesOnly { s with dpo := { s.dpo with ctrlAt := nextCycle s } } (ctrlWritten s) := .after_forwardBody (.refl _) ..

theorem nextCycle_setF (s : State) (f : Fld) (v : Nat) : nextCycle (setF s f v) = nextCycle s := by
  simp only [nextCycle, cycleNow, nowNs, netNs, netMs, setF, setFi, setReg_tim, setReg_prog]

theorem bNat_mod_two (on : Bool) : bNat on % 2 = bNat on := by cases on <;> rfl

/-- A switch of DPO_CTRL written shows, leaves the other one, and applies from the next network-cycle instant. -/
theorem switchWritten_spec (s : State) {f g : Fld} (on : Bool) (hf : f.inWord) (hbit : f.hi = f.lo) (haddr : g.at 0 = f.at 0)
    (hapart : g.hi < f.lo ∨ f.hi < g.lo) :
    let u := ctrlWritten (setF s f (bNat on))
    getF u f = bNat on ∧ getF u g = getF s g ∧ u.dpo = { s.dpo with ctrlAt := nextCycle s } := by
  have hwritten := messagesOnly_ctrlWritten (setF s f (bNat on))
  have hset : getF (setF s f (bNat on)) f = bNat on := by
    rw [getF_setF_same _ _ _ hf, hbit, Nat.add_sub_cancel_left]
    exact bNat_mod_two on
  have hregs : (ctrlWritten (setF s f (bNat on))).regs = (setF s f (bNat on)).regs := hwritten.regs
  refine ⟨(getF_congr hregs f).trans hset, (getF_congr hregs g).trans (getF_setF_apart _ _ _ _ hf haddr hapart), ?_⟩
  rw [hwritten.dpo, nextCycle_setF]
  rfl

theorem plyOff_gives (s : State) (on : Bool) : Gives (.plyOff on) s fun u => getF u F.DPO_CTRL_PLY_OFF = bNat on ∧
    getF u F.DPO_CTRL_DPO_OFF = getF s F.DPO_CTRL_DPO_OFF ∧ u.dpo = { s.dpo with ctrlAt := nextCycle s } :=
  ⟨_, rfl, switchWritten_spec s on ⟨by decide, by decide⟩ rfl rfl (.inl (by decide))⟩

theorem dpoOff_gives (s : State) (on : Bool) : Gives (.dpoOff on) s fun u => getF u F.DPO_CTRL_DPO_OFF = bNat on ∧
    getF u F.DPO_CTRL_PLY_OFF = getF s F.DPO_CTRL_PLY_OFF ∧ u.dpo = { s.dpo with ctrlAt := nextCycle s } :=
  ⟨_, rfl, switchWritten_spec s on ⟨by decide, by decide⟩ rfl rfl (.inr (by decide))⟩

/-! ### The statement -/

/-- Settles O43, a rule for each command: what follows the settlement of the previous instant leaves the table shown, and every
end of a job is the same close of it, under the outcome and the table that its rule names. -/
theorem dispatchCycle : Obligations.DispatchCycle := by
  unfold Obligations.DispatchCycle
  intro s j at_
  refine ⟨?applied, ?kept, ?start, ?jobEnd, ?deadline, fun on => ⟨plyOff_gives s on, dpoOff_gives s on⟩⟩
  case applied =>
    rintro t ⟨hrun, hexec, hinstant, hcycle, hnew⟩ hjob hdue hplan hended hj hnext hmodel
    exact dispatchInstant_applied_gives (exec_dispatchInstant hrun hexec hinstant hcycle hnew) hjob hdue hplan hended hj hnext
      hmodel
  case kept =>
    rintro o ⟨hrun, hexec, hinstant, hcycle, hnew⟩ hjob hdue hplan hended ho
    exact dispatchInstant_kept_gives (exec_dispatchInstant hrun hexec hinstant hcycle hnew) hjob hdue hplan hended ho
  case start =>
    intro i a st md sn d f hdue hstate hmodel hsnap hdesc hcycle hon hfcst hchecked hblocks
    exact ⟨_, exec_dispatchJobStart hdue hstate hmodel hsnap hdesc hcycle hon hfcst hchecked hblocks, dispatchStart_spec ..⟩
  case jobEnd =>
    intro x f md us hown hjob hfcst hmodel hlane
    exact dispatchJobEnd_gives hown hjob hfcst hmodel hlane (dispatchEnd_spec s x md f us)
  case deadline =>
    intro x f md n us hown hjob hfcst hmodel
    exact dpoDeadline_gives hown hjob hfcst hmodel n us

end Sys2Proof.Machine
end

section
/-!
PROOFS. An evaluation of a loop (05 R126): the clamps of its candidate and of its integrator, and O34.
-/
namespace Sys2Proof.Machine

/-! ### The clamps (R126) -/

/-- Bounds in order admit what `clampInt` gives, whatever it is given. -/
theorem clampInt_mem {lo hi : Int} (h : lo ≤ hi) (x : Int) : lo ≤ clampInt lo hi x ∧ clampInt lo hi x ≤ hi :=
  ⟨le_max_left lo _, max_le h (min_le_left hi x)⟩

/-- Limits in order admit what clampF gives: the limit that was passed, or a value between them. -/
theorem clampF_mem {w : List Nat} (h : lpOutMin w ≤ lpOutMax w) (f : Int) :
    lpOutMin w * 2 ^ 32 ≤ (clampF w f).1 ∧ (clampF w f).1 ≤ lpOutMax w * 2 ^ 32 := by
  have hlimits : lpOutMin w * 2 ^ 32 ≤ lpOutMax w * 2 ^ 32 := Int.mul_le_mul_of_nonneg_right h (by decide)
  dsimp only [clampF]
  split
  case isTrue below => exact ⟨le_rfl, hlimits⟩
  case isFalse notBelow =>
    split
    case isTrue above => exact ⟨hlimits, le_rfl⟩
    case isFalse notAbove => exact ⟨not_lt.mp notBelow, not_lt.mp notAbove⟩

/-! ### What an evaluation clamps (R126) -/

/-- The candidate is the unclamped output u of the control law, clamped. -/
theorem evalLoop_c_clamped (s : State) (l : Loop) :
    ∃ u, (evalLoop s l).c = clampInt (lpOutMin l.words) (lpOutMax l.words) u := ⟨_, rfl⟩

/-- The integrator is clamped in both of its cases: the bumpless start of an initialising evaluation, and the reset term. -/
theorem evalLoop_f_clamped (s : State) (l : Loop) : ∃ f, (evalLoop s l).loop.f = (clampF l.words f).1 := by
  dsimp only [evalLoop]
  split
  case isTrue starting => exact ⟨_, rfl⟩
  case isFalse running => exact ⟨_, rfl⟩

/-! ### The statement -/

/-- Settles O34: the last operation on the candidate and on the integrator is a clamp to the range, in an initialising
evaluation as in any other. -/
theorem loopOutputInRange : Obligations.LoopOutputInRange := by
  unfold Obligations.LoopOutputInRange
  intro s l hrange
  obtain ⟨u, hc⟩ := evalLoop_c_clamped s l
  obtain ⟨f, hf⟩ := evalLoop_f_clamped s l
  obtain ⟨hcmin, hcmax⟩ := clampInt_mem hrange u
  obtain ⟨hfmin, hfmax⟩ := clampF_mem hrange f
  rw [hc, hf]
  exact ⟨hcmin, hcmax, hfmin, hfmax⟩

end Sys2Proof.Machine
end

section
/-!
PROOFS. Registers of metering (06 R147, R154): an increment raises its register alone, whatever pulses it feeds.
-/
namespace Sys2Proof.Machine

/-! ### What events and backlogs leave (R154, R440) -/

theorem mtr_evBit (s : State) (f : Fld) (v : Nat) (l : List Nat) : (evBit s f v l).mtr = s.mtr :=
  (congrArg State.mtr (evBit_only s f v l) :)

theorem mem_evBit (s : State) (f : Fld) (v : Nat) (l : List Nat) : (evBit s f v l).mem = s.mem :=
  (congrArg State.mem (evBit_only s f v l) :)

theorem RegsOnly.mtr {s t : State} (h : RegsOnly s t) : t.mtr = s.mtr := (congrArg State.mtr h :)

theorem regsOnly_addBacklog (s : State) (p n : Nat) : RegsOnly s (addBacklog s p n) :=
  .after_ite rfl (.after_ite rfl rfl)

/-! ### An increment (R147) -/

/-- The metering registers and the memory are the same in both states. -/
def SameEnergy (s t : State) : Prop := t.mtr.regs = s.mtr.regs ∧ t.mem = s.mem

theorem RegsOnly.keepsEnergy {s t u : State} (g : RegsOnly t u) (h : SameEnergy s t) : SameEnergy s u :=
  ⟨(congrArg Mtr.regs g.mtr).trans h.1, g.mem.trans h.2⟩

theorem sameEnergy_evBit {s t : State} (h : SameEnergy s t) (f : Fld) (v : Nat) (l : List Nat) :
    SameEnergy s (evBit t f v l) :=
  ⟨(congrArg Mtr.regs (mtr_evBit t f v l)).trans h.1, (mem_evBit t f v l).trans h.2⟩

/-- Pulses are counted in accumulators and backlogs of their own. -/
theorem sameEnergy_feedPulses (s : State) (k inc : Nat) : SameEnergy s (feedPulses s k inc) := by
  refine forAll_keeps (P := SameEnergy s) (fun v p _ h => ?_) ⟨rfl, rfl⟩
  dsimp only
  split
  case isTrue follows => exact (regsOnly_addBacklog ..).keepsEnergy h
  case isFalse other => exact h

/-- The state with a metering register set. -/
def putMtrReg (s : State) (k v : Nat) : State := { s with mtr := { s.mtr with regs := amSet (fun _ => 0) s.mtr.regs k v } }

theorem mtrReg_putMtrReg (s : State) (k v j : Nat) : mtrReg (putMtrReg s k v) j = if j = k then v else mtrReg s j :=
  amGet_amSet ..

/-- The events of the wraps and the pulses leave the register as it is raised. -/
theorem sameEnergy_addReg (s : State) (k inc : Nat) :
    SameEnergy (putMtrReg s k ((mtrReg s k + inc) % 2 ^ 96)) (addReg s k inc) := by
  have hwraps : ∀ l : List Nat, SameEnergy (putMtrReg s k ((mtrReg s k + inc) % 2 ^ 96))
      (forAll (putMtrReg s k ((mtrReg s k + inc) % 2 ^ 96)) l fun s _ => evBit s F.MTR_EVENTS_WRAP 2 [regChannel k]) :=
    fun _ => forAll_keeps (P := SameEnergy _) (fun _ _ _ h => sameEnergy_evBit h _ _ _) ⟨rfl, rfl⟩
  obtain ⟨hregs, hmem⟩ := hwraps (List.range ((mtrReg s k % 2 ^ 80 + inc) / 2 ^ 80))
  obtain ⟨hfed, hfedMem⟩ := sameEnergy_feedPulses _ k inc
  exact ⟨hfed.trans hregs, hfedMem.trans hmem⟩

theorem mtrReg_addReg (s : State) (k inc j : Nat) :
    mtrReg (addReg s k inc) j = if j = k then (mtrReg s k + inc) % 2 ^ 96 else mtrReg s j := by
  rw [← mtrReg_putMtrReg s k]
  exact congrArg (amGet _ · j) (sameEnergy_addReg s k inc).1

/-- Settles O39: the register is read back from the one set of registers that changes. -/
theorem energyAdds : Obligations.EnergyAdds := by
  unfold Obligations.EnergyAdds
  intro s k inc
  refine ⟨?same, fun j hj => ?other, (sameEnergy_addReg s k inc).2⟩
  case same => rw [mtrReg_addReg, if_pos rfl]
  case other => rw [mtrReg_addReg, if_neg hj]

end Sys2Proof.Machine
end

section
/-!
PROOFS. Samples of electric channels (06 R138 to R141, 16 R412): a sample entered into a line cycle that stays open, what a frame
and a lost stream show, and O38.
-/
namespace Sys2Proof.Machine

/-! ### What leaves the line cycles alone (R141, R284) -/

/-- The metering engines differ in the interval data, the arrivals of frames and the decisions to forward at most. -/
def SameLines (s t : State) : Prop := { t.mtr with eint := s.mtr.eint, svLast := s.mtr.svLast, fwd := s.mtr.fwd } = s.mtr

namespace SameLines

variable {s t u : State}

theorem refl (s : State) : SameLines s s := rfl

theorem regs (h : SameLines s t) : t.mtr.regs = s.mtr.regs := (congrArg Mtr.regs h :)
theorem chans (h : SameLines s t) : t.mtr.chans = s.mtr.chans := (congrArg Mtr.chans h :)
theorem elec (h : SameLines s t) : t.mtr.elec = s.mtr.elec := (congrArg Mtr.elec h :)
theorem latch (h : SameLines s t) : t.mtr.latch = s.mtr.latch := (congrArg Mtr.latch h :)

theorem after_setFi {f : Fld} {i v : Nat} (h : SameLines s t) : SameLines s (setFi t f i v) := h

theorem after_ite {c : Prop} [Decidable c] (ht : SameLines s t) (hu : SameLines s u) : SameLines s (if c then t else u) := by
  split <;> assumption

theorem after_forwardSample (h : SameLines s t) (d : MtrFwd) : SameLines s (forwardSample t d) := .after_ite h h

theorem after_modEInt (h : SameLines s t) (k : Nat) (f : EInt → EInt) : SameLines s (modEInt t k f) := h

theorem after_countMissing (h : SameLines s t) (c ix : Nat) : SameLines s (countMissing t c ix) := by
  unfold countMissing
  refine .after_modEInt ?_ _ _
  exact .after_ite h h

theorem chanOf (h : SameLines s t) (c : Nat) : Machine.chanOf t c = Machine.chanOf s c := by
  simp only [Machine.chanOf, h.chans]

theorem elecOn (h : SameLines s t) (c : Nat) : Machine.elecOn t c = Machine.elecOn s c := by
  simp only [Machine.elecOn, elecCfg, h.elec]

theorem sampleAge (h : SameLines s t) (ix ns now : Nat) : Machine.sampleAge t ix ns now = Machine.sampleAge s ix ns now := by
  have hnominal : fNom t = fNom s := by
    unfold fNom
    rw [h.latch]
  simp only [Machine.sampleAge, hnominal]

end SameLines

/-- Forwarding a decision changes no register. -/
theorem regs_forwardSample (s : State) (d : MtrFwd) : (forwardSample s d).regs = s.regs := by
  unfold forwardSample
  split <;> rfl

/-! ### A sample entered into an open line cycle (R138 to R142) -/

/-- A sample is awaited, and another one of the line cycle that closes next is missing too. -/
def LineOpen (s : State) (c ix : Nat) : Prop := elecOn s c = true ∧ 80 * (chanOf s c).next ≤ ix ∧
  alGet? (chanOf s c).samples ix = none ∧
  ∃ j < 80, 80 * (chanOf s c).next + j ≠ ix ∧ alGet? (chanOf s c).samples (80 * (chanOf s c).next + j) = none

/-- A sample stands in its channel, whose line cycle stays open, and no register of metering has changed. -/
def SampleHeld (s u : State) (c ix : Nat) (x : ESample) : Prop :=
  alGet? (chanOf u c).samples ix = some x ∧ (chanOf u c).next = (chanOf s c).next ∧ u.mtr.regs = s.mtr.regs

theorem SameLines.lineOpen {s t : State} (h : SameLines s t) {c ix : Nat} (hopen : LineOpen s c ix) : LineOpen t c ix := by
  simpa only [LineOpen, h.chanOf, h.elecOn] using hopen

theorem SameLines.sampleHeld {s t u : State} (h : SameLines s t) {c ix : Nat} {x : ESample} (hheld : SampleHeld t u c ix x) :
    SampleHeld s u c ix x := by
  simpa only [SampleHeld, h.chanOf, h.regs] using hheld

/-- What is put in the place of a missing sample. -/
def zeroSample : ESample := { v := [0, 0, 0], i := [0, 0, 0] }

/-- The notes that go with a sample or its absence: what is forwarded, and the count of missing ones. -/
def sampleNoted (s : State) (c ix : Nat) (x : Option ESample) : State :=
  if x.isNone then countMissing (forwardSample s (.sample c ix x)) c ix else forwardSample s (.sample c ix x)

/-- A channel with one sample more. -/
def putSample (s : State) (c ix : Nat) (x : ESample) : State :=
  { s with mtr := { s.mtr with
      chans := alPut s.mtr.chans c { chanOf s c with samples := alPut (chanOf s c).samples ix x } } }

theorem sameLines_sampleNoted (s : State) (c ix : Nat) (x : Option ESample) : SameLines s (sampleNoted s c ix x) :=
  .after_ite (.after_countMissing (.after_forwardSample (.refl s) _) _ _) (.after_forwardSample (.refl s) _)

theorem chanOf_putSample (s : State) (c ix : Nat) (x : ESample) :
    chanOf (putSample s c ix x) c = { chanOf s c with samples := alPut (chanOf s c).samples ix x } := by
  simp only [chanOf, putSample, alGet?_alPut, if_pos, Option.getD_some]

theorem sampleHeld_putSample (s : State) (c ix : Nat) (x : ESample) : SampleHeld s (putSample s c ix x) c ix x := by
  refine ⟨?_, ?_, rfl⟩ <;> rw [chanOf_putSample]
  exact (alGet?_alPut ..).trans (if_pos rfl)

/-- A line cycle that misses a sample stays open. -/
theorem lineWhole_of_missing {e : EChan} {j : Nat} (hj : j < 80) (hmiss : alGet? e.samples (80 * e.next + j) = none) :
    lineWhole e = false := by
  rw [lineWhole, List.all_eq_false]
  exact ⟨j, List.mem_range.2 hj, by simp [hmiss]⟩

theorem closeLines_of_open (n : Nat) {s : State} {c : Nat} (h : lineWhole (chanOf s c) = false) : closeLines n s c = s := by
  cases n with
  | zero => rfl
  | succ n => simp [closeLines, h]

theorem lineWhole_putSample {s : State} {c ix : Nat} (hopen : LineOpen s c ix) (x : ESample) :
    lineWhole (chanOf (putSample s c ix x) c) = false := by
  obtain ⟨_, _, _, j, hj, hne, hmiss⟩ := hopen
  rw [chanOf_putSample]
  exact lineWhole_of_missing hj ((alGet?_alPut ..).trans ((if_neg hne).trans hmiss))

/-- A sample that is awaited is noted and put in its place; then what it completes closes. -/
theorem enterSample_of_awaited {s : State} {c ix : Nat} (hon : elecOn s c = true) (hfirst : 80 * (chanOf s c).next ≤ ix)
    (hfree : alGet? (chanOf s c).samples ix = none) (x : Option ESample) :
    let t := putSample (sampleNoted s c ix x) c ix (x.getD zeroSample)
    enterSample s c ix x = closeLines ((chanOf t c).samples.length / 80) t c := by
  simp only [enterSample, hon, hfree, Nat.not_lt.2 hfirst, putSample, (sameLines_sampleNoted s c ix x).chanOf]
  rfl

theorem enterSample_of_open {s : State} {c ix : Nat} (hopen : LineOpen s c ix) (x : Option ESample) :
    enterSample s c ix x = putSample (sampleNoted s c ix x) c ix (x.getD zeroSample) := by
  have hstays := lineWhole_putSample ((sameLines_sampleNoted s c ix x).lineOpen hopen) (x.getD zeroSample)
  obtain ⟨hon, hfirst, hfree, _⟩ := hopen
  rw [enterSample_of_awaited hon hfirst hfree, closeLines_of_open _ hstays]

/-- A sample entered is held; the registers are those of its notes. -/
theorem enterSample_spec {s : State} {c ix : Nat} (hopen : LineOpen s c ix) (x : Option ESample) :
    SampleHeld s (enterSample s c ix x) c ix (x.getD zeroSample) ∧ (enterSample s c ix x).regs = (sampleNoted s c ix x).regs := by
  rw [enterSample_of_open hopen]
  exact ⟨(sameLines_sampleNoted s c ix x).sampleHeld (sampleHeld_putSample ..), rfl⟩

/-- A sample that has come changes no register. -/
theorem enterSample_some_spec {s : State} {c ix : Nat} (hopen : LineOpen s c ix) (x : ESample) :
    SampleHeld s (enterSample s c ix (some x)) c ix x ∧ (enterSample s c ix (some x)).regs = s.regs := by
  obtain ⟨hheld, hregs⟩ := enterSample_spec hopen (some x)
  exact ⟨hheld, hregs.trans (regs_forwardSample ..)⟩

/-! ### A missing sample (R141) -/

theorem getF_countMissing_gap (s : State) (c ix : Nat) : getF (countMissing s c ix) F.MTR_EVENTS_GAP = 1 ∧
    getF (countMissing s c ix) F.MTR_CNT_GAP_COUNT = (getF s F.MTR_CNT_GAP_COUNT + 1) % 2 ^ 32 := by
  have hshown : ∀ g : Fld, g.addr < 0xF0060100 → g.stride = 0 → getF (countMissing s c ix) g =
      getF (setF (bump s F.MTR_CNT_GAP_COUNT) F.MTR_EVENTS_GAP 1) g := by
    intro g hbelow hsingle
    have hstat : g.at 0 ≠ F.MTR_SV_STAT_MISSING.at (c - 2) := by
      simp only [Fld.at, F.MTR_SV_STAT_MISSING]
      omega
    simp only [countMissing]
    split
    case isTrue stream => exact getFi_setFi_ne _ _ _ _ _ _ hstat
    case isFalse own => rfl
  constructor
  · rw [hshown _ (by decide) rfl]
    exact getF_setF_same _ _ _ ⟨by decide, by decide⟩
  · rw [hshown _ (by decide) rfl, getF_setF_ne _ _ _ _ (by decide)]
    exact getFi_setFi_same _ _ _ _ ⟨by decide, by decide⟩

theorem sampleMissingTimeout_gives {s : State} (hown : metersOwn s = true) {ch : Fin 34} {ix : Nat}
    (hopen : LineOpen s ch ix) (hdue : sampleAge s ix 2000000 (nowNs s) = true) :
    Gives (.sampleMissingTimeout ch ix) s fun u => SampleHeld s u ch ix zeroSample ∧
      getF u F.MTR_CNT_GAP_COUNT = (getF s F.MTR_CNT_GAP_COUNT + 1) % 2 ^ 32 ∧ getF u F.MTR_EVENTS_GAP = 1 := by
  obtain ⟨hheld, hregs⟩ := enterSample_spec hopen none
  obtain ⟨hgap, hcount⟩ := getF_countMissing_gap (forwardSample s (.sample ch ix none)) ch ix
  refine ⟨_, congrArg Host.Outcome.next (if_pos (by simp [hown, hdue])), hheld, ?_, ?_⟩
  · rw [getF_congr hregs]
    exact hcount.trans (by rw [getF_congr (regs_forwardSample ..)])
  · rw [getF_congr hregs]
    exact hgap

/-! ### A sample of the module's own converters (R139, R412, R413) -/

/-- A sample of a set shown in FIO_AFE_SMP. -/
def afeShown (s : State) (ch : Nat) (x : ESample) : State :=
  forAll s (List.range 6) fun s i =>
    setFi s F.FIO_AFE_SMP_SAMPLE (6 * ch + i) (uNat 32 (if i < 3 then x.v.getD i 0 else x.i.getD (i - 3) 0))

theorem regsOnly_afeShown (s : State) (ch : Nat) (x : ESample) : RegsOnly s (afeShown s ch x) :=
  .after_forAll (.refl s) fun _ _ h => h.after_setFi

/-- The blocks below FIO keep their registers. -/
theorem getF_afeShown (s : State) (ch : Nat) (x : ESample) {f : Fld} (h : f.addr < 0xF00F0000) :
    getF (afeShown s ch x) f = getF s f :=
  forAll_keeps (P := fun u => getF u f = getF s f)
    (fun v i _ hv => (getFi_setFi_ne v F.FIO_AFE_SMP_SAMPLE f _ 0 _ (by
      simp only [Fld.at, F.FIO_AFE_SMP_SAMPLE]
      omega)).trans hv) rfl

/-- The first sample shown is that of phase a's voltage. -/
theorem getFi_afeShown_first (s : State) (ch : Nat) (x : ESample) :
    getFi (afeShown s ch x) F.FIO_AFE_SMP_SAMPLE (6 * ch) = uNat 32 (x.v.getD 0 0) := by
  have hfirst : ∀ v, getFi (setFi v F.FIO_AFE_SMP_SAMPLE (6 * ch) (uNat 32 (x.v.getD 0 0))) F.FIO_AFE_SMP_SAMPLE (6 * ch) =
      uNat 32 (x.v.getD 0 0) := fun v =>
    (getFi_setFi_same _ _ _ _ ⟨by decide, by decide⟩).trans (Nat.mod_eq_of_lt (BitVec.isLt _))
  refine forAll_brings (P := fun u => getFi u F.FIO_AFE_SMP_SAMPLE (6 * ch) = uNat 32 (x.v.getD 0 0))
    (List.mem_range.2 (by decide : 0 < 6)) hfirst (fun v i _ hv => ?_) s
  by_cases hi : i = 0
  · subst hi
    exact hfirst v
  · refine (getFi_setFi_ne _ _ _ _ _ _ ?_).trans hv
    simp only [Fld.at, F.FIO_AFE_SMP_SAMPLE]
    omega

/-- Whether a module meters is read from its role and the clock of its engine. -/
theorem metersOwn_congr {s t : State} (hregs : RegsOnly s t) (hrole : roleOf t = roleOf s)
    (hclock : getF t F.CLK_GATE_ENG_MTR = getF s F.CLK_GATE_ENG_MTR) : metersOwn t = metersOwn s := by
  have hrun : t.runState = s.runState := (congrArg State.runState hregs :)
  have htaking : t.red.taking = s.red.taking := (congrArg (·.red.taking) hregs :)
  simp only [metersOwn, hrun, executes_congr hrole htaking, hrole, flag, hclock]

theorem RegsOnly.sameLines {s t : State} (h : RegsOnly s t) : SameLines s t := by
  unfold SameLines
  rw [h.mtr]

theorem afeSample_of_own {s : State} (hown : metersOwn s = true) (hgate : gateOff s R.FIO_AFE_OVR = false) (ch ix : Nat)
    (x : ESample) : afeSample s ch ix x = enterSample (afeShown s ch x) ch ix (some x) := by
  have hmeters : metersOwn (afeShown s ch x) = true :=
    (metersOwn_congr (regsOnly_afeShown s ch x) (getF_afeShown s ch x (by decide))
      (getF_afeShown s ch x (by decide))).trans hown
  exact (if_neg (by simp [hgate])).trans (if_pos hmeters)

/-- Every value of a set enters saturated. -/
theorem map_afeSat {l : List Int} (h : l.length = 3) : ((List.range 3).map fun p => afeSat (l.getD p 0)) = l.map afeSat := by
  obtain ⟨a, b, c, rfl⟩ := List.length_eq_three.1 h
  rfl

theorem afeSample_gives {s : State} (hown : metersOwn s = true) (hgate : gateOff s R.FIO_AFE_OVR = false) {ch : Fin 2}
    {ix : Nat} (hopen : LineOpen s ch ix) {v i : List Int} (hv : v.length = 3) (hi : i.length = 3) :
    Gives (.afeSample ch ix v i) s fun u => SampleHeld s u ch ix { v := v.map afeSat, i := i.map afeSat } ∧
      getFi u F.FIO_AFE_SMP_SAMPLE (6 * ch.val) = uNat 32 (afeSat (v.getD 0 0)) := by
  have hexec : exec (.afeSample ch ix v i) s = .next (afeSample s ch ix { v := v.map afeSat, i := i.map afeSat }) := by
    rw [← map_afeSat hv, ← map_afeSat hi]
    rfl
  have hlines := (regsOnly_afeShown s ch { v := v.map afeSat, i := i.map afeSat }).sameLines
  obtain ⟨hheld, hregs⟩ := enterSample_some_spec (hlines.lineOpen hopen) { v := v.map afeSat, i := i.map afeSat }
  refine ⟨_, hexec.trans (congrArg _ (afeSample_of_own hown hgate ..)), hlines.sampleHeld hheld, ?_⟩
  rw [getFi_congr hregs, getFi_afeShown_first]
  obtain ⟨a, b, c, rfl⟩ := List.length_eq_three.1 hv
  rfl

/-! ### A frame of a stream (R140, R141) -/

theorem getFi_bit_lt (s : State) (f : Fld) (i : Nat) (h : f.hi = f.lo) : getFi s f i < 2 := by
  rw [getFi, fieldOf, bitsOf, h, Nat.add_sub_cancel_left]
  exact Nat.mod_lt _ (by decide)

theorem streamFound_eq (s : State) (m : Nat) :
    streamFound s (m + 2) = setFi (forwardSample s (.found (m + 2))) F.MTR_SV_STAT_LOST m 0 := rfl

theorem streamSynced_eq (s : State) (m : Nat) :
    streamSynced s (m + 2) = setFi (forwardSample s (.synced (m + 2))) F.MTR_SV_STAT_UNSYNC m 0 := rfl

/-- A stream that a frame finds again is lost no longer. -/
def streamBack (s : State) (m : Nat) : State := if getFi s F.MTR_SV_STAT_LOST m = 1 then streamFound s (m + 2) else s

/-- A stream that a synchronised frame finds is unsynchronised no longer. -/
def streamResynced (s : State) (m synch : Nat) : State :=
  if synch ≠ 0 && getFi s F.MTR_SV_STAT_UNSYNC m = 1 then streamSynced s (m + 2) else s

/-- The arrival of a stream's latest frame. -/
def frameArrived (s : State) (m arrival : Nat) : State :=
  { s with mtr := { s.mtr with svLast := alPut s.mtr.svLast m arrival } }

/-- What a frame shows of its stream before its sample enters. -/
def frameNoted (s : State) (m synch ix arrival : Nat) : State :=
  if synch = 0 then streamUnsync (frameArrived (streamResynced (streamBack s m) m synch) m arrival) (m + 2) ix
  else frameArrived (streamResynced (streamBack s m) m synch) m arrival

theorem sameLines_streamBack (s : State) (m : Nat) : SameLines s (streamBack s m) :=
  .after_ite (.after_setFi (.after_forwardSample (.refl s) _)) (.refl s)

theorem SameLines.after_streamResynced {s t : State} (h : SameLines s t) (m synch : Nat) :
    SameLines s (streamResynced t m synch) := .after_ite (.after_setFi (.after_forwardSample h _)) h

theorem SameLines.after_frameArrived {s t : State} (h : SameLines s t) (m arrival : Nat) :
    SameLines s (frameArrived t m arrival) := h

theorem lost_streamBack (s : State) (m : Nat) : getFi (streamBack s m) F.MTR_SV_STAT_LOST m = 0 := by
  unfold streamBack
  split
  case isTrue lost => exact getFi_setFi_zero _ _ ⟨by decide, by decide⟩
  case isFalse up => exact Nat.lt_one_iff.1 (by have := getFi_bit_lt s F.MTR_SV_STAT_LOST m rfl; omega)

theorem unsync_streamResynced (s : State) (m : Nat) {synch : Nat} (h : synch ≠ 0) :
    getFi (streamResynced s m synch) F.MTR_SV_STAT_UNSYNC m = 0 := by
  unfold streamResynced
  split
  case isTrue unsync => exact getFi_setFi_zero _ _ ⟨by decide, by decide⟩
  case isFalse synced =>
    have hbit := getFi_bit_lt s F.MTR_SV_STAT_UNSYNC m rfl
    have hone : getFi s F.MTR_SV_STAT_UNSYNC m ≠ 1 := by simpa [h] using synced
    omega

theorem lost_streamResynced (s : State) (m synch : Nat) :
    getFi (streamResynced s m synch) F.MTR_SV_STAT_LOST m = getFi s F.MTR_SV_STAT_LOST m := by
  unfold streamResynced
  split
  case isTrue unsync =>
    rw [streamSynced_eq, getFi_setFi_apart _ F.MTR_SV_STAT_UNSYNC F.MTR_SV_STAT_LOST m m 0 ⟨by decide, by decide⟩ rfl
      (.inr (by decide)), getFi_congr (regs_forwardSample ..)]
  case isFalse synced => rfl

/-- What a synchronised frame shows: its stream is neither lost nor unsynchronised. -/
theorem frameNoted_spec (s : State) (m ix arrival : Nat) {synch : Nat} (h : synch ≠ 0) :
    SameLines s (frameNoted s m synch ix arrival) ∧ getFi (frameNoted s m synch ix arrival) F.MTR_SV_STAT_LOST m = 0 ∧
      getFi (frameNoted s m synch ix arrival) F.MTR_SV_STAT_UNSYNC m = 0 := by
  rw [frameNoted, if_neg h]
  exact ⟨.after_frameArrived (.after_streamResynced (sameLines_streamBack s m) m synch) m arrival,
    (lost_streamResynced ..).trans (lost_streamBack s m), unsync_streamResynced _ m h⟩

/-- The quality words of a frame whose words are all 0 are good. -/
theorem qualGood_of_zero {quals : List (BitVec 32)} (h : ∀ q ∈ quals, q = 0) (i : Nat) :
    qualGood ((quals.map (·.toNat)).getD i 0) = true := by
  have hzero : (quals.map (·.toNat)).getD i 0 = 0 := by
    rw [List.getD_eq_getElem?_getD, List.getElem?_map]
    cases hi : quals[i]? with
    | none => rfl
    | some q => simp [h q (List.mem_of_getElem? hi)]
  rw [hzero]
  rfl

/-- The sample of a frame's values: currents before voltages. -/
def frameSample (vals : List Int) : ESample :=
  { v := [vals.getD 4 0, vals.getD 5 0, vals.getD 6 0], i := [vals.getD 0 0, vals.getD 1 0, vals.getD 2 0] }

/-- The sample of a frame enters, unless the frame is unsynchronised, bad or late. -/
theorem svTake_eq (s : State) (m cnt synch : Nat) (vals : List Int) (quals : List Nat) (arrival : Nat) :
    svTake s m cnt synch vals quals arrival = enterSample (frameNoted s m synch (svIndex s cnt arrival) arrival) (m + 2)
      (svIndex s cnt arrival) (if synch = 0 || !([0, 1, 2, 4, 5, 6].all fun i => qualGood (quals.getD i 0)) ||
        sampleAge (frameNoted s m synch (svIndex s cnt arrival) arrival) (svIndex s cnt arrival) 2000000 arrival
      then none else some (frameSample vals)) := rfl

theorem svTake_of_good {s : State} {m cnt synch arrival : Nat} {vals : List Int} {quals : List (BitVec 32)}
    (hsynch : synch ≠ 0) (hquals : ∀ q ∈ quals, q = 0) (htime : sampleAge s (svIndex s cnt arrival) 2000000 arrival = false) :
    svTake s m cnt synch vals (quals.map (·.toNat)) arrival =
      enterSample (frameNoted s m synch (svIndex s cnt arrival) arrival) (m + 2) (svIndex s cnt arrival)
        (some (frameSample vals)) := by
  obtain ⟨hlines, _, _⟩ := frameNoted_spec s m (svIndex s cnt arrival) arrival hsynch
  have hgood : ([0, 1, 2, 4, 5, 6].all fun i => qualGood ((quals.map (·.toNat)).getD i 0)) = true :=
    List.all_eq_true.2 fun i _ => qualGood_of_zero hquals i
  rw [svTake_eq, hgood, hlines.sampleAge, htime, if_neg (by simp [hsynch])]

theorem svFrameReceive_gives {s : State} (hown : metersOwn s = true) {m : Fin 32} {appid macLo : BitVec 16} {cnt synch : Nat}
    {vals : List Int} {quals : List (BitVec 32)} {port : Fin 14} {stamp : Nat}
    (hslot : svSlots s appid.toNat macLo.toNat = [m.val]) (hsynch : synch ≠ 0) (hquals : ∀ q ∈ quals, q = 0)
    (hopen : LineOpen s (m.val + 2) (svIndex s cnt (ingress s port.val stamp).toNat))
    (htime : sampleAge s (svIndex s cnt (ingress s port.val stamp).toNat) 2000000 (ingress s port.val stamp).toNat = false) :
    Gives (.svFrameReceive appid macLo cnt synch vals quals ⟨port, stamp⟩) s fun u =>
      SampleHeld s u (m.val + 2) (svIndex s cnt (ingress s port.val stamp).toNat) (frameSample vals) ∧
      getFi u F.MTR_SV_STAT_LOST m.val = 0 ∧ getFi u F.MTR_SV_STAT_UNSYNC m.val = 0 := by
  have htaken : exec (.svFrameReceive appid macLo cnt synch vals quals ⟨port, stamp⟩) s =
      .next (svTake s m.val cnt synch vals (quals.map (·.toNat)) (ingress s port.val stamp).toNat) :=
    congrArg Host.Outcome.next ((if_pos hown).trans (by rw [hslot]; rfl))
  obtain ⟨hlines, hlost, hunsync⟩ := frameNoted_spec s m.val (svIndex s cnt (ingress s port.val stamp).toNat)
    (ingress s port.val stamp).toNat hsynch
  obtain ⟨hheld, hregs⟩ := enterSample_some_spec (hlines.lineOpen hopen) (frameSample vals)
  exact ⟨_, htaken.trans (congrArg _ (svTake_of_good hsynch hquals htime)), hlines.sampleHeld hheld,
    (getFi_congr hregs _ _).trans hlost, (getFi_congr hregs _ _).trans hunsync⟩

/-! ### A stream that is lost (R141) -/

theorem sameLines_streamLost (s : State) (c ix : Nat) : SameLines s (streamLost s c ix) :=
  .after_modEInt (.after_setFi (.after_setFi (.after_forwardSample (.refl s) _))) _ _

theorem svStreamLost_gives {s : State} (hown : metersOwn s = true) {m : Fin 32} (hsub : (alGet? s.mtr.subs m.val).getD 0 ≠ 0)
    (hsilent : streamSilent s m.val = true) : Gives (.svStreamLost m) s fun u =>
      getFi u F.MTR_SV_STAT_LOST m.val = 1 ∧ getF u F.MTR_EVENTS_SV_LOST = 1 ∧ u.mtr.regs = s.mtr.regs ∧
      u.mtr.chans = s.mtr.chans := by
  have hlines := sameLines_streamLost s (m.val + 2) (80 * (chanOf s (m.val + 2)).next)
  refine ⟨_, congrArg Host.Outcome.next (if_pos (by simp [hown, hsub, hsilent])), ?_, ?_, hlines.regs, hlines.chans⟩
  · refine (getFi_setFi_ne _ F.MTR_EVENTS_SV_LOST F.MTR_SV_STAT_LOST 0 m.val 1 ?_).trans ?_
    · simp only [Fld.at, F.MTR_EVENTS_SV_LOST, F.MTR_SV_STAT_LOST]
      omega
    · exact getFi_setFi_same _ _ _ _ ⟨by decide, by decide⟩
  · exact getF_setF_same _ _ _ ⟨by decide, by decide⟩

/-! ### The statement -/

/-- Settles O38: each sample enters a line cycle that stays open, whether it was converted here, was missing or came in a frame. -/
theorem meterSamples : Obligations.MeterSamples := by
  unfold Obligations.MeterSamples
  intro s hown
  refine ⟨?converters, ?missing, ?frames, ?lost⟩
  case converters =>
    intro ch ix v i hopen hgate hv hi
    exact afeSample_gives hown hgate hopen hv hi
  case missing =>
    intro ch ix hopen hdue
    exact sampleMissingTimeout_gives hown hopen hdue
  case frames =>
    intro m appid macLo cnt synch vals quals port stamp hslot hsynch _ hquals arrival ix hopen htime
    exact svFrameReceive_gives hown hslot hsynch hquals hopen htime
  case lost =>
    intro m hsub hsilent
    exact svStreamLost_gives hown hsub hsilent

end Sys2Proof.Machine
end

section
/-!
PROOFS. Blocks of bytes in a memory: a block written reads back, and every byte outside it is as before.
-/
namespace Sys2Proof.Machine

/-- The cells of a block read as its bytes. -/
theorem amGet_cellsOf (a x : Nat) (bs : List Byte) :
    amGet unlisted (cellsOf a bs) x = if a ≤ x ∧ x < a + bs.length then bs.getD (x - a) 0 else 0 := by
  induction bs generalizing a with
  | nil => rw [if_neg (by simp)]; rfl
  | cons b bs ih =>
    have hcell : amGet unlisted (cellsOf a (b :: bs)) x = if x = a then b else amGet unlisted (cellsOf (a + 1) bs) x := by
      rw [cellsOf]
      split
      case isTrue zero =>
        split
        case isTrue first => rw [ih, if_neg (by omega), zero]
        case isFalse later => rfl
      case isFalse listed => rfl
    rw [hcell, ih, List.length_cons]
    by_cases hfirst : x = a
    · simp [hfirst]
    · by_cases hin : a + 1 ≤ x ∧ x < a + 1 + bs.length
      · have hnext : x - a = (x - (a + 1)) + 1 := by omega
        rw [if_neg hfirst, if_pos hin, if_pos (by omega), hnext, List.getD_cons_succ]
      · rw [if_neg hfirst, if_neg hin, if_neg (by omega)]

/-- A block written in one pass reads as the same bytes written one by one. -/
theorem memRead_memBlock (m : List Host.Cell) (a x : Nat) (bs : List Byte) :
    memRead (memBlock m a bs) x = memRead (memPut m a bs) x := by
  have hcells := (cellsOf_spec a bs).1
  have hbelow : ∀ c ∈ m.filter fun c => decide (c.1 < a), c.1 < a := by simp
  have habove : ∀ c ∈ m.filter fun c => decide (a + bs.length ≤ c.1), a + bs.length ≤ c.1 := by simp
  rw [memRead_memPut]
  unfold memRead memBlock
  rcases Nat.lt_or_ge x a with hlow | hlow
  case inl =>
    rw [if_neg (by omega), List.append_assoc, amGet_append_left _ _ _ _ fun c hc => ?_]
    · exact amGet_filter unlisted m (fun k => decide (k < a)) x (decide_eq_true hlow)
    · rcases List.mem_append.1 hc with hc | hc
      · have := hcells c hc; omega
      · have := habove c hc; omega
  case inr =>
    rw [List.append_assoc, amGet_append_right _ _ _ _ fun c hc => by have := hbelow c hc; omega]
    rcases Nat.lt_or_ge x (a + bs.length) with hin | hin
    · rw [amGet_append_left _ _ _ _ fun c hc => by have := habove c hc; omega, amGet_cellsOf]
      rw [if_pos ⟨hlow, hin⟩, if_pos ⟨hlow, hin⟩]
    · rw [if_neg (by omega), amGet_append_right _ _ _ _ fun c hc => by have := hcells c hc; omega]
      exact amGet_filter unlisted m (fun k => decide (a + bs.length ≤ k)) x (decide_eq_true hin)

theorem memBytes_congr {m m' : List Host.Cell} (h : ∀ x, memRead m x = memRead m' x) (a n : Nat) :
    memBytes m a n = memBytes m' a n := by
  induction n generalizing a with
  | zero => rfl
  | succ n ih => simp only [memBytes, h, ih]

theorem memBytes_memBlock (m : List Host.Cell) (a : Nat) (bs : List Byte) : memBytes (memBlock m a bs) a bs.length = bs :=
  (memBytes_congr (memRead_memBlock m a · bs) a _).trans (memBytes_memPut m a bs)

theorem memRead_memBlock_outside (m : List Host.Cell) {a x : Nat} {bs : List Byte} (h : x < a ∨ a + bs.length ≤ x) :
    memRead (memBlock m a bs) x = memRead m x := by
  rw [memRead_memBlock, memRead_memPut, if_neg (by omega)]

end Sys2Proof.Machine
end

section
/-!
PROOFS. The latch, the archive, the reads and the pulses of metering (06 R149 to R152, R154, R161), and O40.
-/
namespace Sys2Proof.Machine

/-! ### The latch instant (R149, R150) -/

/-- A latch begun at an instant, whose copy is due. -/
def latchBegun (s : State) (l : Nat) : State :=
  { s with mtr := { s.mtr with latching := some { idx := l, regs := [], tint := [], due := true } } }

theorem exec_latchInstant {s : State} {l : Nat} (hl : latchNow s = some l) (hrun : s.runState = true) (hexec : executes s = true)
    (hinst : s.nsa.instant = some (nowNs s / netNs s)) (hidle : s.mtr.latching = none) (hsince : s.mtr.since < nowNs s) :
    exec .latchInstant s = .next (if s.nsa.open_.isSome then latchBegun s l else thermCopy (latchBegun s l)) := by
  refine congrArg Host.Outcome.next ?_
  rw [hl]
  exact if_pos (by simp [hrun, hexec, hinst, hidle, hsince])

theorem latchInstant_gives {s : State} {l : Nat} (hl : latchNow s = some l) (hrun : s.runState = true)
    (hexec : executes s = true) (hinst : s.nsa.instant = some (nowNs s / netNs s)) (hidle : s.mtr.latching = none)
    (hsince : s.mtr.since < nowNs s) : Gives .latchInstant s fun u => ∃ t, u.mtr.latching = some t ∧
      t.idx = l ∧ t.due = s.nsa.open_.isSome ∧ u.mtr.regs = s.mtr.regs ∧
      (s.nsa.open_ = none → t.tint = s.mtr.tint ∧ (∀ k, 4096 ≤ k → amGet (fun _ => 0) t.regs k = mtrReg s k) ∧
        u.mtr.tint = []) := by
  refine ⟨_, exec_latchInstant hl hrun hexec hinst hidle hsince, ?_⟩
  cases hopen : s.nsa.open_ with
  | some o => exact ⟨_, rfl, rfl, rfl, rfl, fun h => absurd h (by simp)⟩
  | none =>
    refine ⟨_, rfl, rfl, rfl, rfl, fun _ => ⟨rfl, fun k hk => ?_, rfl⟩⟩
    exact amGet_filter _ s.mtr.regs (fun k => decide (4096 ≤ k)) k (decide_eq_true hk)

/-! ### What the copy of a latch leaves of the latches (R150, R156, R158) -/

/-- The latch in progress, the slots that wait and the clears that wait are the same. -/
def SameLatch (s t : State) : Prop :=
  t.mtr.latching = s.mtr.latching ∧ t.mtr.slots = s.mtr.slots ∧ t.mtr.clears = s.mtr.clears

namespace SameLatch

variable {s t u : State}

theorem refl (s : State) : SameLatch s s := ⟨rfl, rfl, rfl⟩

theorem of_mtr (h : SameLatch s t) (g : u.mtr = t.mtr) : SameLatch s u := by
  unfold SameLatch at *
  rwa [g]

theorem after_setReg {a : Nat} {v : Word} (h : SameLatch s t) : SameLatch s (setReg t a v) := h

theorem after_setFi {f : Fld} {i v : Nat} (h : SameLatch s t) : SameLatch s (setFi t f i v) := h

theorem after_ite {c : Prop} [Decidable c] (ht : SameLatch s t) (hu : SameLatch s u) : SameLatch s (if c then t else u) := by
  split <;> assumption

theorem after_forAll {α : Type} {l : List α} {f : State → α → State} (h : SameLatch s t)
    (hf : ∀ v x, SameLatch s v → SameLatch s (f v x)) : SameLatch s (forAll t l f) :=
  forAll_keeps (fun v x _ hv => hf v x hv) h

theorem after_ev (h : SameLatch s t) (b e v : Nat) (l : List Nat) : SameLatch s (ev t b e v l) :=
  h.of_mtr (congrArg State.mtr (ev_only t b e v l) :)

theorem after_showMissing (h : SameLatch s t) (l : Nat) : SameLatch s (showMissing t l) :=
  .after_forAll h fun _ _ hv => hv.after_setFi

theorem after_mtrApply (h : SameLatch s t) (kind ix : Nat) (w : List Nat) : SameLatch s (mtrApply t kind ix w) := by
  unfold mtrApply
  split
  case h_1 => exact .after_setReg (.after_ite (.after_ite h h) (.after_ite h h))
  case h_2 => exact .after_ite h h
  case h_3 => exact h
  case h_4 => exact h
  case h_5 => exact h
  case h_6 => exact h

theorem after_startLatching (h : SameLatch s t) : SameLatch s (startLatching t) :=
  .after_forAll (t := { t with mtr := _ }) h fun _ _ hv => hv.after_setFi

theorem after_mtrTake (h : SameLatch s t) (at_ : Nat) : SameLatch s (mtrTake t at_) := by
  unfold mtrTake
  split
  next due rest _ =>
    have happlied : SameLatch s (forAll { t with mtr := { t.mtr with pend := rest, cfgChanged := true, stored := true } } due
        fun s e => mtrApply s e.2.1 e.2.2.1 e.2.2.2) := .after_forAll h fun _ _ hv => hv.after_mtrApply ..
    exact .after_ite h (.after_setFi (.after_setFi (.after_setFi (.after_ite happlied.after_startLatching happlied))))

theorem after_takeConfig (h : SameLatch s t) (at_ : Nat) : SameLatch s (takeConfig t at_) :=
  .after_forAll (h.after_mtrTake at_) fun _ _ hv => hv.after_ev ..

theorem after_clearChannel (h : SameLatch s t) (th : Bool) (c : Nat) : SameLatch s (clearChannel t th c) := by
  unfold clearChannel
  refine .after_ev ?_ ..
  exact h

end SameLatch

theorem messagesOnly_sendMetering (s : State) : MessagesOnly s (sendMetering s) :=
  .after_ite (.after_furovSend (.after_red (.refl s)) _) (.refl s)

/-! ### The copy of a latch (R150) -/

/-- The slot of a latch waits for the archive, and the data of the interval that ended is dropped. -/
def slotQueued (s : State) (t : Latch) (slot : List Byte) (later : List (Nat × Bool × Nat)) : State :=
  { s with mtr := { s.mtr with slots := s.mtr.slots ++ [(t.idx, slot)], latching := none, copied := [], cfgChanged := false,
                               restarted := false, clears := later, eint := s.mtr.eint.filter fun e => 64 * t.idx ≤ e.1 } }

/-- The digest of a slot sent to the peer. -/
def slotDigested (s : State) (t : Latch) : State :=
  digestUnit s 4 0 t.idx ((archSlot s t).take 0x3C ++ (archSlot s t).drop 0x40)

/-- The changes and the clears that an interval's end brings into effect. -/
def intervalEnded (s : State) (t : Latch) (tl : Nat) (clears : List (Nat × Bool × Nat)) : State :=
  forAll (takeConfig (showMissing s t.idx) tl) clears fun s c => clearChannel s c.2.1 c.2.2

theorem sameLatch_intervalEnded (s : State) (t : Latch) (tl : Nat) (clears : List (Nat × Bool × Nat)) :
    SameLatch s (intervalEnded s t tl clears) :=
  .after_forAll (.after_takeConfig (.after_showMissing (.refl s) _) _) fun _ _ hv => hv.after_clearChannel ..

/-- The end of a copy: the slot queued, the interval ended and its index shown. -/
def slotClosed (s : State) (t : Latch) (slot : List Byte) (tl : Nat) (clears later : List (Nat × Bool × Nat)) : State :=
  sendMetering (set64 (intervalEnded (slotQueued s t slot later) t tl clears) R.MTR_LATCH_IDX_LO R.MTR_LATCH_IDX_HI t.idx)

theorem slotClosed_spec (s : State) (t : Latch) (slot : List Byte) (tl : Nat) (clears later : List (Nat × Bool × Nat)) :
    (slotClosed s t slot tl clears later).mtr.latching = none ∧
    (slotClosed s t slot tl clears later).mtr.slots = s.mtr.slots ++ [(t.idx, slot)] ∧
    (slotClosed s t slot tl clears later).mtr.clears = later ∧
    get64 (slotClosed s t slot tl clears later) R.MTR_LATCH_IDX_LO R.MTR_LATCH_IDX_HI = t.idx % 2 ^ 64 := by
  have hended := sameLatch_intervalEnded (slotQueued s t slot later) t tl clears
  have hsent : MessagesOnly _ (slotClosed s t slot tl clears later) := messagesOnly_sendMetering _
  obtain ⟨hlatching, hslots, hclears⟩ := hended.of_mtr hsent.mtr
  refine ⟨hlatching, hslots, hclears, ?_⟩
  have hshown := get64_set64 (intervalEnded (slotQueued s t slot later) t tl clears) t.idx
    (show R.MTR_LATCH_IDX_LO ≠ R.MTR_LATCH_IDX_HI by decide)
  simpa only [get64, getReg_congr hsent.regs] using hshown

/-- The clears accepted before the latch instant take effect, the later ones wait. -/
theorem latchCopy_eq (s : State) (t : Latch) :
    let cs := (slotDigested s t).mtr.clears.partition fun c => c.1 < latchTime (slotDigested s t) t.idx
    latchCopy s t = slotClosed (slotDigested s t) t (archSlot s t) (latchTime (slotDigested s t) t.idx) cs.1 cs.2 := rfl

theorem latchTime_congr {s t : State} (h : t.mtr = s.mtr) (l : Nat) : latchTime t l = latchTime s l := by
  simp only [latchTime, fNom, h]

/-- What a copy leaves: its slot queued, no latch in progress, the later clears, and the index shown. -/
theorem latchCopy_spec (s : State) (t : Latch) : (latchCopy s t).mtr.latching = none ∧
    (latchCopy s t).mtr.slots = s.mtr.slots ++ [(t.idx, archSlot s t)] ∧
    (latchCopy s t).mtr.clears = s.mtr.clears.filter (fun c => latchTime s t.idx ≤ c.1) ∧
    get64 (latchCopy s t) R.MTR_LATCH_IDX_LO R.MTR_LATCH_IDX_HI = t.idx % 2 ^ 64 := by
  have hdigest : (slotDigested s t).mtr = s.mtr := (MessagesOnly.after_digestUnit (.refl s) ..).mtr
  have hlater : ((slotDigested s t).mtr.clears.partition fun c => c.1 < latchTime (slotDigested s t) t.idx).2 =
      s.mtr.clears.filter fun c => latchTime s t.idx ≤ c.1 := by
    rw [hdigest, latchTime_congr hdigest, List.partition_eq_filter_filter]
    exact List.filter_congr fun c _ => by simp [← decide_not]
  obtain ⟨hlatching, hslots, hclears, hindex⟩ := slotClosed_spec (slotDigested s t) t (archSlot s t)
    (latchTime (slotDigested s t) t.idx) _ _
  rw [latchCopy_eq]
  exact ⟨hlatching, hslots.trans (by rw [hdigest]), hclears.trans hlater, hindex⟩

theorem latchElectricCopy_gives {s : State} {t : Latch} (ht : s.mtr.latching = some t) (hdue : t.due = false)
    (hclosed : linesClosed s t.idx = true) : Gives .latchElectricCopy s fun u =>
      u.mtr.latching = none ∧ u.mtr.slots = s.mtr.slots ++ [(t.idx, archSlot s t)] ∧
      u.mtr.clears = s.mtr.clears.filter (fun c => latchTime s t.idx ≤ c.1) ∧
      get64 u R.MTR_LATCH_IDX_LO R.MTR_LATCH_IDX_HI = t.idx % 2 ^ 64 := by
  have hcopies : exec .latchElectricCopy s = .next (latchCopy s t) := by
    refine congrArg Host.Outcome.next ?_
    rw [ht]
    exact if_pos (by simp [hdue, hclosed])
  exact ⟨_, hcopies, latchCopy_spec s t⟩

/-! ### A slot written (R150 to R152, R160) -/

/-- The slot of the archive that is written next. -/
def nextSlot (s : State) : Nat := if s.mtr.arch = [] then 0 else (getF s F.MTR_ARCH_HEAD + 1) % 256

theorem nextSlot_lt (s : State) : nextSlot s < 256 := by
  unfold nextSlot
  split
  case isTrue empty => decide
  case isFalse filled => exact Nat.mod_lt _ (by decide)

/-- A record that is overwritten before its acknowledgement is counted. -/
def slotLost (s : State) : State :=
  if s.mtr.arch.contains (nextSlot s) && getF s F.MTR_ARCH_ACK_SEQ ≠ 0 &&
    getF s F.MTR_ARCH_ACK_SEQ < memLe s.mem (slotAddr (nextSlot s) + 4) 4 then
      evBit (bump s F.MTR_CNT_ARCH_LOST_COUNT) F.MTR_EVENTS_ARCH_LOST 4 [nextSlot s]
  else s

/-- The bytes of a slot in the archive. -/
def slotStored (s : State) (h : Nat) (bytes : List Byte) : State :=
  { s with mem := memBlock s.mem (slotAddr h) bytes,
           mtr := { s.mtr with seq := leNat ((bytes.drop 4).take 4), arch := insertUp h s.mtr.arch } }

theorem slotLost_same (s : State) : (slotLost s).mtr = s.mtr ∧ (slotLost s).mem = s.mem := by
  unfold slotLost
  split
  case isTrue lost => exact ⟨mtr_evBit .., mem_evBit ..⟩
  case isFalse acknowledged => exact ⟨rfl, rfl⟩

theorem putSlot_eq (s : State) (bytes : List Byte) : putSlot s bytes =
    setF (setF (slotStored (slotLost s) (nextSlot s) bytes) F.MTR_ARCH_HEAD (nextSlot s)) F.MTR_ARCH_VALID
      (slotStored (slotLost s) (nextSlot s) bytes).mtr.arch.length := rfl

/-- What a slot written shows. -/
theorem getF_putSlot (s : State) (bytes : List Byte) : getF (putSlot s bytes) F.MTR_ARCH_HEAD = nextSlot s ∧
    getF (putSlot s bytes) F.MTR_ARCH_VALID = (putSlot s bytes).mtr.arch.length % 2 ^ F.MTR_ARCH_VALID.width := by
  rw [putSlot_eq]
  constructor
  · rw [getF_setF_apart _ F.MTR_ARCH_VALID F.MTR_ARCH_HEAD _ ⟨by decide, by decide⟩ rfl (.inl (by decide)),
      getF_setF_same _ _ _ ⟨by decide, by decide⟩]
    exact Nat.mod_eq_of_lt (nextSlot_lt s)
  · exact getF_setF_same _ _ _ ⟨by decide, by decide⟩

theorem putSlot_spec (s : State) (bytes : List Byte) :
    (putSlot s bytes).mem = memBlock s.mem (slotAddr (nextSlot s)) bytes ∧
    (putSlot s bytes).mtr = { s.mtr with seq := leNat ((bytes.drop 4).take 4), arch := insertUp (nextSlot s) s.mtr.arch } := by
  obtain ⟨hmtr, hmem⟩ := slotLost_same s
  rw [putSlot_eq]
  constructor
  · exact congrArg (memBlock · (slotAddr (nextSlot s)) bytes) hmem
  · exact congrArg (fun x : Mtr => { x with seq := leNat ((bytes.drop 4).take 4), arch := insertUp (nextSlot s) x.arch }) hmtr

section
variable {s : State} {l : Nat} {b : List Byte} {rest : List (Nat × List Byte)} (hslots : s.mtr.slots = (l, b) :: rest)
include hslots

theorem archiveSlotWrite_gives (hfrozen : flag s F.PWR_STATUS_FROZEN = false) : Gives .archiveSlotWrite s fun u =>
    memBytes u.mem (0x4C000000 + 0x40000 * nextSlot s) b.length = b ∧ u.mtr.slots = rest ∧
    getF u F.MTR_ARCH_HEAD = nextSlot s ∧ u.mtr.arch = insertUp (nextSlot s) s.mtr.arch ∧
    getF u F.MTR_ARCH_VALID = u.mtr.arch.length % 2 ^ F.MTR_ARCH_VALID.width ∧
    ∀ a, (a < 0x4C000000 + 0x40000 * nextSlot s ∨ 0x4C000000 + 0x40000 * nextSlot s + b.length ≤ a) →
      memRead u.mem a = memRead s.mem a := by
  have hwrites : exec .archiveSlotWrite s =
      .next (setF (putSlot { s with mtr := { s.mtr with slots := rest } } b) F.MTR_STATUS_ARCH_FROZEN 0) := by
    refine congrArg Host.Outcome.next ?_
    rw [hslots]
    exact if_neg (by simp [mramFrozen, hfrozen])
  have haddr : slotAddr (nextSlot s) = 0x4C000000 + 0x40000 * nextSlot s := congrArg (archBase + ·) (Nat.mul_comm ..)
  obtain ⟨hmem, hmtr⟩ := putSlot_spec { s with mtr := { s.mtr with slots := rest } } b
  obtain ⟨hhead, hvalid⟩ := getF_putSlot { s with mtr := { s.mtr with slots := rest } } b
  replace hmem : (putSlot { s with mtr := { s.mtr with slots := rest } } b).mem =
    memBlock s.mem (0x4C000000 + 0x40000 * nextSlot s) b := haddr ▸ hmem
  refine ⟨_, hwrites, ?_, congrArg Mtr.slots hmtr, ?_, congrArg Mtr.arch hmtr, ?_, fun a ha => ?_⟩
  · rw [setF_mem, hmem, memBytes_memBlock]
  · exact (getF_setF_ne _ _ _ _ (by decide)).trans hhead
  · exact (getF_setF_ne _ _ _ _ (by decide)).trans hvalid
  · rw [setF_mem, hmem, memRead_memBlock_outside _ ha]

theorem archiveSlotWrite_frozen_gives (hfrozen : flag s F.PWR_STATUS_FROZEN = true) : Gives .archiveSlotWrite s fun u =>
    getF u F.MTR_STATUS_ARCH_FROZEN = 1 ∧ u.mem = s.mem ∧ u.mtr = s.mtr := by
  have hwaits : exec .archiveSlotWrite s = .next (setF s F.MTR_STATUS_ARCH_FROZEN 1) := by
    refine congrArg Host.Outcome.next ?_
    rw [hslots]
    exact if_pos hfrozen
  exact ⟨_, hwaits, getF_setF_same _ _ _ ⟨by decide, by decide⟩, rfl, rfl⟩

end

/-! ### Reads of registers (R148, R161) -/

theorem regsOnly_mtrShow (s : State) (r : Option (Nat × Nat × Nat)) : RegsOnly s (mtrShow s r) :=
  .after_setF (.after_setF (.after_setF (.after_ite (cfgErr_only s) (.refl s))))

/-- The three words of a capture as MTR_RD shows them. -/
theorem getF_mtrShow (s : State) (r : Option (Nat × Nat × Nat)) :
    getF (mtrShow s r) F.MTR_RD_LO_DATA = (r.getD (0, 0, 0)).1 % 2 ^ 32 ∧
    getF (mtrShow s r) F.MTR_RD_HI_DATA = (r.getD (0, 0, 0)).2.1 % 2 ^ 32 ∧
    getF (mtrShow s r) F.MTR_RD_FRAC_DATA = (r.getD (0, 0, 0)).2.2 % 2 ^ 32 := by
  refine ⟨?_, ?_, getF_setF_same _ _ _ ⟨by decide, by decide⟩⟩
  · exact (getF_setF_ne _ _ _ _ (by decide)).trans ((getF_setF_ne _ _ _ _ (by decide)).trans
      (getF_setF_same _ _ _ ⟨by decide, by decide⟩))
  · exact (getF_setF_ne _ _ _ _ (by decide)).trans (getF_setF_same _ _ _ ⟨by decide, by decide⟩)

theorem cfgErr_mtrShow_none (s : State) : getF (mtrShow s none) F.SYS_STATUS_CFG_ERR = 1 :=
  (getF_setF_ne _ _ _ _ (by decide)).trans ((getF_setF_ne _ _ _ _ (by decide)).trans
    ((getF_setF_ne _ _ _ _ (by decide)).trans (getF_cfgErr s)))

/-- A register of metering as MTR_RD shows it: VALUE, WRAP and the fraction. -/
def RdShows (s u : State) (x : Nat) : Prop := getF u F.MTR_RD_LO_DATA = x / 2 ^ 32 % 2 ^ 32 ∧
  getF u F.MTR_RD_HI_DATA = x / 2 ^ 64 % 2 ^ 32 ∧ getF u F.MTR_RD_FRAC_DATA = x % 2 ^ 32 ∧ u.mtr = s.mtr

/-- What a register captures. -/
def regCapture (x : Nat) : Nat × Nat × Nat := (bitsOf 63 32 x, x / 2 ^ 64 % 2 ^ 32, x % 2 ^ 32)

theorem bitsOf_eq (hi lo v : Nat) : bitsOf hi lo v = v / 2 ^ lo % 2 ^ (hi + 1 - lo) := by
  rw [bitsOf, Nat.shiftRight_eq_div_pow]

theorem rdShows_mtrShow {s t : State} (h : RegsOnly s t) (x : Nat) : RdShows s (mtrShow t (some (regCapture x))) x := by
  obtain ⟨hlo, hhi, hfrac⟩ := getF_mtrShow t (some (regCapture x))
  refine ⟨hlo.trans ?_, hhi.trans (Nat.mod_mod _ _), hfrac.trans (Nat.mod_mod _ _), (h.trans (regsOnly_mtrShow t _)).mtr⟩
  exact (congrArg (· % 2 ^ 32) (bitsOf_eq 63 32 x)).trans (Nat.mod_mod _ _)

theorem rdShows_mtrShow_none {s t : State} (h : RegsOnly s t) : RdShows s (mtrShow t none) 0 :=
  have ⟨hlo, hhi, hfrac⟩ := getF_mtrShow t none
  ⟨hlo, hhi, hfrac, (h.trans (regsOnly_mtrShow t _)).mtr⟩

section
variable (s : State) {v : Nat}

/-- A selection of an electric channel's register captures it. -/
theorem mtrCapture_electric (hspace : v / 2 ^ 30 = 0) (hch : v / 2 ^ 16 % 2 ^ 12 ≤ 33) (hreg : v % 16 ≤ 7) :
    mtrCapture s v = some (regCapture (mtrReg s (8 * (v / 2 ^ 16 % 2 ^ 12) + v % 16))) := by
  have hsel : bitsOf 31 30 v = 0 := (bitsOf_eq ..).trans (by rw [hspace]; rfl)
  simp only [mtrCapture, hsel]
  rw [bitsOf_eq 27 16, bitsOf_eq 3 0, Nat.pow_zero, Nat.div_one]
  exact if_neg (by simp only [Bool.or_eq_true, decide_eq_true_eq]; omega)

/-- A selection of a thermal channel's register captures it. -/
theorem mtrCapture_thermal (hspace : v / 2 ^ 30 = 1) (hreg : v % 16 ≤ 3) :
    mtrCapture s v = some (regCapture (mtrReg s (4096 + 4 * (v / 2 ^ 16 % 2 ^ 12) + v % 16))) := by
  have hsel : bitsOf 31 30 v = 1 := (bitsOf_eq ..).trans (by rw [hspace]; rfl)
  simp only [mtrCapture, hsel]
  rw [bitsOf_eq 27 16, bitsOf_eq 3 0, Nat.pow_zero, Nat.div_one]
  exact if_neg (Nat.not_lt.2 hreg)

/-- A selection of an electric channel beyond 33 captures nothing. -/
theorem mtrCapture_outside (hspace : v / 2 ^ 30 = 0) (hch : 33 < v / 2 ^ 16 % 2 ^ 12) : mtrCapture s v = none := by
  have hsel : bitsOf 31 30 v = 0 := (bitsOf_eq ..).trans (by rw [hspace]; rfl)
  simp only [mtrCapture, hsel]
  rw [bitsOf_eq 27 16]
  exact if_pos (by simp only [Bool.or_eq_true, decide_eq_true_eq]; omega)

end

theorem exec_mtrRdSelWrite {s : State} {v : BitVec 32} (h : Takes s R.MTR_RD_SEL v) :
    exec (.mtrRdSelWrite v) s = .next (mtrShow (plainWrite s R.MTR_RD_SEL v) (mtrCapture s v.toNat)) :=
  congrArg Host.Outcome.next (checkedWrite_takes s _ v _ h)

theorem mtrRdSelWrite_gives {s : State} {v : BitVec 32} (h : Takes s R.MTR_RD_SEL v) {x : Nat}
    (hx : mtrCapture s v.toNat = some (regCapture x)) : Gives (.mtrRdSelWrite v) s fun u => RdShows s u x :=
  ⟨_, (exec_mtrRdSelWrite h).trans (by rw [hx]), rdShows_mtrShow (.after_plainWrite (.refl s)) x⟩

theorem mtrRdSelWrite_outside_gives {s : State} {v : BitVec 32} (h : Takes s R.MTR_RD_SEL v)
    (hx : mtrCapture s v.toNat = none) :
    Gives (.mtrRdSelWrite v) s fun u => RdShows s u 0 ∧ getF u F.SYS_STATUS_CFG_ERR = 1 :=
  ⟨_, (exec_mtrRdSelWrite h).trans (by rw [hx]), rdShows_mtrShow_none (.after_plainWrite (.refl s)), cfgErr_mtrShow_none _⟩

/-! ### The end of a pulse (R154) -/

theorem mtr_ite {c : Prop} [Decidable c] {s t u : State} (ht : t.mtr = s.mtr) (hu : u.mtr = s.mtr) :
    (if c then t else u).mtr = s.mtr := by
  split <;> assumption

theorem mtr_showFault (s : State) : (showFault s).mtr = s.mtr := by
  unfold showFault
  exact mtr_ite (mtr_evBit ..) (mtr_ite (congrArg State.mtr (ev_only ..) :) rfl)

theorem mtr_driveOutputs (s : State) : (driveOutputs s).mtr = s.mtr := by
  unfold driveOutputs
  exact mtr_ite (mtr_ite rfl rfl) ((mtr_showFault _).trans (mtr_ite rfl rfl))

/-- The drive of the outputs leaves the registers of metering. -/
theorem getReg_driveOutputs (s : State) {a : Nat} (h : a ≤ R.RED_STATUS) : getReg (driveOutputs s) a = getReg s a :=
  (TickFrame.after_driveOutputs (.refl ⟨False, False, False, (· ≤ R.RED_STATUS), fun _ ha => ha⟩ s)).regs a h

theorem pulseEnd_gives {s : State} {p : Fin 8} (hactive : getFi s F.MTR_PULSE_STAT_ACTIVE p = 1)
    (hdue : (alGet? s.mtr.poff p.val).getD 0 ≤ nowNs s) : Gives (.pulseEnd p) s fun u =>
      getFi u F.MTR_PULSE_STAT_ACTIVE p = 0 ∧ alGet? u.mtr.poff p.val = some (nowNs s + pulseWidth s p.val) ∧
      getFi u F.MTR_PULSE_STAT_BACKLOG p.val = getFi s F.MTR_PULSE_STAT_BACKLOG p.val := by
  have hreg : ∀ t, getReg (driveOutputs t) (F.MTR_PULSE_STAT_ACTIVE.at p) = getReg t (F.MTR_PULSE_STAT_ACTIVE.at p) := fun t =>
    getReg_driveOutputs t (by simp only [Fld.at, F.MTR_PULSE_STAT_ACTIVE, R.RED_STATUS]; omega)
  refine ⟨_, congrArg Host.Outcome.next (if_pos (by simp [hactive, hdue])), ?_, ?_, ?_⟩
  · exact (congrArg (fieldOf 31 31) (hreg _)).trans (getFi_setFi_zero _ _ ⟨by decide, by decide⟩)
  · rw [mtr_driveOutputs]
    exact (alGet?_alPut ..).trans (if_pos rfl)
  · exact (congrArg (fieldOf 15 0) (hreg _)).trans (getFi_setFi_apart _ F.MTR_PULSE_STAT_ACTIVE F.MTR_PULSE_STAT_BACKLOG p p 0
      ⟨by decide, by decide⟩ rfl (.inl (by decide)))

/-! ### The statement -/

/-- Settles O40: clause by clause, in the order in which an interval ends, is archived and is read. -/
theorem meterLatch : Obligations.MeterLatch := by
  unfold Obligations.MeterLatch
  intro s
  refine ⟨?instant, ?copy, ?archive, ?reads, ?pulses⟩
  case instant =>
    intro l hl hrun hexec hinst hidle hsince
    exact latchInstant_gives hl hrun hexec hinst hidle hsince
  case copy =>
    intro t ht hdue hclosed
    exact latchElectricCopy_gives ht hdue hclosed
  case archive =>
    intro l b rest hslots
    exact ⟨archiveSlotWrite_gives hslots, archiveSlotWrite_frozen_gives hslots⟩
  case reads =>
    intro v htakes
    exact ⟨fun hspace hch hreg => mtrRdSelWrite_gives htakes (mtrCapture_electric s hspace hch hreg),
      fun hspace hreg => mtrRdSelWrite_gives htakes (mtrCapture_thermal s hspace hreg),
      fun hspace hch => mtrRdSelWrite_outside_gives htakes (mtrCapture_outside s hspace hch)⟩
  case pulses =>
    intro p hactive hdue
    exact pulseEnd_gives hactive hdue

end Sys2Proof.Machine
end

section
/-!
PROOFS. Instructions on a core (07 R163 to R168 R182 R184, 08 R191 R198 to R200 R206 to R208): what issuing one answers, where it
goes on, what the flag-setting and the system instructions leave, and what an exception saves.
-/
namespace Sys2Proof.Machine

/-! ### The registers of a core -/

@[simp] theorem coreOf_setCtx (s : State) (c : Fin 6) (k : RegCtx) : coreOf (setCtx s c k) c = { coreOf s c with ctx := k } :=
  coreOf_modCore_same ..

@[simp] theorem ctxOf_setCtx (s : State) (c : Fin 6) (k : RegCtx) : ctxOf (setCtx s c k) c = k :=
  congrArg Core.ctx (coreOf_setCtx ..)

@[simp] theorem coreOf_setPc (s : State) (c : Fin 6) (pc : Dword) :
    coreOf (setPc s c pc) c = { coreOf s c with ctx := { ctxOf s c with pc := pc } } :=
  coreOf_modCore_same ..

@[simp] theorem ctxOf_setPc (s : State) (c : Fin 6) (pc : Dword) : ctxOf (setPc s c pc) c = { ctxOf s c with pc := pc } :=
  congrArg Core.ctx (coreOf_setPc ..)

/-- The last change of a core stands. -/
theorem modCore_modCore (s : State) (c : Fin 6) (f g : Core → Core) :
    modCore (modCore s c f) c g = modCore s c fun q => g (f q) := by
  simp [modCore]

theorem setPc_setCtx (s : State) (c : Fin 6) (k : RegCtx) (pc : Dword) :
    setPc (setCtx s c k) c pc = setCtx s c { k with pc := pc } :=
  modCore_modCore ..

theorem onlyCore_modCore (s : State) (c : Fin 6) (f : Core → Core) : OnlyCore c s (modCore s c f) :=
  ⟨rfl, fun d hd => coreOf_modCore_ne s c d f hd⟩

theorem onlyCore_setCtx (s : State) (c : Fin 6) (k : RegCtx) : OnlyCore c s (setCtx s c k) := onlyCore_modCore ..

theorem sameMemory_setCtx (s : State) (c : Fin 6) (k : RegCtx) : SameMemory s (setCtx s c k) :=
  fun _ => ⟨rfl, rfl, rfl, rfl, rfl⟩

/-! ### The next instruction -/

/-- What a core can fetch depends on its mode and on the program. -/
theorem fetchExc_congr {s t : State} {c : Fin 6} (hstat : (coreOf t c).stat = (coreOf s c).stat) (hprog : t.prog = s.prog)
    (pc : Dword) : fetchExc t c pc = fetchExc s c pc := by
  have hextent : inExtent t pc.toNat 4 = inExtent s pc.toNat 4 := by simp only [inExtent, hprog]
  simp only [fetchExc, isSup, hstat, hextent]
  rfl

/-- Where the next instruction can be fetched, the core goes on there. -/
theorem goTo_of_fetchable {s : State} {c : Fin 6} {pc : Dword} (h : fetchExc s c pc = none) : goTo s c pc = setPc s c pc := by
  have hnext : fetchExc (setPc s c pc) c pc = none := (fetchExc_congr (s := s) (t := setPc s c pc) (by simp) rfl pc).trans h
  simp only [goTo, hnext]

theorem goOn_of_fetchable {s : State} {c : Fin 6} (h : fetchExc s c ((ctxOf s c).pc + 4) = none) (k : RegCtx) :
    goOn s c k = setCtx s c { k with pc := (ctxOf s c).pc + 4 } := by
  have hnext : fetchExc (setCtx s c k) c ((ctxOf s c).pc + 4) = none :=
    (fetchExc_congr (s := s) (t := setCtx s c k) (by simp) rfl _).trans h
  exact (goTo_of_fetchable hnext).trans (setPc_setCtx ..)

/-! ### Issuing -/

theorem Runs.waiting {x : Issue} {s : State} (h : Runs x s) : (coreOf s x.core).waiting = false := by
  have hlive := h.1
  simp only [live, Bool.and_eq_true, Bool.not_eq_true'] at hlive
  exact hlive.1.2

/-- What an instruction answers on a core that executes it without a fault. -/
theorem issue_of_runs {x : Issue} {s : State} (h : Runs x s) (ea : Option Dword) (f : State → Exe) :
    issue x s ea f = match f s with
      | .error e => .next (raise s x.core e)
      | .ok (u, pc) => .next (if (coreOf u x.core).waiting then setPc u x.core pc else goTo u x.core pc) := by
  have hcount : countCorrected s x = s := by simp [countCorrected, h.2]
  simp only [issue, h.1, faultExc, h.2, hcount]
  rfl

theorem issue_raises {x : Issue} {s : State} (h : Runs x s) {ea : Option Dword} {f : State → Exe} {e : Exc}
    (hf : f s = .error e) : issue x s ea f = .next (raise s x.core e) := by
  rw [issue_of_runs h, hf]

theorem issue_goes {x : Issue} {s u : State} {pc : Dword} (h : Runs x s) {ea : Option Dword} {f : State → Exe}
    (hf : f s = .ok (u, pc)) (hwait : (coreOf u x.core).waiting = false) : issue x s ea f = .next (goTo u x.core pc) := by
  rw [issue_of_runs h, hf]
  simp [hwait]

theorem issueG_runs {x : Issue} {s : State} (h : Runs x s) (rd : Fin 32) (f : RegCtx → Dword × Nat) :
    issueG x s rd f = .next (goOn s x.core { putG (ctxOf s x.core) rd (f (ctxOf s x.core)).1 with
      flg := (ctxOf s x.core).flg ||| BitVec.ofNat 32 (f (ctxOf s x.core)).2 }) := by
  have hflg (k : RegCtx) (v : Dword) : (putG k rd v).flg = k.flg := by unfold putG; split <;> rfl
  rw [issueG, issueRegs_runs x s _ h, orFlg, hflg]

theorem issueD_runs {x : Issue} {s : State} (h : Runs x s) (fd : Fin 16) (f : RegCtx → Dword × Nat) :
    issueD x s fd f = .next (goOn s x.core { putD (ctxOf s x.core) fd (f (ctxOf s x.core)).1 with
      flg := (ctxOf s x.core).flg ||| BitVec.ofNat 32 (f (ctxOf s x.core)).2 }) :=
  issueRegs_runs x s _ h

/-! ### The flag-setting instructions -/

theorem putG_d (k : RegCtx) (r : Fin 32) (v : Dword) : (putG k r v).d = k.d := by unfold putG; split <;> rfl

/-- A write of a general register leaves the others. -/
theorem getG_putG_ne (k : RegCtx) {r q : Fin 32} (v : Dword) (h : q ≠ r) : getG (putG k r v) q = getG k q := by
  have hval : r.val ≠ q.val := fun e => h (Fin.ext e.symm)
  unfold putG
  split
  · rfl
  · simp [getG, hval]

/-- A write of a binary64 register leaves the others. -/
theorem getD_putD_ne (k : RegCtx) {r q : Fin 16} (v : Dword) (h : q ≠ r) : getD (putD k r v) q = getD k q := by
  have hval : r.val ≠ q.val := fun e => h (Fin.ext e.symm)
  simp [putD, getD, hval]

theorem getLsbD_or_of_left {n : Nat} {v : BitVec n} (w : BitVec n) {i : Nat} (h : v.getLsbD i = true) :
    (v ||| w).getLsbD i = true := by
  simp [h]

/-- What an instruction that writes one general register and sets flags leaves. -/
theorem issueG_frame {x : Issue} {s u : State} {rd : Fin 32} {f : RegCtx → Dword × Nat} (h : Runs x s)
    (hfetch : fetchExc s x.core ((ctxOf s x.core).pc + 4) = none) (hu : issueG x s rd f = .next u) :
    OnlyCore x.core s u ∧ SameMemory s u ∧
      (∀ i, (ctxOf s x.core).flg.getLsbD i = true → (ctxOf u x.core).flg.getLsbD i = true) ∧
      (ctxOf u x.core).d = (ctxOf s x.core).d ∧ ∀ r, r ≠ rd → getG (ctxOf u x.core) r = getG (ctxOf s x.core) r := by
  rw [issueG_runs h, goOn_of_fetchable hfetch] at hu
  cases hu
  refine ⟨onlyCore_setCtx _ _ _, sameMemory_setCtx _ _ _, ?_, ?_, ?_⟩ <;> rw [ctxOf_setCtx]
  · exact fun i hi => getLsbD_or_of_left _ hi
  · exact putG_d ..
  · exact fun r hr => getG_putG_ne _ _ hr

/-- What an instruction that writes one binary64 register and sets flags leaves. -/
theorem issueD_frame {x : Issue} {s u : State} {fd : Fin 16} {f : RegCtx → Dword × Nat} (h : Runs x s)
    (hfetch : fetchExc s x.core ((ctxOf s x.core).pc + 4) = none) (hu : issueD x s fd f = .next u) :
    OnlyCore x.core s u ∧ SameMemory s u ∧
      (∀ i, (ctxOf s x.core).flg.getLsbD i = true → (ctxOf u x.core).flg.getLsbD i = true) ∧
      (ctxOf u x.core).g = (ctxOf s x.core).g ∧ ∀ r, r ≠ fd → getD (ctxOf u x.core) r = getD (ctxOf s x.core) r := by
  rw [issueD_runs h, goOn_of_fetchable hfetch] at hu
  cases hu
  refine ⟨onlyCore_setCtx _ _ _, sameMemory_setCtx _ _ _, ?_, ?_, ?_⟩ <;> rw [ctxOf_setCtx]
  · exact fun i hi => getLsbD_or_of_left _ hi
  · rfl
  · exact fun r hr => getD_putD_ne _ _ hr

section
variable (x : Issue) (rd ra rb : Fin 32) (fd fa fb : Fin 16) (sh : Fin 63) (n : Fin 32) (s : State)

/-! #### Those that write a general register -/

theorem exec_div : exec (.div x rd ra rb) s = issueG x s rd fun k => divS (getG k ra) (getG k rb) := rfl
theorem exec_divu : exec (.divu x rd ra rb) s = issueG x s rd fun k => divU (getG k ra) (getG k rb) := rfl
theorem exec_rem : exec (.rem x rd ra rb) s = issueG x s rd fun k => remS (getG k ra) (getG k rb) := rfl
theorem exec_remu : exec (.remu x rd ra rb) s = issueG x s rd fun k => remU (getG k ra) (getG k rb) := rfl

theorem exec_qadd : exec (.qadd x rd ra rb) s =
    issueG x s rd fun k => qRes (sat32 (q32 (getG k ra) + q32 (getG k rb))) := rfl
theorem exec_qsub : exec (.qsub x rd ra rb) s =
    issueG x s rd fun k => qRes (sat32 (q32 (getG k ra) - q32 (getG k rb))) := rfl
theorem exec_qmul : exec (.qmul x rd ra rb sh) s =
    issueG x s rd fun k => qRes (wb (mul32 (q32 (getG k ra)) (q32 (getG k rb))) sh.val) := rfl
theorem exec_qdiv : exec (.qdiv x rd ra rb sh) s =
    issueG x s rd fun k => qDiv (q32 (getG k ra)) (q32 (getG k rb)) sh.val := rfl
theorem exec_qshl : exec (.qshl x rd ra sh) s = issueG x s rd fun k => qRes (wb (q32 (getG k ra)) (-(sh.val : Int))) := rfl
theorem exec_qshr : exec (.qshr x rd ra sh) s = issueG x s rd fun k => qRes (roundEven (q32 (getG k ra)) sh.val, false) := rfl
theorem exec_qneg : exec (.qneg x rd ra) s = issueG x s rd fun k => qRes (sat32 (-q32 (getG k ra))) := rfl
theorem exec_qabs : exec (.qabs x rd ra) s = issueG x s rd fun k => qRes (sat32 (q32 (getG k ra)).natAbs) := rfl
theorem exec_qmin : exec (.qmin x rd ra rb) s =
    issueG x s rd fun k => qRes (min (q32 (getG k ra)) (q32 (getG k rb)), false) := rfl
theorem exec_qmax : exec (.qmax x rd ra rb) s =
    issueG x s rd fun k => qRes (max (q32 (getG k ra)) (q32 (getG k rb)), false) := rfl

theorem exec_feq : exec (.feq x rd fa fb) s = issueG x s rd fun k => f64Eq (getD k fa) (getD k fb) := rfl
theorem exec_flt : exec (.flt x rd fa fb) s = issueG x s rd fun k => f64Lt false (getD k fa) (getD k fb) := rfl
theorem exec_fle : exec (.fle x rd fa fb) s = issueG x s rd fun k => f64Lt true (getD k fa) (getD k fb) := rfl
theorem exec_fcvtid : exec (.fcvtid x rd fa) s = issueG x s rd fun k => f64ToInt (getD k fa) := rfl
theorem exec_fcvtqd : exec (.fcvtqd x rd fa n) s = issueG x s rd fun k => f64ToQ (getD k fa) n.val := rfl
theorem exec_fmvgd : exec (.fmvgd x rd fa) s = issueG x s rd fun k => (getD k fa, 0) := rfl

/-! #### Those that write a binary64 register -/

theorem exec_fadd : exec (.fadd x fd fa fb) s = issueD x s fd fun k => f64Add (getD k fa) (getD k fb) := rfl
theorem exec_fsub : exec (.fsub x fd fa fb) s = issueD x s fd fun k => f64Sub (getD k fa) (getD k fb) := rfl
theorem exec_fmul : exec (.fmul x fd fa fb) s = issueD x s fd fun k => f64Mul (getD k fa) (getD k fb) := rfl
theorem exec_fdiv : exec (.fdiv x fd fa fb) s = issueD x s fd fun k => f64Div (getD k fa) (getD k fb) := rfl
theorem exec_fsqrt : exec (.fsqrt x fd fa) s = issueD x s fd fun k => f64Sqrt (getD k fa) := rfl
theorem exec_fmin : exec (.fmin x fd fa fb) s = issueD x s fd fun k => f64Pick false (getD k fa) (getD k fb) := rfl
theorem exec_fmax : exec (.fmax x fd fa fb) s = issueD x s fd fun k => f64Pick true (getD k fa) (getD k fb) := rfl
theorem exec_fneg : exec (.fneg x fd fa) s = issueD x s fd fun k => f64SetSign f64Flip (getD k fa) := rfl
theorem exec_fabs : exec (.fabs x fd fa) s =
    issueD x s fd fun k => f64SetSign (fun v => v &&& 0x7FFFFFFFFFFFFFFF#64) (getD k fa) := rfl
theorem exec_fcvtdi : exec (.fcvtdi x fd ra) s = issueD x s fd fun k => f64OfInt (getG k ra).toInt := rfl
theorem exec_fcvtdq : exec (.fcvtdq x fd ra n) s = issueD x s fd fun k => (f64OfQ (q32 (getG k ra)) n.val, 0) := rfl
theorem exec_fmvdg : exec (.fmvdg x fd ra) s = issueD x s fd fun k => (getG k ra, 0) := rfl

end

/-- Settles O25: each of the instructions is one of the two forms, a general or a binary64 register written and flags set. -/
theorem flagFrame : Obligations.FlagFrame := by
  unfold Obligations.FlagFrame
  intro x rd ra rb fd fa fb sh n s u hruns hfetch flags
  constructor
  · simp only [List.forall_mem_cons, exec_div, exec_divu, exec_rem, exec_remu, exec_qadd, exec_qsub, exec_qmul, exec_qdiv,
      exec_qshl, exec_qshr, exec_qneg, exec_qabs, exec_qmin, exec_qmax, exec_feq, exec_flt, exec_fle, exec_fcvtid, exec_fcvtqd,
      exec_fmvgd]
    refine ⟨?_, ?_, ?_, ?_, ?_, ?_, ?_, ?_, ?_, ?_, ?_, ?_, ?_, ?_, ?_, ?_, ?_, ?_, ?_, ?_, List.forall_mem_nil _⟩ <;>
      exact issueG_frame hruns hfetch
  · simp only [List.forall_mem_cons, exec_fadd, exec_fsub, exec_fmul, exec_fdiv, exec_fsqrt, exec_fmin, exec_fmax, exec_fneg,
      exec_fabs, exec_fcvtdi, exec_fcvtdq, exec_fmvdg]
    refine ⟨?_, ?_, ?_, ?_, ?_, ?_, ?_, ?_, ?_, ?_, ?_, ?_, List.forall_mem_nil _⟩ <;>
      exact issueD_frame hruns hfetch

/-! ### The system instructions -/

theorem exec_mfsr (x : Issue) (rd : Fin 32) (num : BitVec 8) (s : State) : exec (.mfsr x rd num) s = execMfsr x rd num s := rfl
theorem exec_mtsr (x : Issue) (num : BitVec 8) (ra : Fin 32) (s : State) : exec (.mtsr x num ra) s = execMtsr x num ra s := rfl
theorem exec_brk (x : Issue) (num : BitVec 8) (s : State) : exec (.brk x num) s = execBrk x num s := rfl
theorem exec_fence (x : Issue) (s : State) : exec (.fence x) s = execFence x s := rfl
theorem exec_exret (x : Issue) (ra : Fin 32) (s : State) : exec (.exret x ra) s = execExret x ra s := rfl
theorem exec_idlew (x : Issue) (s : State) : exec (.idlew x) s = execIdlew x s := rfl
theorem exec_irqEntry (c : Fin 6) (line : BitVec 8) (s : State) : exec (.irqEntry c line) s = execIrqEntry c line s := rfl
theorem exec_undefinedInstruction (x : Issue) (word : Word) (s : State) :
    exec (.undefinedInstruction x word) s = execUndefinedInstruction x word s := rfl

/-- In supervisor mode MFSR of a listed register writes its value. -/
theorem mfsr_goes {x : Issue} {s : State} {num : BitVec 8} {w : Dword} (rd : Fin 32) (h : Runs x s) (hsup : isSup s x.core = true)
    (hlisted : sysListed num.toNat = true) (hread : sysRead s x.core num.toNat = (w, s)) :
    exec (.mfsr x rd num) s = .next (goOn s x.core (putG (ctxOf s x.core) rd w)) := by
  rw [exec_mfsr, execMfsr]
  refine issue_goes (u := setCtx s x.core (putG (ctxOf s x.core) rd w)) h ?_ ?_
  · simp only [hlisted, hsup, hread, Bool.not_true, Bool.false_and, Bool.false_eq_true, if_false]
    rfl
  · simpa using h.waiting

/-- In supervisor mode MTSR writes a listed register and goes on. -/
theorem mtsr_goes {x : Issue} {s u : State} {num : BitVec 8} {ra : Fin 32} (h : Runs x s) (hsup : isSup s x.core = true)
    (hlisted : sysListed num.toNat = true) (hwrite : sysWrite s x.core num.toNat (getG (ctxOf s x.core) ra) = u)
    (hwait : (coreOf u x.core).waiting = false) :
    exec (.mtsr x num ra) s = .next (goTo u x.core ((ctxOf s x.core).pc + 4)) := by
  rw [exec_mtsr, execMtsr]
  refine issue_goes h ?_ hwait
  simp only [hlisted, hsup, hwrite, Bool.not_true, Bool.false_and, Bool.false_eq_true, if_false]
  rfl

/-- A write without a one in a reserved bit is taken (R9). -/
theorem sysWrite32_of_unreserved {v : Dword} {mask : Nat} (s : State) (c : Fin 6) (f : Core → Word → Core)
    (h : v.toNat % 2 ^ 32 &&& (0xFFFFFFFF - mask) = 0) :
    sysWrite32 s c v mask f = modCore s c fun k => f k (v.setWidth 32) := by
  have hword : BitVec.ofNat 32 (v.toNat % 2 ^ 32) = v.setWidth 32 := by
    apply BitVec.eq_of_toNat_eq
    simp
  rw [sysWrite32, h, hword]
  rfl

theorem fence_goes {x : Issue} {s : State} (h : Runs x s) :
    exec (.fence x) s = .next (goTo s x.core ((ctxOf s x.core).pc + 4)) := by
  rw [exec_fence, execFence]
  exact issue_goes h rfl h.waiting

theorem exret_goes {x : Issue} {s : State} (ra : Fin 32) (h : Runs x s) (hsup : isSup s x.core = true) :
    exec (.exret x ra) s =
      .next (goTo (modCore s x.core fun k => { k with stat := k.sstat }) x.core (getG (ctxOf s x.core) ra)) := by
  rw [exec_exret, execExret]
  refine issue_goes (u := modCore s x.core fun k => { k with stat := k.sstat }) h ?_ ?_
  · simp [hsup]
  · simpa using h.waiting

/-- On a system core without a pending interrupt IDLEW waits at the next instruction. -/
theorem idlew_waits {x : Issue} {s : State} (h : Runs x s) (hcore : 4 ≤ x.core.val) (hirqs : s.irqs = []) :
    exec (.idlew x) s = .next (setPc (modCore s x.core fun k => { k with waiting := true }) x.core ((ctxOf s x.core).pc + 4)) := by
  rw [exec_idlew, execIdlew, issue_of_runs h]
  simp only [if_neg (Nat.not_lt.2 hcore), hirqs, if_true, coreOf_modCore_same]
  rfl

theorem idlew_goes {x : Issue} {s : State} (h : Runs x s) (hcore : 4 ≤ x.core.val) (hirqs : s.irqs ≠ []) :
    exec (.idlew x) s = .next (goTo s x.core ((ctxOf s x.core).pc + 4)) := by
  rw [exec_idlew, execIdlew]
  refine issue_goes h ?_ h.waiting
  simp only [if_neg (Nat.not_lt.2 hcore), hirqs, if_false]
  rfl

/-- Settles O13: the reads and writes of the listed registers, then the instructions that go on elsewhere or wait. -/
theorem supervisorInstructions : Obligations.SupervisorInstructions := by
  unfold Obligations.SupervisorInstructions
  intro x rd ra s hruns hsup q k v reads writes
  have hreads {n : BitVec 8} {w : Dword} (hlisted : sysListed n.toNat = true) (hread : sysRead s x.core n.toNat = (w, s)) :
      reads n w := mfsr_goes rd hruns hsup hlisted hread
  have hwrites {n : BitVec 8} {q' : Core} (hlisted : sysListed n.toNat = true)
      (hwrite : sysWrite s x.core n.toNat v = modCore s x.core fun _ => q') (hwait : q'.waiting = q.waiting) : writes n q' :=
    mtsr_goes hruns hsup hlisted hwrite (by simpa [hwait] using hruns.waiting)
  refine ⟨hreads rfl rfl, hreads rfl rfl, hreads rfl rfl, hreads rfl rfl, hreads rfl rfl, hreads rfl rfl, hreads rfl rfl,
    hwrites rfl rfl rfl, hwrites rfl rfl rfl, ?vbase, ?unaligned, ?sstat, exret_goes ra hruns hsup, fence_goes hruns, ?waits,
    idlew_goes hruns⟩
  case vbase => exact fun haligned => hwrites rfl (if_neg (not_not.2 haligned)) rfl
  case unaligned => exact fun hnot => mtsr_goes hruns hsup rfl (if_pos hnot) hruns.waiting
  case sstat =>
    intro hbits
    have hunreserved : v.toNat % 2 ^ 32 &&& (0xFFFFFFFF - 1) = 0 := by
      generalize v.toNat % 2 ^ 32 = w at hbits
      interval_cases w <;> rfl
    exact hwrites rfl (sysWrite32_of_unreserved s x.core (fun k w => { k with sstat := w }) hunreserved) rfl
  case waits =>
    intro hcore hirqs
    exact ⟨_, idlew_waits hruns hcore hirqs, by simp, by simp [ctxOf, q, k]⟩

/-! ### Exceptions -/

/-- An exception below the hardware-fault class on a core that runs no scan is an entry. -/
theorem raise_of_idle {s : State} {c : Fin 6} {e : Exc} (hbus : e.bus = false) (hclass : e.hw = false)
    (hidle : (coreOf s c).running = none) : raise s c e = enterExc s c e := by
  simp [raise, hbus, hclass, hidle]

theorem cause_of_program {e : Exc} (hclass : e.hw = false) (hdetail : e.detail < 256) (hcode : e.code < 256) :
    e.cause = BitVec.ofNat 32 (e.detail * 256 + e.code) := by
  simp [Exc.cause, hclass, bNat, Nat.mod_eq_of_lt hdetail, Nat.mod_eq_of_lt hcode]

theorem cause_excBREAK (num : BitVec 8) : (excBREAK num.toNat).cause = BitVec.ofNat 32 (num.toNat * 256 + 0x08) :=
  cause_of_program rfl num.isLt (by decide : 0x08 < 256)

theorem cause_excILLEGAL (word : Word) : (excILLEGAL word).cause = BitVec.ofNat 32 (0 * 256 + 0x01) :=
  cause_of_program rfl (by decide : 0 < 256) (by decide : 0x01 < 256)

theorem cause_excIRQ (line : BitVec 8) : (excIRQ line.toNat).cause = BitVec.ofNat 32 (line.toNat * 256 + 0x20) :=
  cause_of_program rfl line.isLt (by decide : 0x20 < 256)

theorem coreOf_enterExc (s : State) (c : Fin 6) (e : Exc) : coreOf (enterExc s c e) c =
    { coreOf s c with epc := (coreOf s c).ctx.pc, ecause := e.cause, eaddr := e.eaddr, sstat := (coreOf s c).stat,
                      stat := (coreOf s c).stat ||| 1, waiting := false,
                      ctx := { (coreOf s c).ctx with pc := (coreOf s c).vbase + BitVec.ofNat 64 (0x40 * e.code) } } :=
  coreOf_modCore_same ..

theorem brk_raises {x : Issue} {s : State} (num : BitVec 8) (h : Runs x s) :
    exec (.brk x num) s = .next (raise s x.core (excBREAK num.toNat)) := by
  rw [exec_brk, execBrk]
  exact issue_raises h rfl

theorem undefinedInstruction_raises {x : Issue} {s : State} {word : Word} (h : Runs x s)
    (hword : wordDefined (isSup s x.core) (x.core.val ≥ 4) word = false) :
    exec (.undefinedInstruction x word) s = .next (raise s x.core (excILLEGAL word)) := by
  rw [exec_undefinedInstruction, execUndefinedInstruction, hword, if_neg Bool.false_ne_true]
  exact issue_raises h rfl

theorem irqEntry_raises {s : State} {c : Fin 6} {line : BitVec 8} (hup : s.runtimeUp = true) (hcore : 4 ≤ c.val)
    (hline : line.toNat ∈ s.irqs) : exec (.irqEntry c line) s =
      .next (raise { s with irqs := s.irqs.filter (· != line.toNat) } c (excIRQ line.toNat)) :=
  if_pos (by simp [hup, hcore, hline])

/-- Settles O14: each of the three events raises its exception on a core that runs no scan, which is an entry. -/
theorem exceptionEntry : Obligations.ExceptionEntry := by
  unfold Obligations.ExceptionEntry
  intro x num word s q enters
  refine ⟨?brk, ?undefined, ?irq⟩
  case brk =>
    intro hruns hidle
    refine ⟨_, brk_raises num hruns, ?_⟩
    rw [raise_of_idle rfl rfl hidle, coreOf_enterExc, cause_excBREAK]
    exact ⟨rfl, onlyCore_modCore ..⟩
  case undefined =>
    intro hruns hidle hword
    refine ⟨_, undefinedInstruction_raises hruns hword, ?_⟩
    rw [raise_of_idle rfl rfl hidle, coreOf_enterExc, cause_excILLEGAL]
    exact ⟨rfl, onlyCore_modCore ..⟩
  case irq =>
    intro hup hcore hidle hline
    have hentry : raise { s with irqs := s.irqs.filter (· != num.toNat) } x.core (excIRQ num.toNat) = _ :=
      raise_of_idle rfl rfl hidle
    refine ⟨_, ?_, irqEntry_raises hup hcore hline, ?_⟩ <;> rw [hentry]
    · simp [enterExc]
    · rw [coreOf_enterExc, cause_excIRQ]
      rfl

end Sys2Proof.Machine
end

section
/-!
PROOFS. Loads, stores and the undo log (07 R170 to R176 R186, 08 R201): what a store in scan mode writes, what its logged line
gives back, and what supervisor code reads and writes on DRAM.
-/
namespace Sys2Proof.Machine

/-! ### Bytes -/

@[simp] theorem length_leBytes (n v : Nat) : (leBytes n v).length = n := by
  induction n generalizing v with
  | zero => rfl
  | succ n ih => simp [leBytes, ih]

theorem getD_leBytes {n i : Nat} (v : Nat) (h : i < n) : (leBytes n v).getD i 0 = BitVec.ofNat 8 (v / 256 ^ i) := by
  induction n generalizing v i with
  | zero => exact absurd h (Nat.not_lt_zero i)
  | succ n ih =>
    cases i with
    | zero => simp [leBytes]
    | succ i =>
      rw [leBytes, List.getD_cons_succ, ih _ (Nat.lt_of_succ_lt_succ h), Nat.div_div_eq_div_mul, pow_succ']

@[simp] theorem length_memBytes (m : Mem) (a n : Nat) : (memBytes m a n).length = n := by
  induction n generalizing a with
  | zero => rfl
  | succ n ih => simp [memBytes, ih]

theorem getD_memBytes (m : Mem) {a n i : Nat} (h : i < n) : (memBytes m a n).getD i 0 = memRead m (a + i) := by
  induction n generalizing a i with
  | zero => exact absurd h (Nat.not_lt_zero i)
  | succ n ih =>
    cases i with
    | zero => rfl
    | succ i => rw [memBytes, List.getD_cons_succ, ih (Nat.lt_of_succ_lt_succ h), Nat.add_assoc, Nat.add_comm 1 i]

/-- The little-endian value of `n` bytes of a memory takes at most `n` bytes. -/
theorem memLe_lt (m : Mem) (a n : Nat) : memLe m a n < 256 ^ n := by
  simpa [memLe] using leNat_lt (memBytes m a n)

/-- Bytes put back where they stood undo a change that lies among them. -/
theorem memRead_putBack {m old : Mem} {a n : Nat} (h : ∀ y, y < a ∨ a + n ≤ y → memRead m y = memRead old y) (y : Nat) :
    memRead (memPut m a (memBytes old a n)) y = memRead old y := by
  rw [memRead_memPut, length_memBytes]
  by_cases hy : a ≤ y ∧ y < a + n
  · rw [if_pos hy, getD_memBytes _ (by omega), Nat.add_sub_cancel' hy.1]
  · rw [if_neg hy]
    exact h y (by omega)

/-! ### The undo log -/

/-- Bytes put at a scan-mode address: into the pages of the tasks, or into a mailbox (R170). -/
def putBytes (s : State) (a : Nat) (bs : List Byte) : State :=
  if a < winConst then { s with inst := memPut s.inst a bs } else { s with mbox := memPut s.mbox a bs }

/-- The line of an address as the undo log keeps it before a store. -/
def lineBefore (s : State) (a : Nat) : UndoEntry :=
  { line := lineOf a, old := memBytes (if a < winConst then s.inst else s.mbox) (lineOf a * 64) 64 }

/-- The lines that a scan has logged since its checkpoint (R221). -/
def loggedSince (sc : Scan) : List UndoEntry := sc.undo.take (sc.undo.length - sc.ckpt.undoMark)

theorem restoreLines_single (s : State) (e : UndoEntry) : restoreLines s [e] = putBytes s (e.line * 64) e.old := rfl

/-- A store to a line that is logged already only puts its bytes. -/
theorem storeLogged_again {s : State} {t : Nat} {sc : Scan} {ad : Dword} (bs : List Byte)
    (h : (loggedSince sc).any (fun e => e.line = lineOf ad.toNat) = true) :
    storeLogged s t sc ad bs = .ok (putBytes s ad.toNat bs) :=
  if_pos h

/-- A store to a new line puts its bytes after logging the line, where the log has room. -/
theorem storeLogged_new {s : State} {t : Nat} {sc : Scan} {ad : Dword} (bs : List Byte)
    (h : (loggedSince sc).any (fun e => e.line = lineOf ad.toNat) = false) :
    storeLogged s t sc ad bs = if sc.undo.length ≥ logLimit then .error (excLIMIT 1 ad)
      else .ok (putBytes (setScan s t (some { sc with undo := lineBefore s ad.toNat :: sc.undo })) ad.toNat bs) :=
  if_neg (by simpa [loggedSince] using h)

/-- A store to a page by a scan with room in its log changes the tasks' records and its bytes. -/
theorem storeLogged_page {s : State} {t : Nat} {sc : Scan} {ad : Dword} (bs : List Byte) (hroom : sc.undo.length < logLimit)
    (hinst : ad.toNat < winConst) :
    ∃ ts, storeLogged s t sc ad bs = .ok { s with tasks := ts, inst := memPut s.inst ad.toNat bs } := by
  cases h : (loggedSince sc).any fun e => e.line = lineOf ad.toNat with
  | true => exact ⟨s.tasks, by rw [storeLogged_again bs h, putBytes, if_pos hinst]⟩
  | false =>
    refine ⟨(setScan s t (some { sc with undo := lineBefore s ad.toNat :: sc.undo })).tasks, ?_⟩
    rw [storeLogged_new bs h, if_neg (Nat.not_le.2 hroom), putBytes, if_pos hinst]
    rfl

theorem scanOf_setScan (s : State) (t : Nat) (x : Option Scan) : scanOf (setScan s t x) t = x := by
  simp [scanOf, setScan]

theorem scanOf_putBytes (s : State) (a t : Nat) (bs : List Byte) : scanOf (putBytes s a bs) t = scanOf s t := by
  unfold putBytes
  split <;> rfl

/-- A line put back after a store inside it: every byte of the pages and of the mailboxes is as before. -/
theorem putBytes_lineBefore {s v : State} {a : Nat} {bs : List Byte} (hinst : v.inst = s.inst) (hmbox : v.mbox = s.mbox)
    (hline : a % 64 + bs.length ≤ 64) (y : Nat) :
    memRead (putBytes (putBytes v a bs) ((lineBefore s a).line * 64) (lineBefore s a).old).inst y = memRead s.inst y ∧
      memRead (putBytes (putBytes v a bs) ((lineBefore s a).line * 64) (lineBefore s a).old).mbox y = memRead s.mbox y := by
  have hlo : lineOf a * 64 ≤ a := Nat.div_mul_le_self a 64
  have hhi : a + bs.length ≤ lineOf a * 64 + 64 := by unfold lineOf; omega
  have hput (m : Mem) (x : Nat) (hx : x < lineOf a * 64 ∨ lineOf a * 64 + 64 ≤ x) :
      memRead (memPut m a bs) x = memRead m x := by
    rw [memRead_memPut, if_neg (by omega)]
  by_cases hwin : a < winConst
  · have hstart : lineOf a * 64 < winConst := by omega
    simp only [putBytes, lineBefore, hwin, hstart, if_true, hinst, hmbox, and_true]
    exact memRead_putBack (hput s.inst) y
  · have hstart : ¬ lineOf a * 64 < winConst := by unfold lineOf winConst at *; omega
    simp only [putBytes, lineBefore, hwin, hstart, if_false, hinst, hmbox, true_and]
    exact memRead_putBack (hput s.mbox) y

/-- Settles O22: the line logged is the one before the store, and the store changed bytes of that line alone. -/
theorem undoGivesBack : Obligations.UndoGivesBack := by
  unfold Obligations.UndoGivesBack
  intro s u t sc ad bs _ _ hstore hline hnew
  rw [storeLogged_new bs hnew] at hstore
  split at hstore
  · cases hstore
  · cases hstore
    refine ⟨lineBefore s ad.toNat, (scanOf_putBytes ..).trans (scanOf_setScan ..), fun y => ?_⟩
    rw [restoreLines_single]
    exact putBytes_lineBefore rfl rfl hline y

/-! ### Stores in scan mode -/

theorem windowOf_page {a : Nat} (hlo : winRet ≤ a) (hhi : a < winConst) :
    windowOf a = some .retained ∨ windowOf a = some .nonretained := by
  have hcode : ¬ a < 0x02000000 := by unfold winRet at hlo; omega
  by_cases hret : a < winNon
  · left; simp [windowOf, hcode, hlo, hret]
  · right; simp [windowOf, hcode, hlo, hret, hhi, Nat.not_lt.1 hret]

/-- An aligned access of a task to its own page passes the checks. -/
theorem scanCheck_own {s : State} {c : Fin 6} {t n : Nat} {sc : Scan} {ad : Dword} (h : ownBytes s c t sc ad.toNat n) (k : Access) :
    scanCheck s t k ad n = none := by
  obtain ⟨-, -, ht, hlo, hhi, hextent, howner, halign, -⟩ := h
  have hshared : t ≠ 0xFE := by omega
  rcases windowOf_page hlo hhi with hwin | hwin <;>
    simp [scanCheck, halign, accessExc, hwin, kindOk, hextent, howner, hshared]

/-- A store of a task to its own page is a logged store. -/
theorem scanStore_own {s : State} {c : Fin 6} {t n : Nat} {sc : Scan} {ad : Dword} (h : ownBytes s c t sc ad.toNat n) (v : Nat) :
    scanStore s t ad n v = storeLogged s t sc ad (leBytes n v) := by
  have hcheck := scanCheck_own h .store
  obtain ⟨-, hscan, ht, hlo, hhi, -, howner, -⟩ := h
  have hshared : t ≠ 0xFE := by omega
  rcases windowOf_page hlo hhi with hwin | hwin <;>
    simp [scanStore, hcheck, hscan, scanStoreRaw, hwin, howner, hshared]

/-- A store that its core carries out goes on at PC + 4. -/
theorem storeV_goes {x : Issue} {s u : State} {ra : Fin 32} {imm : BitVec 16} {n : Nat} {v : RegCtx → Dword} (h : Runs x s)
    (hstore : coreStore s x.core (effAddr s x.core ra imm) n (v (ctxOf s x.core)).toNat = .ok u)
    (hcores : u.cores = s.cores) : storeV x ra imm n v s = .next (goTo u x.core ((ctxOf s x.core).pc + 4)) := by
  refine issue_goes h ?_ ?_
  · rw [hstore]
    rfl
  · simpa [coreOf, hcores] using h.waiting

/-- A store of a task to its own page: its bytes are written, and the core goes on. -/
theorem storeV_own {x : Issue} {s : State} {ra : Fin 32} {imm : BitVec 16} {t n : Nat} {sc : Scan} (v : RegCtx → Dword)
    (h : Runs x s) (hown : ownBytes s x.core t sc (effAddr s x.core ra imm).toNat n) : ∃ ts, storeV x ra imm n v s =
      .next (setPc
        { s with tasks := ts, inst := memPut s.inst (effAddr s x.core ra imm).toNat (leBytes n (v (ctxOf s x.core)).toNat) }
        x.core ((ctxOf s x.core).pc + 4)) := by
  have hscan := scanStore_own hown (v (ctxOf s x.core)).toNat
  obtain ⟨htask, -, -, -, hhi, -, -, -, hroom, hfetch⟩ := hown
  obtain ⟨ts, hts⟩ := storeLogged_page (s := s) (t := t) (leBytes n (v (ctxOf s x.core)).toNat) hroom hhi
  have hstore (ad : Dword) (w : Nat) : coreStore s x.core ad n w = scanStore s t ad n w := by rw [coreStore, htask]
  exact ⟨ts, (storeV_goes h ((hstore ..).trans (hscan.trans hts)) rfl).trans (congrArg _ (goTo_of_fetchable hfetch))⟩

/-- The bytes of a value written to a memory. -/
theorem memRead_memPut_leBytes (m : Mem) (a n v y : Nat) : memRead (memPut m a (leBytes n v)) y =
    if a ≤ y ∧ y < a + n then BitVec.ofNat 8 (v / 256 ^ (y - a)) else memRead m y := by
  rw [memRead_memPut, length_leBytes]
  split
  · exact getD_leBytes v (by omega)
  · rfl

section
variable (x : Issue) (rd rt ra : Fin 32) (ft : Fin 16) (imm : BitVec 16) (s : State)

theorem exec_sb : exec (.sb x rt ra imm) s = storeV x ra imm 1 (fun k => getG k rt) s := rfl
theorem exec_sh : exec (.sh x rt ra imm) s = storeV x ra imm 2 (fun k => getG k rt) s := rfl
theorem exec_sw : exec (.sw x rt ra imm) s = storeV x ra imm 4 (fun k => getG k rt) s := rfl
theorem exec_sd : exec (.sd x rt ra imm) s = storeV x ra imm 8 (fun k => getG k rt) s := rfl
theorem exec_fsd : exec (.fsd x ft ra imm) s = storeV x ra imm 8 (fun k => getD k ft) s := rfl
theorem exec_lb : exec (.lb x rd ra imm) s = loadG x rd ra imm 1 (sext64 8) s := rfl
theorem exec_lbu : exec (.lbu x rd ra imm) s = loadG x rd ra imm 1 (zext64 8) s := rfl
theorem exec_lh : exec (.lh x rd ra imm) s = loadG x rd ra imm 2 (sext64 16) s := rfl
theorem exec_lhu : exec (.lhu x rd ra imm) s = loadG x rd ra imm 2 (zext64 16) s := rfl
theorem exec_lw : exec (.lw x rd ra imm) s = loadG x rd ra imm 4 (sext64 32) s := rfl
theorem exec_lwu : exec (.lwu x rd ra imm) s = loadG x rd ra imm 4 (zext64 32) s := rfl
theorem exec_ld : exec (.ld x rd ra imm) s = loadG x rd ra imm 8 (zext64 64) s := rfl
theorem exec_lbool : exec (.lbool x rd ra imm) s = loadG x rd ra imm 1 (fun v => boolD (v != 0)) s := rfl

end

/-- Settles O11: each store is the logged store of its bytes, and the core goes on at PC + 4. -/
theorem scanStores : Obligations.ScanStores := by
  unfold Obligations.ScanStores
  intro x rt ra ft imm s t sc hruns k a stores
  have hstores {i : Instr} {n : Nat} (v : RegCtx → Dword) (hexec : exec i s = storeV x ra imm n v s) : stores i n (v k) := by
    intro hown
    obtain ⟨ts, hts⟩ := storeV_own v hruns hown
    exact ⟨_, hexec.trans hts, memRead_memPut_leBytes s.inst a n (v k).toNat, by rw [ctxOf_setPc]; rfl,
      by rw [ctxOf_setPc], rfl, rfl, rfl, rfl, rfl⟩
  exact ⟨hstores _ (exec_sb ..), hstores _ (exec_sh ..), hstores _ (exec_sw ..), hstores _ (exec_sd ..),
    hstores _ (exec_fsd ..)⟩

/-! ### Supervisor code on DRAM -/

theorem regionOf_dram {a : Nat} (hlo : 0x100000000 ≤ a) (hhi : a < 0x480000000) : regionOf a = .dram := by
  have hrom : ¬ a < 0x40000 := by omega
  have hmram : ¬ a < 0x60000000 := by omega
  have hnsa : ¬ a < userBase := by unfold userBase; omega
  have huser : ¬ a < userBase + userSize := by unfold userBase userSize; omega
  have hctl : ¬ a < ctlEnd := by unfold ctlEnd; omega
  simp [regionOf, hrom, hmram, hnsa, huser, hctl, hlo, hhi]

/-- None of DRAM is in the configuration partition. -/
theorem not_cfg_of_dram {a : Nat} (hlo : 0x100000000 ≤ a) : inCfgPart a = false ∧ inCfgReserved a = false := by
  have hpart : ¬ a < 0x47500000 := by omega
  have hreserved : ¬ a < 0x47800000 := by omega
  simp [inCfgPart, inCfgReserved, hpart, hreserved]

/-- DRAM is read as it stands: no write of it waits. -/
theorem physBytes_dram (s : State) (f : Nat) {a n : Nat} (hlo : 0x100000000 ≤ a) (hhi : a + n ≤ 0x480000000) :
    physBytes s f a n = memBytes s.mem a n := by
  induction n generalizing a with
  | zero => rfl
  | succ n ih =>
    have hregion := regionOf_dram hlo (by omega)
    obtain ⟨hpart, hreserved⟩ := not_cfg_of_dram hlo
    rw [physBytes, memBytes, ih (by omega) (by omega)]
    simp [waitingByte, storedByte, freeBytes, hregion, hpart, hreserved]

/-- An aligned access that begins in DRAM ends in it. -/
theorem inDram_ends {s : State} {c : Fin 6} {ad : Dword} {n : Nat} (h : inDram s c ad n) (hn : n ∣ 0x480000000) :
    ad.toNat + n ≤ 0x480000000 := by
  obtain ⟨-, -, hhi, halign⟩ := h
  have hrest : n ≤ 0x480000000 - ad.toNat :=
    Nat.le_of_dvd (Nat.sub_pos_of_lt hhi) (Nat.dvd_sub hn (Nat.dvd_of_mod_eq_zero halign))
  omega

theorem scanTask_of_isSup {s : State} {c : Fin 6} (h : isSup s c = true) : scanTask s c = none := by simp [scanTask, h]

theorem coreLoad_dram {s : State} {c : Fin 6} {ad : Dword} {n : Nat} (h : inDram s c ad n) (hn : n ∣ 0x480000000) :
    coreLoad s c ad n = .ok (s, memLe s.mem ad.toNat n) := by
  have hends := inDram_ends h hn
  obtain ⟨hsup, hlo, hhi, halign⟩ := h
  have hregion := regionOf_dram hlo hhi
  have hspace : ¬ 1099511627776 ≤ ad.toNat := by omega
  simp [coreLoad, scanTask_of_isSup hsup, supLoad, halign, hspace, hregion, supReads, freeBytes, not_cfg_of_dram hlo,
    physBytes_dram s _ hlo hends, memLe]

theorem coreStore_dram {s : State} {c : Fin 6} {ad : Dword} {n : Nat} (h : inDram s c ad n) (v : Nat) :
    coreStore s c ad n v = .ok { s with mem := memPut s.mem ad.toNat (leBytes n v) } := by
  obtain ⟨hsup, hlo, hhi, halign⟩ := h
  have hregion := regionOf_dram hlo hhi
  have hspace : ¬ 1099511627776 ≤ ad.toNat := by omega
  simp [coreStore, scanTask_of_isSup hsup, supStore, halign, hspace, hregion]

/-- A load that its core carries out without a further effect writes its register. -/
theorem loadG_goes {x : Issue} {s : State} {ra : Fin 32} {imm : BitVec 16} {n v : Nat} (rd : Fin 32) (f : Nat → Dword)
    (h : Runs x s) (hload : coreLoad s x.core (effAddr s x.core ra imm) n = .ok (s, v)) :
    loadG x rd ra imm n f s = .next (goOn s x.core (putG (ctxOf s x.core) rd (f v))) := by
  refine issue_goes (u := setCtx s x.core (putG (ctxOf s x.core) rd (f v))) h ?_ ?_
  · rw [hload]
    rfl
  · simpa using h.waiting

/-- The zero extension of `n` bytes is their value. -/
theorem zext64_memLe {n w : Nat} (m : Mem) (a : Nat) (hw : 256 ^ n = 2 ^ w) :
    zext64 w (memLe m a n) = BitVec.ofNat 64 (memLe m a n) := by
  rw [zext64, ← hw, Nat.mod_eq_of_lt (memLe_lt m a n)]

theorem boolD_ne_zero (v : Nat) : boolD (v != 0) = if v = 0 then 0 else 1 := by
  by_cases h : v = 0 <;> simp [boolD, h]

/-- Settles O10: by width, the loads read DRAM as it stands and the stores write it. -/
theorem supervisorMemory : Obligations.SupervisorMemory := by
  unfold Obligations.SupervisorMemory
  intro x rd rt ra ft imm s hruns k ad ok v load store
  have hload {i : Instr} {n : Nat} {f : Nat → Dword} {w : Dword} (hok : ok n) (hn : n ∣ 0x480000000)
      (hexec : exec i s = loadG x rd ra imm n f s) (hw : f (v n) = w) : exec i s = load w :=
    hw ▸ hexec.trans (loadG_goes rd f hruns (coreLoad_dram hok hn))
  have hstore {i : Instr} {n : Nat} (f : RegCtx → Dword) (hok : ok n) (hexec : exec i s = storeV x ra imm n f s) :
      exec i s = store n (f k) :=
    hexec.trans (storeV_goes hruns (coreStore_dram hok _) rfl)
  have hstoreG {i : Instr} {n : Nat} (hok : ok n) (hexec : exec i s = storeV x ra imm n (fun k => getG k rt) s) :
      exec i s = store n (getG k rt) := hstore _ hok hexec
  refine ⟨fun hok => ?bytes, fun hok => ?halves, fun hok => ?words, fun hok => ?doubles⟩
  case bytes =>
    have hn : 1 ∣ 0x480000000 := by decide
    exact ⟨hload hok hn (exec_lbu ..) (zext64_memLe _ _ (by norm_num)), hload hok hn (exec_lb ..) rfl,
      hload hok hn (exec_lbool ..) (boolD_ne_zero _), hstoreG hok (exec_sb ..)⟩
  case halves =>
    have hn : 2 ∣ 0x480000000 := by decide
    exact ⟨hload hok hn (exec_lhu ..) (zext64_memLe _ _ (by norm_num)), hload hok hn (exec_lh ..) rfl, hstoreG hok (exec_sh ..)⟩
  case words =>
    have hn : 4 ∣ 0x480000000 := by decide
    exact ⟨hload hok hn (exec_lwu ..) (zext64_memLe _ _ (by norm_num)), hload hok hn (exec_lw ..) rfl, hstoreG hok (exec_sw ..)⟩
  case doubles =>
    have hn : 8 ∣ 0x480000000 := by decide
    exact ⟨hload hok hn (exec_ld ..) (zext64_memLe _ _ (by norm_num)), hstoreG hok (exec_sd ..),
      hstore (fun k => getD k ft) hok (exec_fsd ..)⟩

end Sys2Proof.Machine
end

section
/-!
PROOFS. The first hardware fault of a scan (07 R182 R184 R187, 09 R222): its entry, and the return of the scan to its
checkpoint.
-/
namespace Sys2Proof.Machine

/-! ### What an event and a restored line leave -/

theorem evBitTask_only (s : State) (f : Fld) (v t : Nat) (l : List Nat) :
    { evBitTask s f v t l with regs := s.regs, evr := s.evr } = s :=
  congrArg (fun x : State => { x with regs := s.regs, evr := s.evr }) (evTask_only (setF s f 1) (blockOf f.addr) f.lo v t l)

/-- An event of a task that sets its bit leaves the other registers below the recorder's. -/
theorem getReg_evBitTask_of_ne (s : State) {f : Fld} (v t : Nat) (l : List Nat) {a : Nat} (h : a < 0xF0120000)
    (hne : a ≠ f.addr) : getReg (evBitTask s f v t l) a = getReg s a := by
  have hlevel : a ≠ F.EVR_STATUS_BUF_LEVEL.addr := Nat.ne_of_lt (Nat.lt_trans h (by decide))
  have hdrop : a ≠ F.EVR_EVENTS_DROP.addr := Nat.ne_of_lt (Nat.lt_trans h (by decide))
  have hcount : a ≠ F.EVR_DROP_COUNT.at v := by
    simp only [Fld.at, F.EVR_DROP_COUNT]
    omega
  exact (getReg_evrSubmit _ _ a hlevel hdrop hcount).trans (getReg_setF_ne s f 1 a hne)

theorem restoreLines_only (s : State) (l : List UndoEntry) : { restoreLines s l with inst := s.inst, mbox := s.mbox } = s := by
  induction l generalizing s with
  | nil => rfl
  | cons e l ih =>
    have hrest (u : State) (hu : { u with inst := s.inst, mbox := s.mbox } = s) :
        { restoreLines u l with inst := s.inst, mbox := s.mbox } = s :=
      (congrArg (fun x : State => { x with inst := s.inst, mbox := s.mbox }) (ih u)).trans hu
    rw [restoreLines]
    split
    · exact hrest _ rfl
    · exact hrest _ rfl

/-- What lines put back leave in the two memories depends on these alone. -/
theorem restoreLines_congr {s u : State} (hinst : u.inst = s.inst) (hmbox : u.mbox = s.mbox) (l : List UndoEntry) :
    (restoreLines u l).inst = (restoreLines s l).inst ∧ (restoreLines u l).mbox = (restoreLines s l).mbox := by
  induction l generalizing s u with
  | nil => exact ⟨hinst, hmbox⟩
  | cons e l ih =>
    simp only [restoreLines]
    split
    · exact ih (by simp only [hinst]) hmbox
    · exact ih hinst (by simp only [hmbox])

/-! ### A reroll (R222) -/

/-- A scan back at its checkpoint after a hardware fault. -/
def rerolledScan (sc : Scan) (e : Exc) : Scan :=
  { sc with undo := sc.undo.drop (sc.undo.length - sc.ckpt.undoMark), buf := sc.buf.drop (sc.buf.length - sc.ckpt.bufMark),
            calls := sc.calls.drop (sc.calls.length - sc.ckpt.callMark), ticket := sc.ckpt.ticket, info := sc.info ||| 1,
            faulted := some ⟨e.code, e.detail, e.eaddr.toNat⟩ }

/-- The state with a scan and its core back at the checkpoint, before the reroll is counted. -/
def backAtCkpt (s : State) (c : Fin 6) (t : Nat) (sc : Scan) (e : Exc) : State :=
  modCore (setScan (restoreLines s (loggedSince sc)) t (some (rerolledScan sc e))) c fun k =>
    { k with ctx := sc.ckpt.ctx, stat := k.stat &&& 0xFFFFFFFE#32 }

/-- The counters of a reroll. -/
def rerollCounted (s : State) (c : Fin 6) : State :=
  bumpSat (bump { s with red := { s.red with rerolls := s.red.rerolls ++ [nowNs s] } } F.SCN_CNT_REROLL_COUNT)
    F.SCN_CORE_STAT_REROLLS c.val 1

theorem reroll_eq (s : State) (c : Fin 6) (t : Nat) (sc : Scan) (e : Exc) : reroll s c t sc e =
    evBitTask (rerollCounted (backAtCkpt s c t sc e) c) F.SCN_EVENTS_REROLL 3 t [c.val, e.code, e.detail] := rfl

/-- Beside the return to the checkpoint a reroll changes registers, the recorder and the pair's record alone. -/
theorem reroll_only (s : State) (c : Fin 6) (t : Nat) (sc : Scan) (e : Exc) :
    { reroll s c t sc e with regs := s.regs, evr := s.evr, red := s.red } =
      { backAtCkpt s c t sc e with regs := s.regs, evr := s.evr, red := s.red } :=
  congrArg (fun x : State => { x with regs := s.regs, evr := s.evr, red := s.red })
    (evBitTask_only (rerollCounted (backAtCkpt s c t sc e) c) F.SCN_EVENTS_REROLL 3 t [c.val, e.code, e.detail])

theorem regs_backAtCkpt (s : State) (c : Fin 6) (t : Nat) (sc : Scan) (e : Exc) : (backAtCkpt s c t sc e).regs = s.regs :=
  (congrArg State.regs (restoreLines_only s (loggedSince sc)) :)

theorem getF_bump_same (s : State) {f : Fld} (h : f.inWord) : getF (bump s f) f = (getF s f + 1) % 2 ^ (f.hi + 1 - f.lo) :=
  getFi_setFi_same s f 0 _ h

theorem rerollCount_reroll (s : State) (c : Fin 6) (t : Nat) (sc : Scan) (e : Exc) :
    getF (reroll s c t sc e) F.SCN_CNT_REROLL_COUNT = (getF s F.SCN_CNT_REROLL_COUNT + 1) % 2 ^ 32 := by
  have hcore : F.SCN_CNT_REROLL_COUNT.at 0 ≠ F.SCN_CORE_STAT_REROLLS.at c.val := by
    simp only [Fld.at, F.SCN_CNT_REROLL_COUNT, F.SCN_CORE_STAT_REROLLS]
    omega
  have hevent (u : State) : getF (evBitTask u F.SCN_EVENTS_REROLL 3 t [c.val, e.code, e.detail]) F.SCN_CNT_REROLL_COUNT =
      getF u F.SCN_CNT_REROLL_COUNT :=
    getF_of_getReg (getReg_evBitTask_of_ne u 3 t _ (by decide) (by decide))
  rw [reroll_eq, hevent]
  refine (getFi_setFi_ne _ _ _ _ 0 _ hcore).trans ((getF_bump_same _ ⟨by decide, by decide⟩).trans ?_)
  exact congrArg (fun n => (n + 1) % 2 ^ 32) (getF_congr (regs_backAtCkpt s c t sc e) _)

/-- The core of a reroll: the registers of the checkpoint, in scan mode. -/
theorem core_reroll (s : State) (c : Fin 6) (t : Nat) (sc : Scan) (e : Exc) :
    ctxOf (reroll s c t sc e) c = sc.ckpt.ctx ∧ isSup (reroll s c t sc e) c = false := by
  have hcores : (reroll s c t sc e).cores = (backAtCkpt s c t sc e).cores := (congrArg State.cores (reroll_only s c t sc e) :)
  have hback : coreOf (backAtCkpt s c t sc e) c = _ := coreOf_modCore_same ..
  simp only [ctxOf, isSup, coreOf, hcores]
  simp only [coreOf] at hback
  simp [hback]

theorem scanOf_reroll (s : State) (c : Fin 6) (t : Nat) (sc : Scan) (e : Exc) :
    scanOf (reroll s c t sc e) t = some (rerolledScan sc e) := by
  have htasks : (reroll s c t sc e).tasks = (backAtCkpt s c t sc e).tasks := (congrArg State.tasks (reroll_only s c t sc e) :)
  have hscan : scanOf (reroll s c t sc e) t = scanOf (backAtCkpt s c t sc e) t := by simp only [scanOf, taskOf, htasks]
  exact hscan.trans (scanOf_setScan ..)

/-- The memories of a reroll: the lines logged since the checkpoint are put back. -/
theorem memory_reroll (s : State) (c : Fin 6) (t : Nat) (sc : Scan) (e : Exc) :
    (reroll s c t sc e).inst = (restoreLines s (loggedSince sc)).inst ∧
      (reroll s c t sc e).mbox = (restoreLines s (loggedSince sc)).mbox ∧ (reroll s c t sc e).mem = s.mem :=
  ⟨(congrArg State.inst (reroll_only s c t sc e) :), (congrArg State.mbox (reroll_only s c t sc e) :),
    (congrArg State.mem (reroll_only s c t sc e) :).trans (congrArg State.mem (restoreLines_only s (loggedSince sc)) :)⟩

/-! ### The fault -/

/-- The entry to an exception of a scan, with the task's last code noted (R184, R269). -/
def scanExcEntered (s : State) (c : Fin 6) (t : Nat) (e : Exc) : State :=
  setFi (enterExc s c e) F.SCN_TASK_STAT_LAST_CODE t e.code

/-- The first hardware fault of a scan is a reroll. -/
theorem raise_of_firstFault {s : State} {c : Fin 6} {t : Nat} {sc : Scan} {e : Exc} (hbus : e.bus = false) (hclass : e.hw = true)
    (hrun : (coreOf s c).running = some t) (hscan : scanOf s t = some sc) (hfirst : sc.faulted = none) :
    raise s c e = reroll (scanExcEntered s c t e) c t sc e := by
  have hentered : scanOf (scanExcEntered s c t e) t = some sc := hscan
  have hfault : hwFault (scanExcEntered s c t e) c t e = reroll (scanExcEntered s c t e) c t sc e := by
    simp [hwFault, hentered, hfirst]
  simp only [raise, hbus, hclass, Bool.false_eq_true, if_false, if_true, hrun]
  exact hfault

theorem rerollCount_scanExcEntered (s : State) (c : Fin 6) (t : Nat) (e : Exc) :
    getF (scanExcEntered s c t e) F.SCN_CNT_REROLL_COUNT = getF s F.SCN_CNT_REROLL_COUNT := by
  have hcode : F.SCN_CNT_REROLL_COUNT.at 0 ≠ F.SCN_TASK_STAT_LAST_CODE.at t := by
    simp only [Fld.at, F.SCN_CNT_REROLL_COUNT, F.SCN_TASK_STAT_LAST_CODE]
    omega
  exact getFi_setFi_ne (enterExc s c e) _ _ t 0 _ hcode

theorem exec_ckpt (x : Issue) (s : State) : exec (.ckpt x) s = execCkpt x s := rfl
theorem exec_add (x : Issue) (rd ra rb : Fin 32) (s : State) : exec (.add x rd ra rb) s = execAdd x rd ra rb s := rfl

/-- An instruction that meets a residue fault raises it as a hardware fault, whatever it would do (R183, R184). -/
theorem issue_residue {x : Issue} {s : State} {d : ResidueUnit} (hlive : live s x.core = true) (hfault : x.fault = .residue d) :
    ∃ e : Exc, e.bus = false ∧ e.hw = true ∧ ∀ ea f, issue x s ea f = .next (raise s x.core e) :=
  ⟨⟨0x11, residueDetail d, 0, false⟩, rfl, rfl, fun ea f => issue_faulted x s ea f _ hlive (by simp [faultExc, hfault])⟩

theorem running_of_scanTask {s : State} {c : Fin 6} {t : Nat} (h : scanTask s c = some t) : (coreOf s c).running = some t := by
  unfold scanTask at h
  split at h
  · cases h
  · exact h

/-- Settles O21: the fault is the scan's first, so that what is raised is a reroll. -/
theorem rerollRestores : Obligations.RerollRestores := by
  unfold Obligations.RerollRestores
  intro x d s t sc hlive hfault htask hscan _ hfirst since i hi
  obtain ⟨e, hbus, hclass, hissue⟩ := issue_residue hlive hfault
  have hraises : exec i s = .next (raise s x.core e) := by
    simp only [List.mem_cons, List.not_mem_nil, or_false] at hi
    rcases hi with rfl | rfl | rfl
    · rw [exec_fence, execFence, hissue]
    · rw [exec_ckpt, execCkpt, ctlInstr, hissue]
    · rw [exec_add, execAdd, int3, issueG, issueRegs, hissue]
  rw [raise_of_firstFault hbus hclass (running_of_scanTask htask) hscan hfirst] at hraises
  obtain ⟨hctx, hsup⟩ := core_reroll (scanExcEntered s x.core t e) x.core t sc e
  obtain ⟨hinst, hmbox, hmem⟩ := memory_reroll (scanExcEntered s x.core t e) x.core t sc e
  obtain ⟨hlines, hboxes⟩ := restoreLines_congr (s := s) (u := scanExcEntered s x.core t e) rfl rfl (loggedSince sc)
  have hcount := (rerollCount_reroll (scanExcEntered s x.core t e) x.core t sc e).trans
    (congrArg (fun n => (n + 1) % 2 ^ 32) (rerollCount_scanExcEntered s x.core t e))
  have hinfo : (sc.info ||| 1) % 2 = 1 := by simp [Nat.or_mod_two_eq_one]
  exact ⟨_, hraises, hctx, hsup, hinst.trans hlines, hmbox.trans hboxes, hmem, hcount, _, scanOf_reroll .., rfl, hinfo, rfl,
    rfl, rfl⟩

end Sys2Proof.Machine
end

section
/-!
PROOFS. The binary64 instructions (07 R169, 08 R199 R200): which patterns are NaNs, what the operations make of them, the order
of the others, and the square roots that need no rounding.
-/
namespace Sys2Proof.Machine

/-! ### The parts of a pattern -/

theorem and_maskOf {hi lo : Nat} (v : Nat) (h : lo ≤ hi) : v &&& maskOf hi lo = bitsOf hi lo v <<< lo := by
  apply Nat.eq_of_testBit_eq
  intro j
  rw [Nat.testBit_and, testBit_maskOf, Nat.testBit_shiftLeft, testBit_bitsOf]
  by_cases hj : lo ≤ j
  · have hwidth : j - lo < hi + 1 - lo ↔ j ≤ hi := by omega
    simp [hj, hwidth, Bool.and_comm]
  · simp [hj]

/-- A pattern is its sign, its biased exponent and its fraction. -/
theorem f64Pack_parts (v : Dword) : f64Pack (v.toNat.testBit 63) (bitsOf 62 52 v.toNat) (bitsOf 51 0 v.toNat) = v := by
  have hv := v.isLt
  have hsign : bNat (v.toNat.testBit 63) = v.toNat / 2 ^ 63 := by
    rw [Nat.testBit_eq_decide_div_mod_eq, bNat]
    split <;> simp_all <;> omega
  apply BitVec.eq_of_toNat_eq
  rw [f64Pack, hsign, bitsOf_eq, bitsOf_eq, BitVec.toNat_ofNat]
  omega

/-- The exponent field of a NaN is all ones and its fraction is not zero. -/
def nanPattern (v : Dword) : Bool :=
  decide (v &&& 0x7FF0000000000000#64 = 0x7FF0000000000000#64) && decide (v &&& 0x000FFFFFFFFFFFFF#64 ≠ 0)

/-- A signalling NaN has its fraction's first bit clear. -/
def signalling (v : Dword) : Bool := nanPattern v && !v.getLsbD 51

theorem nanPattern_iff (v : Dword) : nanPattern v = true ↔ bitsOf 62 52 v.toNat = 2047 ∧ bitsOf 51 0 v.toNat ≠ 0 := by
  have hexp : v &&& 0x7FF0000000000000#64 = 0x7FF0000000000000#64 ↔ bitsOf 62 52 v.toNat = 2047 := by
    rw [← BitVec.toNat_inj, BitVec.toNat_and, show (0x7FF0000000000000#64).toNat = maskOf 62 52 from rfl,
      and_maskOf _ (by decide), show maskOf 62 52 = 2047 <<< 52 from rfl, Nat.shiftLeft_eq, Nat.shiftLeft_eq]
    omega
  have hfrac : v &&& 0x000FFFFFFFFFFFFF#64 = 0 ↔ bitsOf 51 0 v.toNat = 0 := by
    rw [← BitVec.toNat_inj, BitVec.toNat_and, show (0x000FFFFFFFFFFFFF#64).toNat = maskOf 51 0 from rfl,
      and_maskOf _ (by decide)]
    rfl
  simp only [nanPattern, Bool.and_eq_true, decide_eq_true_eq, hexp, ne_eq, hfrac]

/-! ### What a pattern stands for -/

theorem f64Of_of_nan {v : Dword} (h : nanPattern v = true) : f64Of v = .nan (signalling v) := by
  obtain ⟨hexp, hfrac⟩ := (nanPattern_iff v).1 h
  have hbit : (bitsOf 51 0 v.toNat).testBit 51 = v.getLsbD 51 := by rw [testBit_bitsOf]; rfl
  simp only [f64Of, hexp, hfrac, if_true, if_false, hbit, signalling, h, Bool.true_and]

theorem f64Of_of_not_nan {v : Dword} (h : nanPattern v = false) : ∀ q, f64Of v ≠ .nan q := by
  intro q
  have hnot : ¬ (bitsOf 62 52 v.toNat = 2047 ∧ bitsOf 51 0 v.toNat ≠ 0) := by rw [← nanPattern_iff, h]; decide
  simp only [f64Of]
  split
  · next hexp => rw [if_pos (by_contra fun hfrac => hnot ⟨hexp, hfrac⟩)]; exact nofun
  · split <;> exact nofun

theorem f64IsNaN_eq (v : Dword) : f64IsNaN v = nanPattern v := by
  cases h : nanPattern v with
  | true => simp [f64IsNaN, f64Of_of_nan h]
  | false =>
    have hnot := f64Of_of_not_nan h
    unfold f64IsNaN
    cases hv : f64Of v with
    | nan q => exact absurd hv (hnot q)
    | inf s => rfl
    | fin s m e => rfl

/-- The pattern of an infinity. -/
theorem f64Of_inf {v : Dword} {s : Bool} (h : f64Of v = .inf s) : s = v.toNat.testBit 63 ∧ f64Inf s = v := by
  simp only [f64Of] at h
  split at h
  · next hexp =>
    split at h
    · next hfrac =>
      cases h
      have hparts := f64Pack_parts v
      rw [hexp, hfrac] at hparts
      exact ⟨rfl, hparts⟩
    · cases h
  · split at h <;> cases h

/-- A mantissa and an exponent as a pattern holds them: an implied bit above the least exponent, none at it. -/
def F64Normal (m : Nat) (e : Int) : Prop := m < 2 ^ 53 ∧ -1074 ≤ e ∧ (e = -1074 ∨ 2 ^ 52 ≤ m)

/-- The pattern of a finite value. -/
theorem f64Of_fin {v : Dword} {s : Bool} {m : Nat} {e : Int} (h : f64Of v = .fin s m e) :
    s = v.toNat.testBit 63 ∧ F64Normal m e ∧ f64Encode s m e = v := by
  have hparts := f64Pack_parts v
  have hfrac : bitsOf 51 0 v.toNat < 2 ^ 52 := Nat.mod_lt _ (by decide)
  simp only [f64Of] at h
  split at h
  · split at h <;> cases h
  · split at h
    · next hzero =>
      cases h
      refine ⟨rfl, ⟨by omega, le_rfl, .inl rfl⟩, ?_⟩
      rw [hzero] at hparts
      rwa [f64Encode, if_pos hfrac]
    · next hexp =>
      cases h
      have hmant : ¬ 2 ^ 52 + bitsOf 51 0 v.toNat < 2 ^ 52 := by omega
      have htop : ¬ 2 ^ 52 + bitsOf 51 0 v.toNat = 2 ^ 53 := by omega
      refine ⟨rfl, ⟨by omega, by omega, .inr (by omega)⟩, ?_⟩
      rw [f64Encode, if_neg hmant, if_neg htop]
      simpa using hparts

/-! ### NaN operands (R169) -/

/-- A value that is not a NaN raises no flag as an operand. -/
theorem signalling_of_not_nan {v : Dword} (h : nanPattern v = false) : signalling v = false := by simp [signalling, h]

/-- Whether a value is a signalling NaN. -/
def F64.signals : F64 → Bool
  | .nan q => q
  | _ => false

theorem signals_f64Of (v : Dword) : (f64Of v).signals = signalling v := by
  cases h : nanPattern v with
  | true => rw [f64Of_of_nan h, F64.signals]
  | false =>
    rw [signalling_of_not_nan h]
    cases hv : f64Of v with
    | nan q => exact absurd hv (f64Of_of_not_nan h q)
    | inf s => rfl
    | fin s m e => rfl

theorem f64SigNV_of_signals (x y : F64) : f64SigNV x y = if (x.signals || y.signals) = true then 4 else 0 := by
  cases x with
  | nan p =>
    cases p
    · rcases y with q | t | ⟨t, n, f⟩
      · cases q <;> rfl
      · rfl
      · rfl
    · rfl
  | inf s =>
    rcases y with q | t | ⟨t, n, f⟩
    · cases q <;> rfl
    · rfl
    · rfl
  | fin s m e =>
    rcases y with q | t | ⟨t, n, f⟩
    · cases q <;> rfl
    · rfl
    · rfl

/-- FLG.NV for a signalling NaN among two operands. -/
theorem f64SigNV_eq (a b : Dword) : f64SigNV (f64Of a) (f64Of b) = if (signalling a || signalling b) = true then 4 else 0 := by
  rw [f64SigNV_of_signals, signals_f64Of, signals_f64Of]

theorem f64SigNV_alone (a : Dword) : f64SigNV (f64Of a) (.inf false) = if signalling a = true then 4 else 0 := by
  rw [f64SigNV_of_signals, signals_f64Of, show (F64.inf false).signals = false from rfl, Bool.or_false]

section
variable {a b : Dword}

/-- The flags of two operands that are not NaNs. -/
theorem f64SigNV_of_not_nan (ha : nanPattern a = false) (hb : nanPattern b = false) : f64SigNV (f64Of a) (f64Of b) = 0 := by
  simp [f64SigNV_eq, signalling_of_not_nan ha, signalling_of_not_nan hb]

theorem nan_operand (h : (nanPattern a || nanPattern b) = true) : (∃ q, f64Of a = .nan q) ∨ ∃ q, f64Of b = .nan q :=
  ((Bool.or_eq_true ..).mp h).imp (fun ha => ⟨_, f64Of_of_nan ha⟩) fun hb => ⟨_, f64Of_of_nan hb⟩

theorem f64Add_nan (h : (nanPattern a || nanPattern b) = true) :
    f64Add a b = (qNaN, if (signalling a || signalling b) = true then 4 else 0) := by
  have hnan := nan_operand h
  rw [← f64SigNV_eq, f64Add]
  generalize f64Of a = x at *
  generalize f64Of b = y at *
  rcases hnan with ⟨q, rfl⟩ | ⟨q, rfl⟩
  · rfl
  · cases x <;> rfl

theorem f64Mul_nan (h : (nanPattern a || nanPattern b) = true) :
    f64Mul a b = (qNaN, if (signalling a || signalling b) = true then 4 else 0) := by
  have hnan := nan_operand h
  rw [← f64SigNV_eq, f64Mul]
  generalize f64Of a = x at *
  generalize f64Of b = y at *
  rcases hnan with ⟨q, rfl⟩ | ⟨q, rfl⟩
  · rfl
  · cases x <;> rfl

theorem f64Div_nan (h : (nanPattern a || nanPattern b) = true) :
    f64Div a b = (qNaN, if (signalling a || signalling b) = true then 4 else 0) := by
  have hnan := nan_operand h
  rw [← f64SigNV_eq, f64Div]
  generalize f64Of a = x at *
  generalize f64Of b = y at *
  rcases hnan with ⟨q, rfl⟩ | ⟨q, rfl⟩
  · rfl
  · cases x <;> rfl

theorem f64Sqrt_nan (h : nanPattern a = true) : f64Sqrt a = (qNaN, if signalling a = true then 4 else 0) := by
  rw [← f64SigNV_alone, f64Sqrt, f64Of_of_nan h]

theorem f64SetSign_nan (f : Dword → Dword) (h : nanPattern a = true) :
    f64SetSign f a = (qNaN, if signalling a = true then 4 else 0) := by
  rw [← f64SigNV_alone, f64SetSign, f64IsNaN_eq, h, if_pos rfl]

theorem f64SetSign_of_not_nan (f : Dword → Dword) (h : nanPattern a = false) : f64SetSign f a = (f a, 0) := by
  rw [f64SetSign, f64IsNaN_eq, h, if_neg Bool.false_ne_true]

theorem f64ToFix_nan (n w : Nat) (h : nanPattern a = true) : f64ToFix a n w = (0, 4, false) := by
  rw [f64ToFix, f64Of_of_nan h]
  rfl

theorem f64ToInt_nan (h : nanPattern a = true) : f64ToInt a = (0, 4) := by
  rw [f64ToInt, f64ToFix_nan 0 64 h]
  rfl

theorem f64ToQ_nan (n : Nat) (h : nanPattern a = true) : f64ToQ a n = (0, 4) := by
  rw [f64ToQ, f64ToFix_nan n 32 h]
  rfl

/-! ### FMIN and FMAX (R200) -/

theorem f64Pick_nans (wantMax : Bool) (ha : nanPattern a = true) (hb : nanPattern b = true) :
    f64Pick wantMax a b = (qNaN, if (signalling a || signalling b) = true then 4 else 0) := by
  simp only [f64Pick, f64IsNaN_eq, ha, hb, f64SigNV_eq]

theorem f64Pick_nan_left (wantMax : Bool) (ha : nanPattern a = true) (hb : nanPattern b = false) :
    f64Pick wantMax a b = (b, if (signalling a || signalling b) = true then 4 else 0) := by
  simp only [f64Pick, f64IsNaN_eq, ha, hb, f64SigNV_eq]

theorem f64Pick_nan_right (wantMax : Bool) (ha : nanPattern a = false) (hb : nanPattern b = true) :
    f64Pick wantMax a b = (a, if (signalling a || signalling b) = true then 4 else 0) := by
  simp only [f64Pick, f64IsNaN_eq, ha, hb, f64SigNV_eq]

theorem f64Pick_of_not_nan (wantMax : Bool) (ha : nanPattern a = false) (hb : nanPattern b = false) :
    f64Pick wantMax a b = (if f64Less a b = wantMax then b else a, 0) := by
  simp only [f64Pick, f64IsNaN_eq, ha, hb, f64SigNV_of_not_nan ha hb]

/-! ### The order of the values that are not NaNs -/

/-- Two mantissas and exponents of the form that patterns have, the first exponent the lower, of one value are the same. -/
theorem F64Normal.eq_of_value_eq {m n : Nat} {e f : Int} (hm : F64Normal m e) (hn : F64Normal n f) (hle : e ≤ f)
    (h : m = n * 2 ^ (f - e).toNat) : m = n ∧ e = f := by
  obtain ⟨hm53, he, -⟩ := hm
  obtain ⟨-, -, hn52⟩ := hn
  rcases hle.eq_or_lt with rfl | hlt
  · exact ⟨by simpa using h, rfl⟩
  · have hbig : 2 ^ 52 ≤ n := hn52.resolve_left (by omega)
    have hpow : 2 ^ 1 ≤ 2 ^ (f - e).toNat := Nat.pow_le_pow_right (by decide) (by omega)
    have : 2 ^ 52 * 2 ^ 1 ≤ m := h ▸ Nat.mul_le_mul hbig hpow
    omega

/-- Mantissas of one magnitude at the lower of their exponents are the same. -/
theorem F64Normal.eq_of_magnitude_eq {m n : Nat} {e f : Int} (hm : F64Normal m e) (hn : F64Normal n f)
    (h : m * 2 ^ (e - min e f).toNat = n * 2 ^ (f - min e f).toNat) : m = n ∧ e = f := by
  rcases le_total e f with hle | hle
  · rw [min_eq_left hle, sub_self] at h
    exact hm.eq_of_value_eq hn hle (by simpa using h)
  · rw [min_eq_right hle, sub_self] at h
    obtain ⟨hmant, hexp⟩ := hn.eq_of_value_eq hm hle (by simpa using h.symm)
    exact ⟨hmant.symm, hexp.symm⟩

theorem f64Less_self (a : Dword) : f64Less a a = false := by
  unfold f64Less
  cases f64Of a <;> simp

/-- Of two values that are not NaNs and differ, one is the less. -/
theorem eq_of_not_f64Less (ha : nanPattern a = false) (hb : nanPattern b = false) (hab : f64Less a b = false)
    (hba : f64Less b a = false) : a = b := by
  cases hx : f64Of a with
  | nan q => exact absurd hx (f64Of_of_not_nan ha q)
  | inf s =>
    cases hy : f64Of b with
    | nan q => exact absurd hy (f64Of_of_not_nan hb q)
    | inf t =>
      have hsign : s = t := by
        simp only [f64Less, hx, hy] at hab hba
        revert hab hba
        cases s <;> cases t <;> simp
      rw [← (f64Of_inf hx).2, ← (f64Of_inf hy).2, hsign]
    | fin t n f => simp_all [f64Less]
  | fin s m e =>
    cases hy : f64Of b with
    | nan q => exact absurd hy (f64Of_of_not_nan hb q)
    | inf t => simp_all [f64Less]
    | fin t n f =>
      obtain ⟨-, hm, hxm⟩ := f64Of_fin hx
      obtain ⟨-, hn, hyn⟩ := f64Of_fin hy
      simp only [f64Less, hx, hy, min_comm f e, Bool.or_eq_false_iff, Bool.and_eq_false_iff, decide_eq_false_iff_not] at hab hba
      have hvalue : f64At s m e (min e f) = f64At t n f (min e f) := by omega
      have hsign : s = t := by
        have hst := hab.2
        have hts := hba.2
        simp only [hvalue] at hst hts
        revert hst hts
        cases s <;> cases t <;> simp
      have hmagnitude : m * 2 ^ (e - min e f).toNat = n * 2 ^ (f - min e f).toNat := by
        rw [hsign] at hvalue
        unfold f64At at hvalue
        zify
        cases t <;> simpa using hvalue
      obtain ⟨hmant, hexp⟩ := hm.eq_of_magnitude_eq hn hmagnitude
      rw [← hxm, ← hyn, hsign, hmant, hexp]

/-- Equal are the same pattern and the two zeros (R200). -/
theorem f64Same_eq (ha : nanPattern a = false) (hb : nanPattern b = false) :
    f64Same a b = (decide (a = b) || (decide (a.toNat % 2 ^ 63 = 0) && decide (b.toNat % 2 ^ 63 = 0))) := by
  have horder : (!(f64Less a b || f64Less b a)) = decide (a = b) := by
    by_cases h : a = b
    · simp [h, f64Less_self]
    · cases hab : f64Less a b
      · cases hba : f64Less b a
        · exact absurd (eq_of_not_f64Less ha hb hab hba) h
        · simp [h]
      · simp [h]
  simp [f64Same, horder]

theorem f64Eq_nan (h : (nanPattern a || nanPattern b) = true) :
    f64Eq a b = (0, if (signalling a || signalling b) = true then 4 else 0) := by
  rw [f64Eq, f64IsNaN_eq, f64IsNaN_eq, if_pos h, f64SigNV_eq]

theorem f64Lt_nan (orEq : Bool) (h : (nanPattern a || nanPattern b) = true) : f64Lt orEq a b = (0, 4) := by
  rw [f64Lt, f64IsNaN_eq, f64IsNaN_eq, if_pos h]
  rfl

theorem f64Eq_of_not_nan (ha : nanPattern a = false) (hb : nanPattern b = false) :
    f64Eq a b = (boolD (f64Same a b), 0) := by
  rw [f64Eq, f64IsNaN_eq, f64IsNaN_eq, ha, hb, Bool.or_false, if_neg Bool.false_ne_true]
  cases f64Same a b <;> rfl

theorem f64Lt_of_not_nan (orEq : Bool) (ha : nanPattern a = false) (hb : nanPattern b = false) :
    f64Lt orEq a b = (boolD (if f64Same a b then orEq else f64Less a b), 0) := by
  rw [f64Lt, f64IsNaN_eq, f64IsNaN_eq, ha, hb, Bool.or_false, if_neg Bool.false_ne_true]
  cases (if f64Same a b then orEq else f64Less a b) <;> rfl

/-- FLT of two values that are not NaNs: the zeros are not less than each other (R200). -/
theorem f64Less_and_not_same (ha : nanPattern a = false) (hb : nanPattern b = false) :
    (if f64Same a b then false else f64Less a b) =
      (f64Less a b && !(decide (a.toNat % 2 ^ 63 = 0) && decide (b.toNat % 2 ^ 63 = 0))) := by
  rw [f64Same_eq ha hb]
  by_cases h : a = b
  · simp [h, f64Less_self]
  · cases decide (a.toNat % 2 ^ 63 = 0) && decide (b.toNat % 2 ^ 63 = 0) <;> simp [h]

/-- FLE of two values that are not NaNs. -/
theorem f64Less_or_same (ha : nanPattern a = false) (hb : nanPattern b = false) :
    (if f64Same a b then true else f64Less a b) = (f64Less a b || decide (a = b) ||
      (decide (a.toNat % 2 ^ 63 = 0) && decide (b.toNat % 2 ^ 63 = 0))) := by
  rw [f64Same_eq ha hb]
  cases f64Less a b <;> cases decide (a = b) <;> simp

/-! ### Square roots that need no rounding (R169, R199) -/

theorem zero_of_magnitude {v : Dword} (h : v.toNat % 2 ^ 63 = 0) : ∃ s, v = f64Zero s := by
  have hv := v.isLt
  by_cases hsign : v.toNat = 0
  · exact ⟨false, BitVec.eq_of_toNat_eq hsign⟩
  · exact ⟨true, BitVec.eq_of_toNat_eq (show v.toNat = 2 ^ 63 by omega)⟩

theorem f64Sqrt_zero (h : a.toNat % 2 ^ 63 = 0) : f64Sqrt a = (a, 0) := by
  obtain ⟨s, rfl⟩ := zero_of_magnitude h
  cases s <;> rfl

/-- The square root of a value below the zeros is the quiet NaN with FLG.NV. -/
theorem f64Sqrt_negative (ha : nanPattern a = false) (h : 2 ^ 63 < a.toNat) : f64Sqrt a = (qNaN, 4) := by
  have hlt := a.isLt
  have hneg : a.toNat.testBit 63 = true := by
    rw [Nat.testBit_eq_decide_div_mod_eq, decide_eq_true_eq]
    omega
  cases hv : f64Of a with
  | nan q => exact absurd hv (f64Of_of_not_nan ha q)
  | inf s =>
    obtain ⟨hs, -⟩ := f64Of_inf hv
    rw [f64Sqrt, hv, hs, hneg]
    rfl
  | fin s m e =>
    obtain ⟨hs, -, hpack⟩ := f64Of_fin hv
    have hm : m ≠ 0 := by
      rintro rfl
      rw [hs, hneg] at hpack
      have : a.toNat = 2 ^ 63 := hpack ▸ rfl
      omega
    rw [f64Sqrt, hv, hs, hneg]
    exact if_neg hm

end

/-! ### The statement -/

/-- Settles O6: each instruction completes with its operation's result, and the operations' results on NaNs, zeros and ordered
values are those of the lemmas above. -/
theorem binary64Results : Obligations.Binary64Results := by
  unfold Obligations.Binary64Results
  intro x fd fa fb rd ra n s hruns k a b toD toG isNan sig quiet nv nv2 zeros bit
  have hD {i : Instr} {f : RegCtx → Dword × Nat} {r : Dword × Nat} (hexec : exec i s = issueD x s fd f) (hr : f k = r) :
      exec i s = toD r := hr ▸ hexec.trans (issueD_runs hruns fd f)
  have hG {i : Instr} {f : RegCtx → Dword × Nat} {r : Dword × Nat} (hexec : exec i s = issueG x s rd f) (hr : f k = r) :
      exec i s = toG r := hr ▸ hexec.trans (issueG_runs hruns rd f)
  refine ⟨hD (exec_fadd ..) rfl, hD (exec_fsub ..) rfl, hD (exec_fmul ..) rfl, hD (exec_fdiv ..) rfl, hD (exec_fsqrt ..) rfl,
    ?nanArith, f64Sqrt_nan, f64Sqrt_zero, f64Sqrt_negative, ?nans, ?nanLeft, ?nanRight, ?ordered, ?signNan, ?sign, ?compareNan,
    ?compare, hD (exec_fcvtdi ..) rfl, hG (exec_fcvtid ..) rfl, f64ToInt_nan, ?fixed, hG (exec_fcvtqd ..) rfl,
    f64ToQ_nan n.val, hD (exec_fmvdg ..) rfl, hG (exec_fmvgd ..) rfl⟩
  case nanArith => exact fun h => ⟨f64Add_nan h, f64Mul_nan h, f64Div_nan h⟩
  case nans => exact fun ha hb => ⟨hD (exec_fmin ..) (f64Pick_nans false ha hb), hD (exec_fmax ..) (f64Pick_nans true ha hb)⟩
  case nanLeft =>
    exact fun ha hb => ⟨hD (exec_fmin ..) (f64Pick_nan_left false ha hb), hD (exec_fmax ..) (f64Pick_nan_left true ha hb)⟩
  case nanRight =>
    exact fun ha hb => ⟨hD (exec_fmin ..) (f64Pick_nan_right false ha hb), hD (exec_fmax ..) (f64Pick_nan_right true ha hb)⟩
  case ordered =>
    intro ha hb
    have hmin : f64Pick false a b = (if f64Less a b = true then a else b, 0) := by
      rw [f64Pick_of_not_nan false ha hb]
      cases f64Less a b <;> rfl
    exact ⟨hD (exec_fmin ..) hmin, hD (exec_fmax ..) (f64Pick_of_not_nan true ha hb)⟩
  case signNan => exact fun h => ⟨hD (exec_fneg ..) (f64SetSign_nan _ h), hD (exec_fabs ..) (f64SetSign_nan _ h)⟩
  case sign => exact fun h => ⟨hD (exec_fneg ..) (f64SetSign_of_not_nan _ h), hD (exec_fabs ..) (f64SetSign_of_not_nan _ h)⟩
  case compareNan =>
    exact fun h => ⟨hG (exec_feq ..) (f64Eq_nan h), hG (exec_flt ..) (f64Lt_nan false h), hG (exec_fle ..) (f64Lt_nan true h)⟩
  case compare =>
    intro ha hb
    have heq := f64Eq_of_not_nan ha hb
    have hlt := f64Lt_of_not_nan false ha hb
    have hle := f64Lt_of_not_nan true ha hb
    rw [f64Same_eq ha hb] at heq
    rw [f64Less_and_not_same ha hb] at hlt
    rw [f64Less_or_same ha hb] at hle
    exact ⟨hG (exec_feq ..) heq, hG (exec_flt ..) hlt, hG (exec_fle ..) hle⟩
  case fixed =>
    have hword : q32 (getG k ra) = ((getG k ra).setWidth 32).toInt := by rw [q32, sInt, BitVec.ofNat_toNat]
    exact hD (exec_fcvtdq ..) (by rw [hword])

end Sys2Proof.Machine
end

section
/-!
PROOFS. The integer instructions (08 R195 to R197): what each writes to its register, the divisions' FLG.DZ, and what they
leave.
-/
namespace Sys2Proof.Machine

/-! ### One general register written -/

@[simp] theorem putG_flg (k : RegCtx) (r : Fin 32) (v : Dword) : (putG k r v).flg = k.flg := by unfold putG; split <;> rfl

/-- A result without a flag is one general register written. -/
theorem issueG_noFlag {x : Issue} {s : State} {f : RegCtx → Dword × Nat} {v : Dword} (h : Runs x s) (rd : Fin 32)
    (hf : f (ctxOf s x.core) = (v, 0)) : issueG x s rd f = .next (goOn s x.core (putG (ctxOf s x.core) rd v)) := by
  have hflg : { putG (ctxOf s x.core) rd v with flg := (ctxOf s x.core).flg ||| BitVec.ofNat 32 0 } =
      putG (ctxOf s x.core) rd v := by
    rw [BitVec.or_zero, ← putG_flg (ctxOf s x.core) rd v]
  rw [issueG_runs h, hf, hflg]

/-- An instruction that sets no flag, by the value that it writes. -/
theorem exec_value {x : Issue} {s : State} {i : Instr} {rd : Fin 32} {f : RegCtx → Dword} {v : Dword} (h : Runs x s)
    (hexec : exec i s = issueG x s rd fun k => (f k, 0)) (hv : f (ctxOf s x.core) = v) :
    exec i s = .next (goOn s x.core (putG (ctxOf s x.core) rd v)) :=
  hexec.trans (issueG_noFlag h rd (congrArg (·, 0) hv))

/-- What a core that goes on with one general register written leaves. -/
theorem frame_goOn_putG {s : State} {c : Fin 6} (hfetch : fetchExc s c ((ctxOf s c).pc + 4) = none) (rd : Fin 32) (v : Dword) :
    OnlyCore c s (goOn s c (putG (ctxOf s c) rd v)) ∧ KeepsRegs c [rd] s (goOn s c (putG (ctxOf s c) rd v)) ∧
      SameMemory s (goOn s c (putG (ctxOf s c) rd v)) := by
  rw [goOn_of_fetchable hfetch]
  refine ⟨onlyCore_setCtx _ _ _, ⟨fun r hr => ?_, ?_, ?_, ?_⟩, sameMemory_setCtx _ _ _⟩ <;>
    simp only [ctxOf_setCtx, coreOf_setCtx]
  · exact getG_putG_ne _ v fun h => hr (List.mem_singleton.2 h)
  · exact putG_d ..
  · exact putG_flg ..
  · rfl

section
variable (x : Issue) (rd ra rb : Fin 32) (w : Fin 3) (imm : BitVec 16) (n : Fin 64) (s : State)

/-! #### Two source registers (R195) -/

theorem exec_add_issueG : exec (.add x rd ra rb) s = issueG x s rd fun k => (getG k ra + getG k rb, 0) := rfl
theorem exec_sub : exec (.sub x rd ra rb) s = issueG x s rd fun k => (getG k ra - getG k rb, 0) := rfl
theorem exec_and : exec (.and x rd ra rb) s = issueG x s rd fun k => (getG k ra &&& getG k rb, 0) := rfl
theorem exec_or : exec (.or x rd ra rb) s = issueG x s rd fun k => (getG k ra ||| getG k rb, 0) := rfl
theorem exec_xor : exec (.xor x rd ra rb) s = issueG x s rd fun k => (getG k ra ^^^ getG k rb, 0) := rfl
theorem exec_shl : exec (.shl x rd ra rb) s = issueG x s rd fun k => (getG k ra <<< shAmt (getG k rb), 0) := rfl
theorem exec_shr : exec (.shr x rd ra rb) s = issueG x s rd fun k => (getG k ra >>> shAmt (getG k rb), 0) := rfl
theorem exec_sar : exec (.sar x rd ra rb) s = issueG x s rd fun k => ((getG k ra).sshiftRight (shAmt (getG k rb)), 0) := rfl
theorem exec_slt : exec (.slt x rd ra rb) s = issueG x s rd fun k => (boolD ((getG k ra).slt (getG k rb)), 0) := rfl
theorem exec_sltu : exec (.sltu x rd ra rb) s = issueG x s rd fun k => (boolD ((getG k ra).ult (getG k rb)), 0) := rfl
theorem exec_mul : exec (.mul x rd ra rb) s = issueG x s rd fun k => (getG k ra * getG k rb, 0) := rfl
theorem exec_mulh : exec (.mulh x rd ra rb) s = issueG x s rd fun k => (mulHigh (getG k ra) (getG k rb), 0) := rfl
theorem exec_mulhu : exec (.mulhu x rd ra rb) s = issueG x s rd fun k => (mulHighU (getG k ra) (getG k rb), 0) := rfl
theorem exec_min : exec (.min x rd ra rb) s = issueG x s rd fun k => (minS (getG k ra) (getG k rb), 0) := rfl
theorem exec_max : exec (.max x rd ra rb) s = issueG x s rd fun k => (maxS (getG k ra) (getG k rb), 0) := rfl
theorem exec_minu : exec (.minu x rd ra rb) s = issueG x s rd fun k => (minU (getG k ra) (getG k rb), 0) := rfl
theorem exec_maxu : exec (.maxu x rd ra rb) s = issueG x s rd fun k => (maxU (getG k ra) (getG k rb), 0) := rfl

/-! #### One source register (R195, R197) -/

theorem exec_sext : exec (.sext x rd ra w) s = issueG x s rd fun k => (sext64 (extWidth w) (getG k ra).toNat, 0) := rfl
theorem exec_zext : exec (.zext x rd ra w) s = issueG x s rd fun k => (zext64 (extWidth w) (getG k ra).toNat, 0) := rfl
theorem exec_addi : exec (.addi x rd ra imm) s = issueG x s rd fun k => (getG k ra + imm.signExtend 64, 0) := rfl
theorem exec_slti : exec (.slti x rd ra imm) s = issueG x s rd fun k => (boolD ((getG k ra).slt (imm.signExtend 64)), 0) := rfl
theorem exec_sltiu : exec (.sltiu x rd ra imm) s =
    issueG x s rd fun k => (boolD ((getG k ra).ult (imm.signExtend 64)), 0) := rfl
theorem exec_andi : exec (.andi x rd ra imm) s = issueG x s rd fun k => (getG k ra &&& imm.setWidth 64, 0) := rfl
theorem exec_ori : exec (.ori x rd ra imm) s = issueG x s rd fun k => (getG k ra ||| imm.setWidth 64, 0) := rfl
theorem exec_xori : exec (.xori x rd ra imm) s = issueG x s rd fun k => (getG k ra ^^^ imm.setWidth 64, 0) := rfl
theorem exec_shli : exec (.shli x rd ra n) s = issueG x s rd fun k => (getG k ra <<< n.val, 0) := rfl
theorem exec_shri : exec (.shri x rd ra n) s = issueG x s rd fun k => (getG k ra >>> n.val, 0) := rfl
theorem exec_sari : exec (.sari x rd ra n) s = issueG x s rd fun k => ((getG k ra).sshiftRight n.val, 0) := rfl
theorem exec_lui (big : BitVec 21) : exec (.lui x rd big) s = issueG x s rd fun _ => (big.signExtend 64 <<< 11, 0) := rfl

end

/-- Settles O24: each of the instructions is one write of a general register. -/
theorem registerFrame : Obligations.RegisterFrame := by
  unfold Obligations.RegisterFrame
  intro x rd ra rb imm big n w s u hruns hfetch
  have hframe {i : Instr} {f : RegCtx → Dword} (hexec : exec i s = issueG x s rd fun k => (f k, 0))
      (hu : exec i s = .next u) :
      OnlyCore x.core s u ∧ KeepsRegs x.core [rd] s u ∧ SameMemory s u ∧ getG (ctxOf u x.core) 0 = 0 := by
    rw [exec_value hruns hexec rfl] at hu
    cases hu
    obtain ⟨hcore, hregs, hmem⟩ := frame_goOn_putG hfetch rd (f (ctxOf s x.core))
    exact ⟨hcore, hregs, hmem, rfl⟩
  simp only [List.forall_mem_cons]
  exact ⟨hframe (exec_add_issueG ..), hframe (exec_sub ..), hframe (exec_and ..), hframe (exec_or ..), hframe (exec_xor ..),
    hframe (exec_shl ..), hframe (exec_shr ..), hframe (exec_sar ..), hframe (exec_slt ..), hframe (exec_sltu ..),
    hframe (exec_mul ..), hframe (exec_mulh ..), hframe (exec_mulhu ..), hframe (exec_min ..), hframe (exec_max ..),
    hframe (exec_minu ..), hframe (exec_maxu ..), hframe (exec_sext ..), hframe (exec_zext ..), hframe (exec_addi ..),
    hframe (exec_slti ..), hframe (exec_sltiu ..), hframe (exec_andi ..), hframe (exec_ori ..), hframe (exec_xori ..),
    hframe (exec_shli ..), hframe (exec_shri ..), hframe (exec_sari ..), hframe (exec_lui ..), List.forall_mem_nil _⟩

/-! ### The divisions (R196) -/

/-- Settles O3: each division branches on its divisor as its result and FLG.DZ do. -/
theorem integerDivision : Obligations.IntegerDivision := by
  unfold Obligations.IntegerDivision
  intro x rd ra rb s hruns k a b res
  have hdiv {i : Instr} {f : RegCtx → Dword × Nat} {v z : Dword} (hexec : exec i s = issueG x s rd f)
      (hf : f k = if b = 0 then (z, flgDZ) else (v, 0)) : exec i s = res v z := by
    by_cases hb : b = 0
    · rw [if_pos hb] at hf
      simp only [hexec, issueG_runs hruns, res, if_pos hb]
      rw [hf]
    · rw [if_neg hb] at hf
      simp only [hexec, issueG_noFlag hruns rd hf, res, if_neg hb]
      rfl
  exact ⟨hdiv (exec_div ..) rfl, hdiv (exec_divu ..) rfl, hdiv (exec_rem ..) rfl, hdiv (exec_remu ..) rfl⟩

/-! ### The results (R195, R197) -/

theorem boolD_slt (a b : Dword) : boolD (a.slt b) = if a.toInt < b.toInt then 1 else 0 := by
  simp [boolD, BitVec.slt_iff_toInt_lt]

theorem boolD_ult (a b : Dword) : boolD (a.ult b) = if a.toNat < b.toNat then 1 else 0 := by
  simp [boolD, BitVec.ult]

/-- A choice by key whose two answers agree on equal operands does not depend on how equal keys compare. -/
theorem ite_le_eq_ite_lt {α : Type} [PartialOrder α] [DecidableLE α] [DecidableLT α] {key : Dword → α}
    (hkey : Function.Injective key) {a b v w : Dword} (hsame : a = b → v = w) :
    (if key a ≤ key b then v else w) = if key a < key b then v else w := by
  by_cases h : a = b
  · rw [hsame h, ite_self, ite_self]
  · simp only [le_iff_lt_or_eq, hkey.ne h, or_false]

theorem toInt_injective : Function.Injective (BitVec.toInt : Dword → Int) := fun _ _ => BitVec.eq_of_toInt_eq

theorem minS_eq (a b : Dword) : minS a b = if a.toInt < b.toInt then a else b := ite_le_eq_ite_lt toInt_injective id
theorem maxS_eq (a b : Dword) : maxS a b = if a.toInt < b.toInt then b else a := ite_le_eq_ite_lt toInt_injective Eq.symm
theorem minU_eq (a b : Dword) : minU a b = if a.toNat < b.toNat then a else b := ite_le_eq_ite_lt BitVec.toNat_injective id
theorem maxU_eq (a b : Dword) : maxU a b = if a.toNat < b.toNat then b else a := ite_le_eq_ite_lt BitVec.toNat_injective Eq.symm

theorem sext64_toNat (n : Nat) (a : Dword) : sext64 n a.toNat = (a.setWidth n).signExtend 64 := by
  rw [sext64, BitVec.ofNat_toNat]

theorem zext64_toNat (n : Nat) (a : Dword) : zext64 n a.toNat = (a.setWidth n).setWidth 64 := by
  rw [zext64, ← BitVec.toNat_setWidth, BitVec.ofNat_toNat]

/-- A sign-extended immediate shifted left is its value times a power of two. -/
theorem signExtend_shiftLeft {n : Nat} (v : BitVec n) (i : Nat) :
    v.signExtend 64 <<< i = BitVec.ofInt 64 (v.toInt * 2 ^ i) := by
  have hpow : BitVec.ofInt 64 (2 ^ i) = BitVec.twoPow 64 i := by
    apply BitVec.eq_of_toNat_eq
    exact (congrArg BitVec.toNat (BitVec.ofInt_natCast 64 (2 ^ i))).trans (BitVec.toNat_twoPow 64 i).symm
  rw [BitVec.shiftLeft_eq_mul_twoPow, BitVec.ofInt_mul, hpow, BitVec.signExtend]

/-- Settles O2: the value of each function, where the model spells it otherwise than R195. -/
theorem integerResults : Obligations.IntegerResults := by
  unfold Obligations.IntegerResults
  intro x rd ra rb w s hruns k a b n res
  have hmul : a * b = BitVec.ofInt 64 (a.toInt * b.toInt) := by rw [BitVec.ofInt_mul, BitVec.ofInt_toInt, BitVec.ofInt_toInt]
  exact ⟨exec_value hruns (exec_add_issueG ..) rfl, exec_value hruns (exec_sub ..) rfl, exec_value hruns (exec_and ..) rfl,
    exec_value hruns (exec_or ..) rfl, exec_value hruns (exec_xor ..) rfl, exec_value hruns (exec_shl ..) rfl,
    exec_value hruns (exec_shr ..) rfl, exec_value hruns (exec_sar ..) rfl, exec_value hruns (exec_slt ..) (boolD_slt a b),
    exec_value hruns (exec_sltu ..) (boolD_ult a b), exec_value hruns (exec_mul ..) hmul, exec_value hruns (exec_mulh ..) rfl,
    exec_value hruns (exec_mulhu ..) rfl, exec_value hruns (exec_min ..) (minS_eq a b),
    exec_value hruns (exec_max ..) (maxS_eq a b), exec_value hruns (exec_minu ..) (minU_eq a b),
    exec_value hruns (exec_maxu ..) (maxU_eq a b), exec_value hruns (exec_sext ..) (sext64_toNat _ a),
    exec_value hruns (exec_zext ..) (zext64_toNat _ a)⟩

/-- Settles O4: the value of each instruction, where the model spells it otherwise than R197. -/
theorem immediateResults : Obligations.ImmediateResults := by
  unfold Obligations.ImmediateResults
  intro x rd ra imm big n s hruns k a i z res
  exact ⟨exec_value hruns (exec_addi ..) rfl, exec_value hruns (exec_slti ..) (boolD_slt a i),
    exec_value hruns (exec_sltiu ..) (boolD_ult a i), exec_value hruns (exec_andi ..) rfl, exec_value hruns (exec_ori ..) rfl,
    exec_value hruns (exec_xori ..) rfl, exec_value hruns (exec_shli ..) rfl, exec_value hruns (exec_shri ..) rfl,
    exec_value hruns (exec_sari ..) rfl, exec_value hruns (exec_lui ..) (signExtend_shiftLeft big 11)⟩

end Sys2Proof.Machine
end

section
/-!
PROOFS. The fixed-point instructions (07 R168, 08 R198): saturation, rounding half to even, and the quotient.
-/
namespace Sys2Proof.Machine

/-! ### Saturation (R63, R168) -/

/-- A value held in 32-bit two's complement. -/
def clamp32 (v : Int) : Int := clampInt (-2 ^ 31) (2 ^ 31 - 1) v

theorem sat32_eq (v : Int) : sat32 v = (clamp32 v, decide (clamp32 v ≠ v)) := by
  unfold sat32 clamp32 clampInt max32 min32
  split
  · rw [show max (-2 ^ 31) (min (2 ^ 31 - 1) v) = 2147483647 by omega, decide_eq_true (by omega)]
  · split
    · rw [show max (-2 ^ 31) (min (2 ^ 31 - 1) v) = -2147483648 by omega, decide_eq_true (by omega)]
    · rw [show max (-2 ^ 31) (min (2 ^ 31 - 1) v) = v by omega, decide_eq_false (by omega)]

/-- What a saturated value writes and the flag that it sets. -/
theorem qRes_sat32 (v : Int) : qRes (sat32 v) = (BitVec.ofInt 64 (clamp32 v), if clamp32 v = v then 0 else flgSAT) := by
  rw [sat32_eq]
  by_cases h : clamp32 v = v <;> simp [qRes, h]

theorem clamp32_of_mem {v : Int} (hlo : -2 ^ 31 ≤ v) (hhi : v ≤ 2 ^ 31 - 1) : clamp32 v = v := by
  unfold clamp32 clampInt
  omega

/-- A value that fits in 32 bits saturates to itself. -/
theorem sat32_of_mem {v : Int} (hlo : -2 ^ 31 ≤ v) (hhi : v ≤ 2 ^ 31 - 1) : sat32 v = (v, false) := by
  rw [sat32_eq, clamp32_of_mem hlo hhi]
  simp

theorem q32_eq (a : Dword) : q32 a = (a.setWidth 32).toInt := by rw [q32, sInt, BitVec.ofNat_toNat]

theorem q32_mem (a : Dword) : -2 ^ 31 ≤ q32 a ∧ q32 a ≤ 2 ^ 31 - 1 := by
  rw [q32_eq]
  have hlo := BitVec.le_toInt (a.setWidth 32)
  have hhi := BitVec.toInt_lt (x := a.setWidth 32)
  omega

/-! ### Rounding half to even (R63) -/

/-- A quotient of at most an integer is rounded to at most it. -/
theorem divEven_le {n m : Int} {d : Nat} (hd : 0 < d) (h : n ≤ m * d) : divEven n d ≤ m := by
  have hd' : (0 : Int) < d := by exact_mod_cast hd
  have hq : n / (d : Int) ≤ m := Int.ediv_le_of_le_mul hd' h
  have hup (hrest : n % (d : Int) ≠ 0) : n / (d : Int) + 1 ≤ m := by
    have hstrict : n / (d : Int) ≠ m := by
      rintro rfl
      have hparts := Int.mul_ediv_add_emod n d
      have hnonneg := Int.emod_nonneg n hd'.ne'
      rw [mul_comm] at h
      omega
    omega
  simp only [divEven]
  split
  · exact hq
  · split
    · split
      · exact hq
      · exact hup (by omega)
    · exact hup (by omega)

/-- A quotient of at least an integer is rounded to at least it. -/
theorem le_divEven {n m : Int} {d : Nat} (hd : 0 < d) (h : m * d ≤ n) : m ≤ divEven n d := by
  have hq : m ≤ n / (d : Int) := Int.le_ediv_of_mul_le (by exact_mod_cast hd) h
  simp only [divEven]
  split_ifs <;> omega

theorem divEven_one (v : Int) : divEven v 1 = v :=
  le_antisymm (divEven_le Nat.one_pos (by simp)) (le_divEven Nat.one_pos (by simp))

theorem roundEven_natCast (v : Int) (n : Nat) : roundEven v n = divEven v (2 ^ n) := by
  rw [roundEven, if_neg (by omega), Int.toNat_natCast]

/-- A shift to the left is exact. -/
theorem roundEven_neg (v : Int) (n : Nat) : roundEven v (-(n : Int)) = v * 2 ^ n := by
  rcases Nat.eq_zero_or_pos n with rfl | hn
  · simpa [divEven_one] using roundEven_natCast v 0
  · rw [roundEven, if_pos (by omega), Int.natAbs_neg, Int.natAbs_natCast]

/-- Rounding a 32-bit value after a shift to the right gives a 32-bit value. -/
theorem roundEven_mem {v : Int} (n : Nat) (hlo : -2 ^ 31 ≤ v) (hhi : v ≤ 2 ^ 31 - 1) :
    -2 ^ 31 ≤ roundEven v n ∧ roundEven v n ≤ 2 ^ 31 - 1 := by
  have hpos : 0 < 2 ^ n := by positivity
  have hone : (1 : Int) ≤ (2 ^ n : Nat) := by exact_mod_cast hpos
  rw [roundEven_natCast]
  exact ⟨le_divEven hpos (by nlinarith), divEven_le hpos (by nlinarith)⟩

/-! ### The quotient (R63) -/

theorem div32_of_ne {a b : Int} (n : Nat) (hb : b ≠ 0) :
    div32 a b n = sat32 (divEven ((if b < 0 then -a else a) * 2 ^ n) b.natAbs) := by
  have hn : ¬ (n : Int) < 0 := by omega
  simp only [div32, if_neg hb, if_neg hn, Int.toNat_natCast, Nat.mul_one]

/-- A quotient by zero is 0 or beyond the range on the dividend's side. -/
theorem div32_zero (a : Int) (n : Nat) :
    div32 a 0 n = sat32 (if a = 0 then 0 else if 0 < a then 2 ^ 31 else -2 ^ 31 - 1) := by
  rw [div32, if_pos rfl]
  split_ifs <;> rfl

/-! ### The statement -/

/-- Settles O5: each instruction writes a saturated value, of its exact result or of one that fits anyway. -/
theorem fixedPointResults : Obligations.FixedPointResults := by
  unfold Obligations.FixedPointResults
  intro x rd ra rb sh s hruns k a b res
  have ha : q32 (getG k ra) = a := q32_eq _
  have hb : q32 (getG k rb) = b := q32_eq _
  obtain ⟨haLo, haHi⟩ : -2 ^ 31 ≤ a ∧ a ≤ 2 ^ 31 - 1 := ha ▸ q32_mem _
  obtain ⟨hbLo, hbHi⟩ : -2 ^ 31 ≤ b ∧ b ≤ 2 ^ 31 - 1 := hb ▸ q32_mem _
  have hflags {i : Instr} {f : RegCtx → Dword × Nat} {v : Int} {more : Nat} (hexec : exec i s = issueG x s rd f)
      (hf : f k = ((qRes (sat32 v)).1, (qRes (sat32 v)).2 ||| more)) : exec i s = res v more := by
    rw [hexec, issueG_runs hruns, hf, qRes_sat32]
    rfl
  have hres {i : Instr} {f : RegCtx → Dword × Nat} {v : Int} (hexec : exec i s = issueG x s rd f)
      (hf : f k = qRes (sat32 v)) : exec i s = res v 0 := hflags hexec (by rw [hf, Nat.or_zero])
  refine ⟨hres (exec_qadd ..) (by rw [ha, hb]), hres (exec_qsub ..) (by rw [ha, hb]),
    hres (exec_qmul ..) (by rw [ha, hb]; rfl), hres (exec_qshl ..) ?shl, hres (exec_qshr ..) ?shr,
    hres (exec_qneg ..) (by rw [ha]), hres (exec_qabs ..) (by rw [ha]), hres (exec_qmin ..) ?min, hres (exec_qmax ..) ?max,
    fun hb0 => hres (exec_qdiv ..) ?div, fun hb0 => hflags (exec_qdiv ..) ?zero⟩
  case shl => rw [ha, wb, roundEven_neg]
  case shr =>
    obtain ⟨hlo, hhi⟩ := roundEven_mem sh.val haLo haHi
    rw [ha, sat32_of_mem hlo hhi]
  case min =>
    rw [ha, hb, show (if a < b then a else b) = min a b by omega, sat32_of_mem (by omega) (by omega)]
  case max =>
    rw [ha, hb, show (if a < b then b else a) = max a b by omega, sat32_of_mem (by omega) (by omega)]
  case div => rw [ha, hb, qDiv, div32_of_ne _ hb0, if_neg hb0, Nat.or_zero]
  case zero => rw [ha, hb, qDiv, hb0, div32_zero, if_pos rfl]

end Sys2Proof.Machine
end

section
/-!
PROOFS. Control transfer (08 R202 to R204): where branches, jumps and calls go on, and ALIGN.
-/
namespace Sys2Proof.Machine

/-! ### Branches (R202) -/

/-- A conditional branch goes on at its target when its condition holds, else at PC + 4. -/
theorem branch_goes {x : Issue} {ra rb : Fin 32} {s : State} {cond : Dword → Dword → Bool} {taken : Prop} [Decidable taken]
    (imm : BitVec 16) (h : Runs x s) (hcond : cond (getG (ctxOf s x.core) ra) (getG (ctxOf s x.core) rb) = decide taken) :
    branch x ra rb imm s cond =
      .next (goTo s x.core ((ctxOf s x.core).pc + if taken then BitVec.ofInt 64 (imm.toInt * 4) else 4)) := by
  refine issue_goes h ?_ h.waiting
  have htarget : imm.signExtend 64 <<< 2 = BitVec.ofInt 64 (imm.toInt * 4) := signExtend_shiftLeft imm 2
  by_cases ht : taken <;> simp [hcond, ht, htarget, pc4]

section
variable (x : Issue) (ra rb : Fin 32) (imm : BitVec 16) (far : BitVec 26) (s : State)

theorem exec_beq : exec (.beq x ra rb imm) s = branch x ra rb imm s fun a b => a == b := rfl
theorem exec_bne : exec (.bne x ra rb imm) s = branch x ra rb imm s fun a b => a != b := rfl
theorem exec_blt : exec (.blt x ra rb imm) s = branch x ra rb imm s fun a b => a.slt b := rfl
theorem exec_bge : exec (.bge x ra rb imm) s = branch x ra rb imm s fun a b => !a.slt b := rfl
theorem exec_bltu : exec (.bltu x ra rb imm) s = branch x ra rb imm s fun a b => a.ult b := rfl
theorem exec_bgeu : exec (.bgeu x ra rb imm) s = branch x ra rb imm s fun a b => !a.ult b := rfl
theorem exec_j : exec (.j x far) s = execJ x far s := rfl
theorem exec_call : exec (.call x far) s = execCall x far s := rfl
theorem exec_jr : exec (.jr x ra imm) s = execJr x ra imm s := rfl
theorem exec_callr : exec (.callr x ra imm) s = execCallr x ra imm s := rfl

end

/-- Settles O7: each branch by its condition. -/
theorem branchResults : Obligations.BranchResults := by
  unfold Obligations.BranchResults
  intro x ra rb imm s hruns k a b to_
  refine ⟨(exec_beq ..).trans (branch_goes imm hruns rfl), (exec_bne ..).trans (branch_goes imm hruns ?ne),
    (exec_blt ..).trans (branch_goes imm hruns rfl), (exec_bge ..).trans (branch_goes imm hruns ?ge),
    (exec_bltu ..).trans (branch_goes imm hruns rfl), (exec_bgeu ..).trans (branch_goes imm hruns ?geu)⟩
  case ne => exact decide_not.symm
  case ge => exact decide_not.symm.trans (decide_eq_decide.2 Int.not_lt)
  case geu => exact decide_not.symm.trans (decide_eq_decide.2 Nat.not_lt)

/-! ### Jumps and calls (R203) -/

theorem regTarget_of_aligned {s : State} {c : Fin 6} {ra : Fin 32} {imm : BitVec 16}
    (h : (getG (ctxOf s c) ra + imm.signExtend 64).toNat % 4 = 0) :
    regTarget s c ra imm = .ok (getG (ctxOf s c) ra + imm.signExtend 64) := if_pos h

theorem regTarget_of_misaligned {s : State} {c : Fin 6} {ra : Fin 32} {imm : BitVec 16}
    (h : (getG (ctxOf s c) ra + imm.signExtend 64).toNat % 4 ≠ 0) :
    regTarget s c ra imm = .error (excALIGN 0 (getG (ctxOf s c) ra + imm.signExtend 64)) := if_neg h

theorem waiting_link {x : Issue} {s : State} (h : Runs x s) : (coreOf (link s x.core) x.core).waiting = false := by
  simpa [link] using h.waiting

/-- Settles O8: the direct transfers, then those through a register by the alignment of their target. -/
theorem jumpResults : Obligations.JumpResults := by
  unfold Obligations.JumpResults
  intro x ra imm far s hruns k there target linked
  have hthere : (ctxOf s x.core).pc + far.signExtend 64 <<< 2 = there := congrArg (k.pc + ·) (signExtend_shiftLeft far 2)
  refine ⟨?j, ?call, fun haligned => ?jr, fun haligned => ?callr, fun hnot => ⟨?jrAlign, ?callrAlign⟩⟩
  case j =>
    rw [exec_j, execJ, ← hthere]
    exact issue_goes hruns rfl hruns.waiting
  case call =>
    rw [exec_call, execCall, ← hthere]
    exact issue_goes hruns rfl (waiting_link hruns)
  case jr =>
    rw [exec_jr, execJr]
    exact issue_goes hruns (by rw [regTarget_of_aligned haligned]; rfl) hruns.waiting
  case callr =>
    rw [exec_callr, execCallr]
    exact issue_goes hruns (by rw [regTarget_of_aligned haligned]; rfl) (waiting_link hruns)
  case jrAlign =>
    rw [exec_jr, execJr]
    exact issue_raises hruns (by rw [regTarget_of_misaligned hnot]; rfl)
  case callrAlign =>
    rw [exec_callr, execCallr]
    exact issue_raises hruns (by rw [regTarget_of_misaligned hnot]; rfl)

end Sys2Proof.Machine
end

section
/-!
PROOFS. Loads and atomics in scan mode (07 R170 R171 R173, 08 R201 R205): what a load gives and leaves, and the read, the write
and the old value of an atomic on the task's own page.
-/
namespace Sys2Proof.Machine

/-! ### Loads -/

@[simp] theorem length_scanBytes (s : State) (t : Nat) (sc : Scan) (a n : Nat) : (scanBytes s t sc a n).length = n := by
  induction n generalizing a with
  | zero => rfl
  | succ n ih => simp [scanBytes, ih]

theorem leNat_scanBytes_lt (s : State) (t : Nat) (sc : Scan) (a n : Nat) : leNat (scanBytes s t sc a n) < 256 ^ n := by
  simpa using leNat_lt (scanBytes s t sc a n)

/-- The zero extension of a value that fits is the value. -/
theorem zext64_of_lt {w v : Nat} (h : v < 2 ^ w) : zext64 w v = BitVec.ofNat 64 v := by
  rw [zext64, Nat.mod_eq_of_lt h]

theorem coreLoad_scan {s : State} {c : Fin 6} {t n : Nat} {sc : Scan} {ad : Dword} (htask : scanTask s c = some t)
    (hscan : scanOf s t = some sc) (hcheck : scanCheck s t .load ad n = none) :
    coreLoad s c ad n = .ok (s, leNat (scanBytes s t sc ad.toNat n)) := by
  simp [coreLoad, htask, scanLoad, hcheck, hscan, Except.map]

/-- A load in scan mode that passes the checks completes without an effect on the state. -/
theorem coreLoad_scan_exists {s : State} {c : Fin 6} {t n : Nat} {ad : Dword} (htask : scanTask s c = some t)
    (hcheck : scanCheck s t .load ad n = none) : ∃ v, coreLoad s c ad n = .ok (s, v) := by
  cases hscan : scanOf s t with
  | none => exact ⟨0, by simp [coreLoad, htask, scanLoad, hcheck, hscan, Except.map]⟩
  | some sc => exact ⟨_, coreLoad_scan htask hscan hcheck⟩

theorem exec_fld (x : Issue) (fd : Fin 16) (ra : Fin 32) (imm : BitVec 16) (s : State) :
    exec (.fld x fd ra imm) s = execFld x fd ra imm s := rfl

/-- A load of a binary64 register that its core carries out without a further effect. -/
theorem fld_goes {x : Issue} {s : State} {ra : Fin 32} {imm : BitVec 16} {v : Nat} (fd : Fin 16) (h : Runs x s)
    (hload : coreLoad s x.core (effAddr s x.core ra imm) 8 = .ok (s, v)) :
    exec (.fld x fd ra imm) s = .next (goOn s x.core (putD (ctxOf s x.core) fd (BitVec.ofNat 64 v))) := by
  rw [exec_fld, execFld]
  refine issue_goes (u := setCtx s x.core (putD (ctxOf s x.core) fd (BitVec.ofNat 64 v))) h ?_ ?_
  · rw [hload]
    rfl
  · simpa using h.waiting

/-- Settles O9: each load writes its conversion of the bytes that the scan loads. -/
theorem scanLoads : Obligations.ScanLoads := by
  unfold Obligations.ScanLoads
  intro x rd ra fd imm s t sc hruns htask hscan k ad v ok res
  have hload {i : Instr} {n : Nat} {f : Nat → Dword} {w : Dword} (hexec : exec i s = loadG x rd ra imm n f s)
      (hw : f (v n) = w) (hok : ok n) : exec i s = res w :=
    hw ▸ hexec.trans (loadG_goes rd f hruns (coreLoad_scan htask hscan hok))
  have hzext {n w : Nat} (hw : 256 ^ n = 2 ^ w) : zext64 w (v n) = BitVec.ofNat 64 (v n) :=
    zext64_of_lt (hw ▸ leNat_scanBytes_lt s t sc ad.toNat n)
  exact ⟨hload (exec_lb ..) rfl, hload (exec_lbu ..) (hzext (by norm_num)), hload (exec_lh ..) rfl,
    hload (exec_lhu ..) (hzext (by norm_num)), hload (exec_lw ..) rfl, hload (exec_lwu ..) (hzext (by norm_num)),
    hload (exec_ld ..) (hzext (by norm_num)), hload (exec_lbool ..) (boolD_ne_zero _),
    fun hok => fld_goes fd hruns (coreLoad_scan htask hscan hok)⟩

/-! ### The frame of a load -/

theorem inExtent_mono {s : State} {a m n : Nat} (hmn : m ≤ n) (h : inExtent s a n = true) : inExtent s a m = true := by
  unfold inExtent at h ⊢
  cases hprog : s.prog with
  | none => simp [hprog] at h
  | some p =>
    cases hwin : windowOf a with
    | none => simp [hprog, hwin] at h
    | some w => cases w <;> simp only [hprog, hwin, decide_eq_true_eq] at h ⊢ <;> omega

/-- An access that raises no ACCESS lies in its window's extent. -/
theorem inExtent_of_accessExc {s : State} {t n : Nat} {k : Access} {ad : Dword} (h : accessExc s t k ad n = none) :
    inExtent s ad.toNat n = true := by
  cases hextent : inExtent s ad.toNat n with
  | true => rfl
  | false =>
    cases hwin : windowOf ad.toNat with
    | none => simp [accessExc, hwin] at h
    | some w => cases hkind : kindOk w k <;> simp [accessExc, hwin, hkind, hextent] at h

/-- The size of an access matters to its ACCESS case by the extent alone. -/
theorem accessExc_congr {s : State} {m n : Nat} {ad : Dword} (h : inExtent s ad.toNat m = inExtent s ad.toNat n) (t : Nat)
    (k : Access) : accessExc s t k ad m = accessExc s t k ad n := by
  simp only [accessExc, h]

/-- An access that passes the checks passes them at a smaller size that divides its own. -/
theorem scanCheck_narrower {s : State} {t m n : Nat} {k : Access} {ad : Dword} (hdvd : m ∣ n) (hn : 0 < n)
    (h : scanCheck s t k ad n = none) : scanCheck s t k ad m = none := by
  unfold scanCheck at h
  split at h
  · cases h
  next halign =>
    have hextent := inExtent_of_accessExc h
    have hnarrow : ad.toNat % m = 0 := Nat.mod_eq_zero_of_dvd (hdvd.trans (Nat.dvd_of_mod_eq_zero (not_not.1 halign)))
    have hsame : inExtent s ad.toNat m = inExtent s ad.toNat n :=
      (inExtent_mono (Nat.le_of_dvd hn hdvd) hextent).trans hextent.symm
    rw [scanCheck, if_neg (not_not.2 hnarrow), accessExc_congr hsame]
    exact h

/-- Settles O26: each load writes a value of its own to the register and goes on. -/
theorem loadFrame : Obligations.LoadFrame := by
  unfold Obligations.LoadFrame
  intro x rd ra imm s u t hruns htask hfetch hcheck
  have hframe {i : Instr} {n : Nat} {f : Nat → Dword} (hexec : exec i s = loadG x rd ra imm n f s) (hn : n ∣ 8)
      (hu : exec i s = .next u) : OnlyCore x.core s u ∧ KeepsRegs x.core [rd] s u ∧ SameMemory s u := by
    obtain ⟨v, hv⟩ := coreLoad_scan_exists htask (scanCheck_narrower hn (by decide) hcheck)
    rw [hexec, loadG_goes rd f hruns hv] at hu
    cases hu
    exact frame_goOn_putG hfetch rd (f v)
  have h1 : 1 ∣ 8 := by decide
  have h2 : 2 ∣ 8 := by decide
  have h4 : 4 ∣ 8 := by decide
  simp only [List.forall_mem_cons]
  exact ⟨hframe (exec_lb ..) h1, hframe (exec_lbu ..) h1, hframe (exec_lh ..) h2, hframe (exec_lhu ..) h2,
    hframe (exec_lw ..) h4, hframe (exec_lwu ..) h4, hframe (exec_ld ..) (dvd_refl 8), hframe (exec_lbool ..) h1,
    List.forall_mem_nil _⟩

/-! ### Atomics -/

/-- The owner of an address is that of its page. -/
theorem pageOwner_congr {s : State} {a b : Nat} (h : a / 4096 = b / 4096) : pageOwner s a = pageOwner s b := by
  simp only [pageOwner, h]

/-- A byte of a page that is not SHARED is read as it stands in the pages. -/
theorem scanByte_page {s : State} {t o : Nat} {sc : Scan} {a : Nat} (hlo : winRet ≤ a) (hhi : a < winConst)
    (howner : pageOwner s a = some o) (ho : o ≠ 0xFE) : scanByte s t sc a = memRead s.inst a := by
  rcases windowOf_page hlo hhi with hwin | hwin <;> simp [scanByte, hwin, howner, ho]

theorem scanBytes_eq_memBytes {s : State} {t : Nat} {sc : Scan} {a n : Nat}
    (h : ∀ i < n, scanByte s t sc (a + i) = memRead s.inst (a + i)) : scanBytes s t sc a n = memBytes s.inst a n := by
  induction n generalizing a with
  | zero => rfl
  | succ n ih =>
    have hrest (i : Nat) (hi : i < n) : scanByte s t sc (a + 1 + i) = memRead s.inst (a + 1 + i) := by
      rw [Nat.add_right_comm, Nat.add_assoc]
      exact h (i + 1) (Nat.succ_lt_succ hi)
    rw [scanBytes, memBytes, ih hrest]
    exact congrArg (· :: _) (h 0 n.succ_pos)

/-- The bytes of an aligned access lie in one page. -/
theorem page_of_aligned {a n i : Nat} (hn : n ∣ 4096) (halign : a % n = 0) (hi : i < n) : (a + i) / 4096 = a / 4096 := by
  have hblock : (a + i) / n = a / n := by
    rw [Nat.add_div_of_dvd_right (Nat.dvd_of_mod_eq_zero halign), Nat.div_eq_of_lt hi, Nat.add_zero]
  obtain ⟨m, hm⟩ := hn
  rw [hm, ← Nat.div_div_eq_div_mul, hblock, Nat.div_div_eq_div_mul]

/-- A task's aligned bytes of its own page are read as they stand in the pages. -/
theorem scanBytes_own {s : State} {c : Fin 6} {t n a : Nat} {sc : Scan} (h : ownBytes s c t sc a n) (hn : n ∣ 4096) :
    scanBytes s t sc a n = memBytes s.inst a n := by
  obtain ⟨-, -, ht, hlo, hhi, -, howner, halign, -⟩ := h
  refine scanBytes_eq_memBytes fun i hi => ?_
  have hpage := page_of_aligned hn halign hi
  have hend : a + i < winConst := by unfold winConst at hhi ⊢; omega
  exact scanByte_page (Nat.le_add_right_of_le hlo) hend ((pageOwner_congr hpage).trans howner) (by omega)

theorem ownBytes.fetches {s : State} {c : Fin 6} {t a n : Nat} {sc : Scan} (h : ownBytes s c t sc a n) :
    fetchExc s c ((ctxOf s c).pc + 4) = none := by
  obtain ⟨-, -, -, -, -, -, -, -, -, hfetch⟩ := h
  exact hfetch

theorem atomOld_own {s : State} {c : Fin 6} {t n : Nat} {sc : Scan} {ad : Dword} (h : ownBytes s c t sc ad.toNat n)
    (hn : n ∣ 4096) : atomOld s c ad n = .ok (s, memLe s.inst ad.toNat n) := by
  have hcheck := scanCheck_own h .atomic
  have hbytes := scanBytes_own h hn
  obtain ⟨htask, hscan, -⟩ := h
  simp only [atomOld, htask, hcheck, hscan, hbytes, memLe]

/-- The write of an atomic to the task's own page is a logged store. -/
theorem atomStore_own {s : State} {c : Fin 6} {t n : Nat} {sc : Scan} {ad : Dword} (h : ownBytes s c t sc ad.toNat n)
    (v : Nat) : ∃ ts, atomStore s c ad n v = .ok { s with tasks := ts, inst := memPut s.inst ad.toNat (leBytes n v) } := by
  obtain ⟨htask, hscan, -, -, hhi, -, -, -, hroom, -⟩ := h
  simp only [atomStore, htask, hscan]
  exact storeLogged_page _ hroom hhi

/-- An atomic whose read and write its core carries out gives the old value and goes on at PC + 4. -/
theorem atom_goes {x : Issue} {rd ra rb : Fin 32} {wide : Bool} {s u : State} {n old : Nat}
    {f : Nat → Nat → Nat → Nat → Nat} (h : Runs x s) (hn : n = if wide then 8 else 4)
    (hold : atomOld s x.core (getG (ctxOf s x.core) ra) n = .ok (s, old))
    (hstore : atomStore s x.core (getG (ctxOf s x.core) ra) n (f (8 * n) old ((getG (ctxOf s x.core) rb).toNat % 2 ^ (8 * n))
      ((getG (ctxOf s x.core) rd).toNat % 2 ^ (8 * n)) % 2 ^ (8 * n)) = .ok u)
    (hcores : u.cores = s.cores) :
    atom x rd ra rb wide f s = .next (goOn u x.core (putG (ctxOf u x.core) rd (sext64 (8 * n) old))) := by
  have hctx : ctxOf u x.core = ctxOf s x.core := by simp only [ctxOf, coreOf, hcores]
  rw [atom, ← hn]
  refine issue_goes (u := setCtx u x.core (putG (ctxOf u x.core) rd (sext64 (8 * n) old))) h ?_ ?_
  · simp only [hold, bind, Except.bind, hstore, hctx]
    rfl
  · rw [coreOf_setCtx]
    simpa [coreOf, hcores] using h.waiting

section
variable (x : Issue) (rd ra rb : Fin 32) (wide : Bool) (s : State)

theorem exec_atcas : exec (.atcas x rd ra rb wide) s =
    atom x rd ra rb wide (fun _ old b e => if old = e then b else old) s := rfl
theorem exec_atswp : exec (.atswp x rd ra rb wide) s = atom x rd ra rb wide (fun _ _ b _ => b) s := rfl
theorem exec_atadd : exec (.atadd x rd ra rb wide) s = atom x rd ra rb wide (fun _ old b _ => old + b) s := rfl
theorem exec_atand : exec (.atand x rd ra rb wide) s = atom x rd ra rb wide (fun _ old b _ => old &&& b) s := rfl
theorem exec_ator : exec (.ator x rd ra rb wide) s = atom x rd ra rb wide (fun _ old b _ => old ||| b) s := rfl
theorem exec_atxor : exec (.atxor x rd ra rb wide) s = atom x rd ra rb wide (fun _ old b _ => old ^^^ b) s := rfl
theorem exec_atmin : exec (.atmin x rd ra rb wide) s =
    atom x rd ra rb wide (fun w old b _ => if sInt w old ≤ sInt w b then old else b) s := rfl
theorem exec_atmax : exec (.atmax x rd ra rb wide) s =
    atom x rd ra rb wide (fun w old b _ => if sInt w old ≤ sInt w b then b else old) s := rfl
theorem exec_atminu : exec (.atminu x rd ra rb wide) s = atom x rd ra rb wide (fun _ old b _ => min old b) s := rfl
theorem exec_atmaxu : exec (.atmaxu x rd ra rb wide) s = atom x rd ra rb wide (fun _ old b _ => max old b) s := rfl

end

/-- Settles O12: each atomic by its new value, which its operand size holds. -/
theorem atomicResults : Obligations.AtomicResults := by
  unfold Obligations.AtomicResults
  intro x rd ra rb wide s t sc hruns k n w a old b e less gives hown
  have hsize : n ∣ 4096 := by cases wide <;> decide
  have hfetch : fetchExc s x.core (k.pc + 4) = none := hown.fetches
  have hgives {i : Instr} {f : Nat → Nat → Nat → Nat → Nat} {new : Nat} (hexec : exec i s = atom x rd ra rb wide f s)
      (hnew : f w old b e % 2 ^ w = new) : gives i new := by
    subst hnew
    obtain ⟨ts, hstore⟩ := atomStore_own hown (f w old b e % 2 ^ w)
    have hgoes := atom_goes hruns rfl (atomOld_own hown hsize) hstore rfl
    rw [goOn_of_fetchable (by exact hfetch)] at hgoes
    exact ⟨_, hexec.trans hgoes, memRead_memPut_leBytes s.inst a n _, ctxOf_setCtx ..⟩
  have hfits {i : Instr} {f : Nat → Nat → Nat → Nat → Nat} {new : Nat} (hexec : exec i s = atom x rd ra rb wide f s)
      (hnew : f w old b e = new) (hlt : new < 2 ^ w) : gives i new :=
    hgives hexec (hnew ▸ Nat.mod_eq_of_lt (hnew ▸ hlt))
  have hold : old < 2 ^ w := lt_of_lt_of_eq (memLe_lt s.inst a n) (pow_mul 2 8 n).symm
  have hb : b < 2 ^ w := Nat.mod_lt _ (Nat.two_pow_pos w)
  refine ⟨hfits (exec_atcas ..) rfl ?cas, hfits (exec_atswp ..) rfl hb, hgives (exec_atadd ..) rfl,
    hfits (exec_atand ..) rfl (Nat.and_lt_two_pow _ hb), hfits (exec_ator ..) rfl (Nat.or_lt_two_pow hold hb),
    hfits (exec_atxor ..) rfl (Nat.xor_lt_two_pow hold hb), fun h => ⟨?minNew, ?maxOld⟩, fun h => ⟨?minOld, ?maxNew⟩,
    hfits (exec_atminu ..) rfl (min_lt_of_right_lt hb), hfits (exec_atmaxu ..) rfl (max_lt hold hb)⟩
  case cas => split <;> assumption
  case minNew => exact hfits (exec_atmin ..) (if_neg (Int.not_le.2 h)) hb
  case maxOld => exact hfits (exec_atmax ..) (if_neg (Int.not_le.2 h)) hold
  case minOld => exact hfits (exec_atmin ..) (if_pos (Int.not_lt.1 h)) hold
  case maxNew => exact hfits (exec_atmax ..) (if_pos (Int.not_lt.1 h)) hb

end Sys2Proof.Machine
end

section
/-!
PROOFS. Control instructions in a scan (09 R210, R221, R224, R225, R228, R234, R235): what issuing one answers, the checkpoint,
the capture of engine calls, and the reads of the frozen view.
-/
namespace Sys2Proof.Machine

/-! ### Issuing (R210) -/

section
variable {x : Issue} {s u : State} {word : Word} {ea : Option Dword} {f : State → Nat → Scan → Exe} {t : Nat} {sc : Scan}

theorem ctlInstr_raises {e : Exc} (h : Runs x s) (htask : scanTask s x.core = some t) (hscan : scanOf s t = some sc)
    (hf : f s t sc = .error e) : ctlInstr x s word ea f = .next (raise s x.core e) :=
  issue_raises h (by simp only [htask, hscan, hf])

/-- A control instruction goes on at PC + 4, after what it leaves in the state and in the registers of its core. -/
theorem ctlInstr_goes {k : RegCtx} (h : Runs x s) (htask : scanTask s x.core = some t) (hscan : scanOf s t = some sc)
    (hf : f s t sc = .ok (setCtx u x.core k, pc4 s x.core)) (hcores : u.cores = s.cores) :
    ctlInstr x s word ea f = .next (goOn u x.core k) := by
  have hcore : coreOf u x.core = coreOf s x.core := by simp only [coreOf, hcores]
  have hpc : pc4 s x.core = (ctxOf u x.core).pc + 4 := by simp only [pc4, ctxOf, hcore]; rfl
  rw [hpc] at hf
  refine issue_goes h (by simp only [htask, hscan, hf]) ?_
  rw [coreOf_setCtx, hcore]
  exact h.waiting

/-- Where the next instruction can be fetched, it leaves its core's registers at PC + 4. -/
theorem ctlInstr_completes {k : RegCtx} (h : Runs x s) (htask : scanTask s x.core = some t) (hscan : scanOf s t = some sc)
    (hf : f s t sc = .ok (setCtx u x.core k, pc4 s x.core)) (hcores : u.cores = s.cores) (hprog : u.prog = s.prog)
    (hfetch : fetchExc s x.core ((ctxOf s x.core).pc + 4) = none) :
    ctlInstr x s word ea f = .next (setCtx u x.core { k with pc := (ctxOf s x.core).pc + 4 }) := by
  have hcore : coreOf u x.core = coreOf s x.core := by simp only [coreOf, hcores]
  have hctx : ctxOf u x.core = ctxOf s x.core := by simp only [ctxOf, hcore]
  have hnext : fetchExc u x.core ((ctxOf u x.core).pc + 4) = none := by
    rw [hctx, fetchExc_congr (congrArg Core.stat hcore) hprog]
    exact hfetch
  rw [ctlInstr_goes h htask hscan hf hcores, goOn_of_fetchable hnext, hctx]

end

theorem setCtx_self (s : State) (c : Fin 6) : setCtx s c (ctxOf s c) = s := by
  have hcore : { s.cores[c.val] with ctx := ctxOf s c } = s.cores[c.val] := rfl
  rw [setCtx, modCore, hcore, Vector.set_getElem_self]

theorem scanOf_setCtx (s : State) (c : Fin 6) (k : RegCtx) (t : Nat) : scanOf (setCtx s c k) t = scanOf s t := rfl

/-! ### The checkpoint (R221) -/

/-- The scan with its checkpoint at the present marks. -/
def markedScan (s : State) (c : Fin 6) (sc : Scan) : Scan :=
  { sc with ckpt := { ctx := { ctxOf s c with pc := pc4 s c }, ticket := sc.ticket, undoMark := sc.undo.length,
                      bufMark := sc.buf.length, callMark := sc.calls.length } }

theorem ckpt_completes {x : Issue} {s : State} {t : Nat} {sc : Scan} (h : Runs x s) (htask : scanTask s x.core = some t)
    (hscan : scanOf s t = some sc) (hfetch : fetchExc s x.core ((ctxOf s x.core).pc + 4) = none) :
    exec (.ckpt x) s = .next (setCtx (setScan s t (some (markedScan s x.core sc))) x.core
      { ctxOf s x.core with pc := (ctxOf s x.core).pc + 4 }) := by
  rw [exec_ckpt, execCkpt]
  refine ctlInstr_completes (u := setScan s t (some (markedScan s x.core sc))) (k := ctxOf s x.core) h htask hscan ?_ rfl rfl
    hfetch
  have hself : setCtx (setScan s t (some (markedScan s x.core sc))) x.core (ctxOf s x.core) = _ := setCtx_self ..
  rw [hself]
  rfl

/-- Settles O20: CKPT leaves the scan with its marks, and the core at PC + 4. -/
theorem checkpointSaved : Obligations.CheckpointSaved := by
  unfold Obligations.CheckpointSaved
  intro x s t sc hruns htask hscan _ k hfetch
  refine ⟨_, ckpt_completes hruns htask hscan hfetch, ?_, ctxOf_setCtx .., fun _ => ⟨rfl, rfl, rfl, rfl, rfl⟩⟩
  rw [scanOf_setCtx, scanOf_setScan]
  rfl

/-! ### Engine calls captured (R224, R225, R228) -/

/-- The ticket after 65535 is 1, and every other one is followed by the next number (R225). -/
theorem nextTicket_eq (n : Nat) : nextTicket n = if n % 65536 = 65535 then 1 else n % 65536 + 1 := by
  unfold nextTicket
  split <;> split <;> omega

theorem exec_ecall (x : Issue) (rd ra rb : Fin 32) (engine : Fin 32) (fn : Fin 64) (s : State) :
    exec (.ecall x rd ra rb engine fn) s = execEcall x rd ra rb engine fn s := rfl

/-- The scan with a call captured under the next ticket. -/
def capturedScan (sc : Scan) (engine fn : Nat) (body : List Byte) : Scan :=
  { sc with calls := { ticket := nextTicket sc.ticket, engine := engine, fn := fn, body := body } :: sc.calls,
            ticket := nextTicket sc.ticket }

section
variable {x : Issue} {ra rb : Fin 32} {engine : Fin 32} {fn : Fin 64} {s : State} {t off len : Nat} {sc : Scan}

/-- A call that passes the checks is captured with its body and its ticket written. -/
theorem ecall_captures (rd : Fin 32) (h : Runs x s) (htask : scanTask s x.core = some t) (hscan : scanOf s t = some sc)
    (hdefined : ecallDefined engine.val fn.val = true) (hoff : (getG (ctxOf s x.core) ra).toNat = off)
    (hlen : (getG (ctxOf s x.core) rb).toNat = len) (harea : off % 8 = 0 ∧ 0x1000 ≤ off ∧ off + len ≤ 0x8000)
    (hbody : ecallLenOk engine.val fn.val len (memLe s.mbox (winMbox + 0x10000 * t + off) 4 / 65536) = true)
    (hroom : sc.calls.length < 32) (hbytes : (sc.calls.map (·.body.length)).sum + len ≤ 28672)
    (hfetch : fetchExc s x.core ((ctxOf s x.core).pc + 4) = none) :
    exec (.ecall x rd ra rb engine fn) s = .next (setCtx (setScan s t
      (some (capturedScan sc engine.val fn.val (memBytes s.mbox (winMbox + 0x10000 * t + off) len)))) x.core
      { putG (ctxOf s x.core) rd (BitVec.ofNat 64 (nextTicket sc.ticket)) with pc := (ctxOf s x.core).pc + 4 }) := by
  obtain ⟨halign, hlow, hhigh⟩ := harea
  rw [exec_ecall, execEcall]
  refine ctlInstr_completes (k := putG (ctxOf s x.core) rd (BitVec.ofNat 64 (nextTicket sc.ticket))) h htask hscan ?_ rfl rfl
    hfetch
  simp only [hdefined, hoff, hlen, halign, Nat.not_lt.2 hlow, Nat.not_lt.2 hhigh, hbody, Nat.not_le.2 hroom,
    Nat.not_lt.2 hbytes, ne_eq, not_true_eq_false, decide_false, Bool.or_false, Bool.not_true, Bool.false_eq_true, if_false]
  rfl

/-- A request that is misaligned or leaves the submit area raises ENGINE with DETAIL 1. -/
theorem ecall_raises_of_area (rd : Fin 32) (h : Runs x s) (htask : scanTask s x.core = some t) (hscan : scanOf s t = some sc)
    (hdefined : ecallDefined engine.val fn.val = true) (hoff : (getG (ctxOf s x.core) ra).toNat = off)
    (hlen : (getG (ctxOf s x.core) rb).toNat = len) (harea : off % 8 ≠ 0 ∨ off < 0x1000 ∨ 0x8000 < off + len) :
    exec (.ecall x rd ra rb engine fn) s =
      .next (raise s x.core (excENGINE 1 (BitVec.ofNat 64 (winMbox + 0x10000 * t) + getG (ctxOf s x.core) ra))) := by
  have hbad : (off % 8 ≠ 0 || off < 0x1000 || off + len > 0x8000) = true := by simpa [or_assoc] using harea
  rw [exec_ecall, execEcall]
  refine ctlInstr_raises h htask hscan ?_
  simp only [hdefined, hoff, hlen, hbad, Bool.not_true, Bool.false_eq_true, if_false, if_true]
  rfl

end

/-- Settles O18: a call that passes the checks is captured; one outside the submit area raises ENGINE. -/
theorem engineCallCaptured : Obligations.EngineCallCaptured := by
  unfold Obligations.EngineCallCaptured
  intro x rd ra rb engine fn s t sc hruns htask hscan _ hdefined k off len at_ tk
  have hticket : tk = nextTicket sc.ticket := (nextTicket_eq sc.ticket).symm
  refine ⟨fun halign hlow hhigh hbody hroom hbytes hfetch => ?_,
    ecall_raises_of_area rd hruns htask hscan hdefined rfl rfl⟩
  rw [hticket]
  exact ⟨_, ecall_captures rd hruns htask hscan hdefined rfl rfl ⟨halign, hlow, hhigh⟩ hbody hroom hbytes hfetch,
    ⟨_, scanOf_setScan .., rfl, rfl⟩, ctxOf_setCtx .., fun _ => ⟨rfl, rfl, rfl, rfl, rfl⟩⟩

/-! ### Engine reads (R234, R235) -/

section
variable {x : Issue} {s : State} {t func : Nat} {sc : Scan} {ra : Fin 32} {sel : BitVec 6}
  {f : EngineView → Nat → Nat → Option Dword}

/-- A read of a defined selector writes the value that its view gives for the index. -/
theorem eread_gives {m : Nat} {w : Dword} (rd : Fin 32) (h : Runs x s) (htask : scanTask s x.core = some t)
    (hscan : scanOf s t = some sc) (hmax : ereadMaxSel func = some m) (hsel : sel.toNat ≤ m)
    (hf : f sc.view (getG (ctxOf s x.core) ra).toNat sel.toNat = some w) :
    eread func x rd ra sel s f = .next (goOn s x.core (putG (ctxOf s x.core) rd w)) := by
  refine ctlInstr_goes h htask hscan ?_ rfl
  simp only [hmax, Nat.not_lt.2 hsel, hf, if_false]
  rfl

/-- A read of a defined selector for an index out of range raises ENGINE with DETAIL 5 (R228). -/
theorem eread_raises {m : Nat} (rd : Fin 32) (h : Runs x s) (htask : scanTask s x.core = some t)
    (hscan : scanOf s t = some sc) (hmax : ereadMaxSel func = some m) (hsel : sel.toNat ≤ m)
    (hf : f sc.view (getG (ctxOf s x.core) ra).toNat sel.toNat = none) :
    eread func x rd ra sel s f = .next (raise s x.core (excENGINE 5 (getG (ctxOf s x.core) ra))) := by
  refine ctlInstr_raises h htask hscan ?_
  simp only [hmax, Nat.not_lt.2 hsel, hf, if_false]
  rfl

end

section
variable (x : Issue) (rd ra : Fin 32) (sel : BitVec 6) (s : State)

theorem exec_ereadNode : exec (.ereadNode x rd ra sel) s = execEreadNode x rd ra sel s := rfl
theorem exec_ereadBranch : exec (.ereadBranch x rd ra sel) s = execEreadBranch x rd ra sel s := rfl
theorem exec_ereadNodeix : exec (.ereadNodeix x rd ra sel) s = execEreadNodeix x rd ra sel s := rfl
theorem exec_ereadBranchix : exec (.ereadBranchix x rd ra sel) s = execEreadBranchix x rd ra sel s := rfl
theorem exec_ereadState : exec (.ereadState x rd ra sel) s = execEreadState x rd ra sel s := rfl
theorem exec_ereadDec : exec (.ereadDec x rd ra sel) s = execEreadDec x rd ra sel s := rfl
theorem exec_ereadDemand : exec (.ereadDemand x rd ra sel) s = execEreadDemand x rd ra sel s := rfl
theorem exec_ereadLoop : exec (.ereadLoop x rd ra sel) s = execEreadLoop x rd ra sel s := rfl
theorem exec_ereadGroup : exec (.ereadGroup x rd ra sel) s = execEreadGroup x rd ra sel s := rfl
theorem exec_ereadExp : exec (.ereadExp x rd ra sel) s = execEreadExp x rd ra sel s := rfl

end

/-- Settles O19: each selector's value is the one that its view gives for the index. -/
theorem engineReads : Obligations.EngineReads := by
  unfold Obligations.EngineReads
  intro x rd ra s t sc hruns htask hscan k i v res int nat
  have hread {c : Instr} {func m : Nat} {sel : BitVec 6} {f : EngineView → Nat → Nat → Option Dword} {w : Dword}
      (hexec : exec c s = eread func x rd ra sel s f) (hmax : ereadMaxSel func = some m) (hsel : sel.toNat ≤ m)
      (hf : f v i sel.toNat = some w) : res c w :=
    hexec.trans (eread_gives rd hruns htask hscan hmax hsel hf)
  refine ⟨?node, ?branch, ?stateless, ?nodeix, ?branchix, ?modelless, ?state, ?dec, ?demand, ?loop, ?group, ?exp, ?expRange⟩
  case node =>
    intro st n hmodel hstate hn
    refine ⟨hread (exec_ereadNode ..) rfl (by decide) ?_, hread (exec_ereadNode ..) rfl (by decide) ?_,
      hread (exec_ereadNode ..) rfl (by decide) ?_, hread (exec_ereadNode ..) rfl (by decide) ?_⟩ <;>
    · simp only [hmodel, hstate, hn]
      rfl
  case branch =>
    intro st b hmodel hstate hb
    refine ⟨hread (exec_ereadBranch ..) rfl (by decide) ?_, hread (exec_ereadBranch ..) rfl (by decide) ?_,
      hread (exec_ereadBranch ..) rfl (by decide) ?_, hread (exec_ereadBranch ..) rfl (by decide) ?_⟩ <;>
    · simp only [hmodel, hstate, hb]
      rfl
  case stateless =>
    intro hstate q
    have hsel : (BitVec.ofNat 6 q.val).toNat ≤ 3 := by revert q; decide
    refine ⟨hread (exec_ereadNode ..) rfl hsel ?_, hread (exec_ereadBranch ..) rfl hsel ?_⟩ <;>
    cases v.hasModel <;> simp only [hstate]
  case nodeix =>
    intro n hmodel hfound
    refine hread (exec_ereadNodeix ..) rfl (by decide) ?_
    simp only [hmodel, if_true, ixOfId, hfound]
    rfl
  case branchix =>
    intro n hmodel hfound
    refine hread (exec_ereadBranchix ..) rfl (by decide) ?_
    simp only [hmodel, if_true, ixOfId, hfound]
    rfl
  case modelless =>
    intro hmodel
    refine ⟨hread (exec_ereadNodeix ..) rfl (by decide) ?_, hread (exec_ereadBranchix ..) rfl (by decide) ?_⟩ <;>
    simp only [hmodel, Bool.false_eq_true, if_false]
  case state =>
    intro st hzero hstate
    refine ⟨hread (exec_ereadState ..) rfl (by decide) ?_, hread (exec_ereadState ..) rfl (by decide) ?_,
      hread (exec_ereadState ..) rfl (by decide) ?_, hread (exec_ereadState ..) rfl (by decide) ?_⟩ <;>
    · rw [if_neg (not_not.2 hzero)]
      simp only [hstate]
      rfl
  case dec =>
    intro d hi hdec
    refine hread (exec_ereadDec ..) rfl (by decide) ?_
    rw [if_neg (Nat.not_lt.2 hi), hdec]
    rfl
  case demand => exact fun hi => hread (exec_ereadDemand ..) rfl (by decide) (if_neg (Nat.not_lt.2 hi))
  case loop => exact fun hi => hread (exec_ereadLoop ..) rfl (by decide) (if_neg (Nat.not_lt.2 hi))
  case group => exact fun hi => hread (exec_ereadGroup ..) rfl (by decide) (if_neg (Nat.not_lt.2 hi))
  case exp =>
    intro hi hmodel
    refine hread (exec_ereadExp ..) rfl (by decide) ?_
    rw [if_neg (Nat.not_lt.2 hi), if_pos hmodel]
    rfl
  case expRange =>
    exact fun hi => (exec_ereadExp ..).trans (eread_raises rd hruns htask hscan rfl (by decide) (if_pos hi))

end Sys2Proof.Machine
end

section
/-!
PROOFS. Timers and edge detectors (09 R217 to R220): their blocks on the task's own page, what an evaluation writes back, and what
it gives.
-/
namespace Sys2Proof.Machine

/-! ### A block of the task's own page (R217) -/

/-- A block on the task's own page passes the checks. -/
theorem blockCheck_own {s : State} {c : Fin 6} {t n : Nat} {sc : Scan} {ad : Dword} (h : ownBytes s c t sc ad.toNat n) :
    blockCheck s t ad n = none := by
  obtain ⟨-, -, ht, hlo, hhi, hextent, howner, halign, -⟩ := h
  have hshared : t ≠ 0xFE := by omega
  rcases windowOf_page hlo hhi with hwin | hwin <;> simp [blockCheck, halign, hwin, hextent, howner, hshared]

theorem memRead_memPut_outside {m : Mem} {a y : Nat} {bs : List Byte} (h : y < a ∨ a + bs.length ≤ y) :
    memRead (memPut m a bs) y = memRead m y := by
  rw [memRead_memPut, if_neg (by omega)]

theorem memBytes_memPut_of_length (m : Mem) (a : Nat) {bs : List Byte} {n : Nat} (h : bs.length = n) :
    memBytes (memPut m a bs) a n = bs :=
  h ▸ memBytes_memPut m a bs

/-- What an evaluation leaves: the bytes of its block, every other byte of the pages, and the core at PC + 4. -/
def BlockWritten (s u : State) (c : Fin 6) (a : Nat) (bs : List Byte) (k : RegCtx) : Prop :=
  u.inst = memPut s.inst a bs ∧ ctxOf u c = { k with pc := (ctxOf s c).pc + 4 }

/-- A control instruction that stores a block of the task's own page and writes its registers. -/
theorem ctlInstr_writes_block {x : Issue} {s : State} {word : Word} {ea : Option Dword} {f : State → Nat → Scan → Exe}
    {t n : Nat} {sc : Scan} {ad : Dword} {bs : List Byte} {k : RegCtx} (h : Runs x s)
    (hown : ownBytes s x.core t sc ad.toNat n)
    (hf : f s t sc = (storeLogged s t sc ad bs).map fun u => (setCtx u x.core k, pc4 s x.core)) :
    ∃ u, ctlInstr x s word ea f = .next u ∧ BlockWritten s u x.core ad.toNat bs k := by
  have hfetch := hown.fetches
  obtain ⟨htask, hscan, -, -, hhi, -, -, -, hroom, -⟩ := hown
  obtain ⟨ts, hstore⟩ := storeLogged_page (s := s) (t := t) (sc := sc) bs hroom hhi
  rw [hstore] at hf
  exact ⟨_, ctlInstr_completes (u := { s with tasks := ts, inst := memPut s.inst ad.toNat bs }) h htask hscan hf rfl rfl hfetch,
    rfl, ctxOf_setCtx ..⟩

/-! ### Timers (R218, R219) -/

/-- ET after the time since the last evaluation, at most PT. -/
def grownEt (b : TimerBlock) (now : Nat) : Nat :=
  min (b.et + if b.init then (tdiff now b.last).toNat else 0) b.pt

/-- A block evaluated at a time with an input: what each kind of timer decides, beside PT. -/
def evaluated (b : TimerBlock) (inp : Bool) (now et : Nat) (q run : Bool) : TimerBlock :=
  { init := true, running := run, inLast := inp, q := q, pt := b.pt, et := et, last := now }

section
variable {b : TimerBlock} {inp : Bool} {now : Nat}

theorem timerEval_ton : timerEval .ton b inp now = evaluated b inp now (if inp && b.inLast then grownEt b now else 0)
    (inp && decide (b.pt ≤ if inp && b.inLast then grownEt b now else 0)) false := by
  cases inp <;> cases hlast : b.inLast <;> simp [timerEval, evaluated, grownEt, hlast]

theorem timerEval_tof_on (hin : inp = true) : timerEval .tof b inp now = evaluated b inp now 0 true false := by
  simp [timerEval, evaluated, hin]

theorem timerEval_tof_falls (hin : inp = false) (hlast : b.inLast = true) :
    timerEval .tof b inp now = evaluated b inp now 0 (decide (0 < b.pt)) false := by
  simp [timerEval, evaluated, hin, hlast]

theorem timerEval_tof_runs (hin : inp = false) (hlast : b.inLast = false) (hq : b.q = true) :
    timerEval .tof b inp now = evaluated b inp now (grownEt b now) (decide (grownEt b now < b.pt)) false := by
  simp [timerEval, evaluated, grownEt, hin, hlast, hq]

theorem timerEval_tof_rests (hin : inp = false) (hlast : b.inLast = false) (hq : b.q = false) :
    timerEval .tof b inp now = evaluated b inp now b.et false false := by
  simp [timerEval, evaluated, hin, hlast, hq]

/-- TP starts at a rising edge while it does not run, and runs until ET reaches PT. -/
theorem timerEval_tp {start run : Bool} {et : Nat} (hstart : (!b.running && inp && !b.inLast) = start)
    (het : (if start then 0 else if b.running then grownEt b now else b.et) = et)
    (hrun : ((start || b.running) && decide (et < b.pt)) = run) :
    timerEval .tp b inp now = evaluated b inp now (if run = false ∧ inp = false then 0 else et) run run := by
  have hstill : ((start || b.running) && !decide (b.pt ≤ et)) = run := by
    rw [← hrun, ← decide_not]
    simp only [Nat.not_le]
  simp only [grownEt] at het
  simp only [timerEval, hstart, het, hstill, evaluated, Bool.and_eq_true, Bool.not_eq_true']

end

@[simp] theorem length_timerBytes (b : TimerBlock) : (timerBytes b).length = 32 := by simp [timerBytes]

section
variable {x : Issue} {rd ra rb : Fin 32} {s : State} {t : Nat} {sc : Scan}

/-- A timer on the task's own page: the block evaluated is written back, and its Q is the result. -/
theorem tmr_gives (kind : TimerKind) (func : Nat) (h : Runs x s)
    (hown : ownBytes s x.core t sc (getG (ctxOf s x.core) ra).toNat 32)
    {b : TimerBlock} {inp : Bool} (hinp : (getG (ctxOf s x.core) rb != 0) = inp)
    (hb : timerEval kind (timerOf (memBytes s.inst (getG (ctxOf s x.core) ra).toNat 32)) inp (sc.pstart % 2 ^ 64) = b) :
    ∃ u, tmr kind func x rd ra rb s = .next u ∧ BlockWritten s u x.core (getG (ctxOf s x.core) ra).toNat (timerBytes b)
      (putG (ctxOf s x.core) rd (boolD b.q)) := by
  refine ctlInstr_writes_block h hown ?_
  simp only [blockCheck_own hown, hinp, hb]
  rfl

end

section
variable (x : Issue) (rd ra rb : Fin 32) (s : State)

theorem exec_tmrTon : exec (.tmrTon x rd ra rb) s = tmr .ton 0 x rd ra rb s := rfl
theorem exec_tmrTof : exec (.tmrTof x rd ra rb) s = tmr .tof 1 x rd ra rb s := rfl
theorem exec_tmrTp : exec (.tmrTp x rd ra rb) s = tmr .tp 2 x rd ra rb s := rfl

end

/-- Settles O16: each timer writes back its block as R219 evaluates it, by the cases of IN, IN_LAST and Q for TOF. -/
theorem timerResults : Obligations.TimerResults := by
  unfold Obligations.TimerResults
  intro x rd ra rb s t sc hruns k a b now dt inp grown gives on start et1 run1 hown
  have hgives {i : Instr} {kind : TimerKind} {func et : Nat} {q run : Bool} (hexec : exec i s = tmr kind func x rd ra rb s)
      (heval : timerEval kind b inp now = evaluated b inp now et q run) : gives i et q run := by
    obtain ⟨u, hu, hinst, hctx⟩ := tmr_gives (rd := rd) kind func hruns hown decide_not.symm heval
    refine ⟨u, hexec.trans hu, ?_, fun y hy => ?_, hctx⟩ <;> rw [hinst]
    · exact memBytes_memPut_of_length s.inst _ (length_timerBytes _)
    · exact memRead_memPut_outside (by rwa [length_timerBytes])
  exact ⟨hgives (exec_tmrTon ..) timerEval_ton, fun hin => hgives (exec_tmrTof ..) (timerEval_tof_on hin),
    fun hin hlast => hgives (exec_tmrTof ..) (timerEval_tof_falls hin hlast),
    fun hin hlast hq => hgives (exec_tmrTof ..) (timerEval_tof_runs hin hlast hq),
    fun hin hlast hq => hgives (exec_tmrTof ..) (timerEval_tof_rests hin hlast hq),
    hgives (exec_tmrTp ..) (timerEval_tp rfl rfl rfl)⟩

/-! ### Edge detectors (R220) -/

theorem leNat_leBytes_bNat (b : Bool) : leNat (leBytes 4 (bNat b)) = if b then 1 else 0 := by cases b <;> decide

section
variable (x : Issue) (rd ra rb : Fin 32) (s : State)

theorem exec_edgeRise : exec (.edgeRise x rd ra rb) s = edge (fun i p => i && !p) 0 x rd ra rb s := rfl
theorem exec_edgeFall : exec (.edgeFall x rd ra rb) s = edge (fun i p => p && !i) 1 x rd ra rb s := rfl
theorem exec_edgeAny : exec (.edgeAny x rd ra rb) s = edge (fun i p => i != p) 2 x rd ra rb s := rfl

end

/-- An edge detector on the task's own page: the input is written to its block, and the edge is the result. -/
theorem edge_gives {x : Issue} {ra rb : Fin 32} {s : State} {t : Nat} {sc : Scan} {inp prev : Bool} (rd : Fin 32)
    (f : Bool → Bool → Bool) (func : Nat) (h : Runs x s) (hown : ownBytes s x.core t sc (getG (ctxOf s x.core) ra).toNat 4)
    (hinp : (getG (ctxOf s x.core) rb != 0) = inp)
    (hprev : (memLe s.inst (getG (ctxOf s x.core) ra).toNat 4).testBit 0 = prev) :
    ∃ u, edge f func x rd ra rb s = .next u ∧ BlockWritten s u x.core (getG (ctxOf s x.core) ra).toNat (leBytes 4 (bNat inp))
      (putG (ctxOf s x.core) rd (boolD (f inp prev))) := by
  refine ctlInstr_writes_block h hown ?_
  simp only [blockCheck_own hown, hinp, hprev]
  rfl

/-- Settles O17: each detector writes its input back and gives its edge. -/
theorem edgeResults : Obligations.EdgeResults := by
  unfold Obligations.EdgeResults
  intro x rd ra rb s t sc hruns k a prev inp gives hown
  have hgives {i : Instr} {f : Bool → Bool → Bool} {func : Nat} {q : Bool}
      (hexec : exec i s = edge f func x rd ra rb s) (hq : f inp prev = q) : gives i q := by
    subst hq
    obtain ⟨u, hu, hinst, hctx⟩ :=
      edge_gives rd f func hruns hown decide_not.symm (Nat.testBit_zero _)
    refine ⟨u, hexec.trans hu, ?_, fun y hy => ?_, hctx⟩ <;> rw [hinst]
    · rw [memLe, memBytes_memPut_of_length s.inst _ (length_leBytes 4 _)]
      exact leNat_leBytes_bNat inp
    · exact memRead_memPut_outside (by rwa [length_leBytes])
  exact ⟨hgives (exec_edgeRise ..) rfl, hgives (exec_edgeFall ..) rfl,
    hgives (exec_edgeAny ..) (congrFun₂ Bool.bne_eq_xor inp prev)⟩

end Sys2Proof.Machine
end

section
/-!
PROOFS. The end of a scan (09 R223, 10 R244): what SCANEND commits to its task, and that scheduling leaves a task without a scan
alone.
-/
namespace Sys2Proof.Machine

/-! ### Scheduling and a task without a scan (R244) -/

theorem taskIx_val (t : Fin 16) : taskIx t.val = t := Fin.ext (Nat.mod_eq_of_lt t.isLt)

section
variable {s : State} {t : Fin 16}

theorem taskOf_saveRunning_of_idle (h : (taskOf s t).scan = none) (c : Fin 6) : taskOf (saveRunning s c) t = taskOf s t := by
  unfold saveRunning
  split
  · rfl
  next r _ =>
    have hsaved : taskOf (modTask s (taskIx r) fun k =>
        { k with scan := k.scan.map fun sc => { sc with saved := (coreOf s c).ctx } }) t = taskOf s t := by
      by_cases hr : t = taskIx r
      · subst hr
        rw [taskOf_modTask_same, h, Option.map_none, ← h]
      · exact taskOf_modTask_ne _ _ _ _ hr
    dsimp only
    split <;> exact hsaved

/-- A scan taken up is not that of a task without one. -/
theorem taskOf_resumeScan_of_idle (h : (taskOf s t).scan = none) (c : Fin 6) (r : Nat) :
    taskOf (resumeScan s c r) t = taskOf s t := by
  unfold resumeScan
  split
  · rfl
  next sc hscan =>
    have hr : t ≠ taskIx r := by
      rintro rfl
      rw [scanOf, h] at hscan
      cases hscan
    have htaken (y : Option Scan) : taskOf (setScan s r y) t = taskOf s t := taskOf_modTask_ne _ _ _ _ hr
    exact htaken _

theorem taskOf_schedule_of_idle (h : (taskOf s t).scan = none) (c : Fin 6) : taskOf (schedule s c) t = taskOf s t := by
  have hsaved := taskOf_saveRunning_of_idle h c
  unfold schedule
  split
  · rfl
  · split
    · rfl
    · exact taskOf_resumeScan_of_idle h c _
    · split
      · rfl
      · exact (taskOf_resumeScan_of_idle (s := bump (saveRunning s c) F.SCN_CNT_PREEMPT_COUNT)
          ((congrArg Task.scan hsaved).trans h) c _).trans hsaved

end

/-- The end of a scan takes it from its task and leaves the rest of the task. -/
theorem taskOf_endScan (s : State) (t : Fin 16) : taskOf (endScan s t.val) t = { taskOf s t with scan := none } := by
  have hended : taskOf (setScan s t.val none) t = { taskOf s t with scan := none } := by
    rw [setScan, taskIx_val, taskOf_modTask_same]
  have hidle : (taskOf (setScan s t.val none) t).scan = none := congrArg Task.scan hended
  unfold endScan
  dsimp only
  split
  case isTrue held =>
    exact (taskOf_schedule_of_idle (s := modCore (setScan s t.val none) _ _) hidle _).trans hended
  case isFalse notHeld => exact (taskOf_schedule_of_idle hidle _).trans hended

/-! ### The commit (R223) -/

theorem tasks_commitRetained (s : State) (line : Nat) : (commitRetained s line).tasks = s.tasks := by
  unfold commitRetained
  dsimp only
  split
  · split <;> rfl
  · rfl

theorem tasks_foldl_commitRetained (s : State) (lines : List Nat) : (lines.foldl commitRetained s).tasks = s.tasks := by
  induction lines generalizing s with
  | nil => rfl
  | cons l ls ih => exact (ih _).trans (tasks_commitRetained s l)

theorem tasks_keepShared (s : State) (shared : List (Nat × Byte)) : (keepShared s shared).tasks = s.tasks := by
  unfold keepShared
  dsimp only
  split <;> rfl

/-- What a commit leaves of its task: the scan's calls, tickets and stores to shared pages wait for the next period start. -/
theorem taskOf_commitScan (s : State) (t : Fin 16) (sc : Scan) : ∃ m, taskOf (commitScan s t.val sc) t =
    { taskOf s t with image := m, committed := true, pendEmit := true, pendCalls := sc.calls.reverse, tickets := sc.ticket,
                      pendShared := (bufCells sc).filter fun c => c.1 < winOut } := by
  have hkept (shared : List (Nat × Byte)) :
      taskOf (keepShared ((sc.undo.map (·.line)).foldl commitRetained s) shared) t = taskOf s t :=
    taskOf_congr ((tasks_keepShared ..).trans (tasks_foldl_commitRetained ..)) t
  unfold commitScan
  dsimp only
  rw [taskIx_val, taskOf_modTask_same, hkept]
  exact ⟨_, rfl⟩

/-! ### SCANEND -/

/-- The state of a scan that has committed and whose time is shown, before it ends (R246, R269). -/
def scanCommitted (ns : Nat) (s : State) (t : Nat) (sc : Scan) : State :=
  let s := commitScan (digestUnit s 0 t (sc.period + sc.late) (taskStream s t sc)) t sc
  let s := setFi s F.SCN_TASK_TIME_VALUE t ns
  let s := setFi s F.SCN_TASK_MAX_VALUE t (max (getFi s F.SCN_TASK_MAX_VALUE t) (ns % 2 ^ 32))
  setFi (setFi s F.SCN_TASK_STAT_ERR_RUN t 0) F.SCN_TASK_STAT_STATE t tsIdle

theorem exec_scanend {x : Issue} {s : State} {t : Nat} {sc : Scan} (ns : Nat) (h : Runs x s)
    (htask : scanTask s x.core = some t) (hscan : scanOf s t = some sc) :
    exec (.scanend x ns) s = .next (endScan (scanCommitted ns s t sc) t) := by
  obtain ⟨hlive, hfault⟩ := h
  have hcount (u : State) : countCorrected u x = u := by simp [countCorrected, hfault]
  have hmet : faultExc s x none = none := by simp [faultExc, hfault]
  change execScanend x ns s = _
  simp only [execScanend, hlive, hmet, htask, hscan, hcount]
  rfl

theorem taskOf_scanCommitted (ns : Nat) (s : State) (t : Fin 16) (sc : Scan) :
    taskOf (scanCommitted ns s t.val sc) t =
      taskOf (commitScan (digestUnit s 0 t.val (sc.period + sc.late) (taskStream s t.val sc)) t.val sc) t := rfl

/-- Settles O23: the commit is of the scan's own task, and the end of the scan takes the scan alone from it. -/
theorem scanEndCommits : Obligations.ScanEndCommits := by
  unfold Obligations.ScanEndCommits
  intro x ns s t sc hruns htask hscan
  obtain ⟨m, hcommit⟩ := taskOf_commitScan (digestUnit s 0 t.val (sc.period + sc.late) (taskStream s t.val sc)) t sc
  have hend := taskOf_endScan (scanCommitted ns s t.val sc) t
  rw [taskOf_scanCommitted, hcommit] at hend
  refine ⟨_, exec_scanend ns hruns htask hscan, ?_⟩
  simp only [scanOf, taskIx_val, hend, and_self]

end Sys2Proof.Machine
end

section
/-!
PROOFS. The tag instructions (09 R211 to R215): a statement that fails, with the state at which it does.
-/
namespace Sys2Proof.Machine

/-- An output tag of one byte that task 0 owns. -/
def byteTag : TagRec := { tag := 0, typ := 0, qn := 0, out := true, owner := 0, off := 0 }

/-- A scan whose buffer holds the line of the tag, without a byte of it, behind a line that is not the tag's and yet lists its
byte as 1. -/
def strayScan : Scan :=
  { lateScan with buf := [{ line := 0, cells := [(winOut, 1)] }, { line := lineOf winOut, cells := [] }] }

/-- Core 0 runs that scan of task 0. -/
def strayBuffer : State :=
  let p : Program := { lateProgram with codeLen := 8, tags := [byteTag] }
  modCore (setScan { State.reset with runtimeUp := true, prog := some p } 0 (some strayScan)) 0 fun k =>
    { k with stat := 0, running := some 0 }

/-- The byte of the tag as the scan of task 0 reads it in the state that a command answers. -/
def tagReadBack : Host.Outcome State Fault Refusal → Option (List Byte)
  | .next u => (scanOf u 0).map fun sc => scanBytes u 0 sc (winOut + byteTag.off) 1
  | _ => none

/-- STT to the tag is carried out. -/
theorem strayBuffer_runs : Runs ⟨0, .none⟩ strayBuffer ∧ scanTask strayBuffer 0 = some 0 ∧
    scanOf strayBuffer 0 = some strayScan ∧ tagOf strayBuffer 0 = some byteTag ∧
    (∀ j < 1, tagAt strayBuffer true (byteTag.off + j) = some byteTag) ∧
    fetchExc strayBuffer 0 ((ctxOf strayBuffer 0).pc + 4) = none := by
  unfold Runs
  decide +kernel

/-- STT of g0 stores 0, and the scan goes on to read 1. -/
theorem strayBuffer_readBack : tagReadBack (exec (.stt ⟨0, .none⟩ 0 0 0) strayBuffer) = some [1] := by decide +kernel

/-- Refutes O15: the statement leaves the scan's buffer free, and where a line that stands before the tag's lists a byte outside
itself, a load finds that byte before the one that STT has stored to the tag's line. -/
theorem not_tagResults : ¬ Obligations.TagResults := by
  intro htags
  obtain ⟨hruns, htask, hscan, htag, hbytes, hfetch⟩ := strayBuffer_runs
  obtain ⟨-, -, -, -, -, store⟩ := htags ⟨0, .none⟩ 0 0 0 0 strayBuffer 0 strayScan byteTag hruns htask hscan (by decide)
    (by decide) htag (by decide)
  obtain ⟨u, hu, ⟨sc, hsc, -, hread, -, -⟩⟩ :=
    store rfl rfl rfl hbytes (by decide) (by decide) hfetch
  have hback := strayBuffer_readBack
  rw [hu, tagReadBack, hsc, Option.map_some, Option.some.injEq] at hback
  have hsame := hread.symm.trans hback
  exact absurd hsame (by decide)

end Sys2Proof.Machine
end

section
/-!
PROOFS. The answers of engine calls (09 R226, R230, R231, R233): the record that each call posts, and its effect.
-/
namespace Sys2Proof.Machine

/-! ### Records (R230) -/

/-- A record is posted to a task's records, whatever else changes. -/
theorem Posted.congr {s t u v : State} {task : Fin 16} {p : PostItem} (h : Posted s u task p) (hs : t.tasks = s.tasks)
    (hu : v.tasks = u.tasks) : Posted t v task p := by
  simp only [Posted, taskOf_congr hs, taskOf_congr hu]
  exact h

theorem getFi_addPost (s : State) (task : Nat) (p : PostItem) (f : Fld) (i : Nat) :
    getFi (addPost s task p) f i = getFi s f i := rfl

theorem posted_addPost (s : State) (task : Fin 16) (p : PostItem) : Posted s (addPost s task.val p) task p := by
  rw [Posted, addPost, taskIx_val, taskOf_modTask_same]

section
variable (s : State) (task : Fin 16) (ticket engine fn : Nat)

theorem posted_reply_accepted : Posted s (reply s task.val ticket engine fn 0) task (recordOf ticket engine fn 0 0 0) :=
  posted_addPost ..

theorem posted_reply_refused {code : Nat} (h : code ≠ 0) :
    Posted s (reply s task.val ticket engine fn code) task (recordOf ticket engine fn 2 code 0) := by
  rw [reply, if_neg h]
  exact posted_addPost ..

end

theorem callCmd_of_run {s : State} (h : s.runState = true) (f : State → State) : callCmd s f = .next (f s) := by
  simp [callCmd, h]

section
variable {task : Fin 16} {ticket : BitVec 16} {body : List Byte} {s : State}

section
variable (task : Fin 16) (ticket : BitVec 16) (body : List Byte) (h : s.runState = true)
include h

theorem exec_nsaInstall : exec (.nsaInstall task ticket body) s = .next (nsaInstall s task.val ticket.toNat body) :=
  callCmd_of_run h fun s => nsaInstall s task.val ticket.toNat body
theorem exec_nsaStudy : exec (.nsaStudy task ticket body) s = .next (nsaStudy s task.val ticket.toNat body) :=
  callCmd_of_run h fun s => nsaStudy s task.val ticket.toNat body
theorem exec_nsaWriteUser : exec (.nsaWriteUser task ticket body) s = .next (nsaWriteUser s task.val ticket.toNat body) :=
  callCmd_of_run h fun s => nsaWriteUser s task.val ticket.toNat body
theorem exec_nsaReadUser : exec (.nsaReadUser task ticket body) s = .next (nsaReadUser s task.val ticket.toNat body) :=
  callCmd_of_run h fun s => nsaReadUser s task.val ticket.toNat body
theorem exec_nsaMask : exec (.nsaMask task ticket body) s = .next (nsaMask s task.val ticket.toNat body) :=
  callCmd_of_run h fun s => nsaMask s task.val ticket.toNat body
theorem exec_lpeLoop : exec (.lpeLoop task ticket body) s = .next (lpeLoop s task.val ticket.toNat body) :=
  callCmd_of_run h fun s => lpeLoop s task.val ticket.toNat body
theorem exec_lpeGroup : exec (.lpeGroup task ticket body) s = .next (lpeGroup s task.val ticket.toNat body) :=
  callCmd_of_run h fun s => lpeGroup s task.val ticket.toNat body
theorem exec_lpeMode : exec (.lpeMode task ticket body) s = .next (lpeMode s task.val ticket.toNat body) :=
  callCmd_of_run h fun s => lpeMode s task.val ticket.toNat body
theorem exec_mtrConfig : exec (.mtrConfig task ticket body) s = .next (mtrConfig s task.val ticket.toNat body) :=
  callCmd_of_run h fun s => mtrConfig s task.val ticket.toNat body
theorem exec_chkRun : exec (.chkRun task ticket body) s = .next (chkRun s task.val ticket.toNat body) :=
  callCmd_of_run h fun s => chkRun s task.val ticket.toNat body
theorem exec_sesSend : exec (.sesSend task ticket body) s = .next (sesSendCall s task.val ticket.toNat body) :=
  callCmd_of_run h fun s => sesSendCall s task.val ticket.toNat body
theorem exec_sesRead : exec (.sesRead task ticket body) s = .next (sesReadCall s task.val ticket.toNat body) :=
  callCmd_of_run h fun s => sesReadCall s task.val ticket.toNat body

end

/-! ### Calls to the solver (R53, R61, R62, R231, R232) -/

theorem nsaInstall_accepted (hcode : descRefuse s (bodyWords body) [0, 2, 5] = 0) :
    Posted s (nsaInstall s task.val ticket.toNat body) task (recordOf ticket.toNat 0 0 0 0 0) ∧
      (nsaInstall s task.val ticket.toNat body).nsa =
        { s.nsa with pendDesc := s.nsa.pendDesc ++ [(nowNs s, bodyWords body)] } := by
  simp only [nsaInstall, hcode, if_true]
  exact ⟨posted_reply_accepted .., rfl⟩

theorem nsaInstall_refused (hcode : descRefuse s (bodyWords body) [0, 2, 5] ≠ 0) :
    Posted s (nsaInstall s task.val ticket.toNat body) task
        (recordOf ticket.toNat 0 0 2 (descRefuse s (bodyWords body) [0, 2, 5]) 0) ∧
      (nsaInstall s task.val ticket.toNat body).nsa = s.nsa := by
  have hposted := posted_reply_refused s task ticket.toNat 0 0 hcode
  simp only [nsaInstall, hcode, if_false]
  split
  · exact ⟨hposted, rfl⟩
  · exact ⟨hposted, rfl⟩

theorem nsaStudy_accepted (hcode : descRefuse s (bodyWords body) [1] = 0) :
    Posted s (nsaStudy s task.val ticket.toNat body) task (recordOf ticket.toNat 0 1 0 0 0) ∧
      (∃ j, (nsaStudy s task.val ticket.toNat body).nsa.studies = s.nsa.studies ++ [j] ∧ j.desc = bodyWords body ∧
        j.ticket = ticket.toNat ∧ j.task = task.val) ∧
      getF (nsaStudy s task.val ticket.toNat body) F.NSA_STATUS_STUDY_BUSY = 1 := by
  simp only [nsaStudy, hcode, ne_eq, not_true_eq_false, if_false]
  refine ⟨posted_reply_accepted .., ⟨_, rfl, ?_, rfl, rfl⟩, getF_setF_same _ _ _ ⟨by decide, by decide⟩⟩
  split <;> rfl

theorem nsaStudy_refused (hcode : descRefuse s (bodyWords body) [1] ≠ 0) :
    Posted s (nsaStudy s task.val ticket.toNat body) task (recordOf ticket.toNat 0 1 2 (descRefuse s (bodyWords body) [1]) 0) ∧
      (nsaStudy s task.val ticket.toNat body).nsa = s.nsa := by
  rw [nsaStudy, if_pos hcode]
  exact ⟨posted_reply_refused _ _ _ _ _ hcode, rfl⟩

/-- The bytes of a body from the second word on, written into a memory. -/
theorem memRead_memPut_drop (m : Mem) (a x k : Nat) (bs : List Byte) : memRead (memPut m a (bs.drop k)) x =
    if a ≤ x ∧ x < a + (bs.length - k) then bs.getD (x - a + k) 0 else memRead m x := by
  simp only [memRead_memPut, List.length_drop, List.getD_eq_getElem?_getD, List.getElem?_drop, Nat.add_comm k]

/-- WRITE_USER by its code: 5 for a word 1 that is not zero, 6 for a range that does not fit. -/
theorem nsaWriteUser_eq {code : Nat} (hcode : (if bodyW body 1 ≠ 0 then 5
      else if bodyW body 0 % 4 ≠ 0 || userSize < bodyW body 0 + (body.drop 8).length then 6 else 0) = code) :
    nsaWriteUser s task.val ticket.toNat body = if code = 0
      then { reply s task.val ticket.toNat 0 2 code with mem := memPut s.mem (userBase + bodyW body 0) (body.drop 8) }
      else reply s task.val ticket.toNat 0 2 code := by
  subst hcode
  rfl

theorem nsaWriteUser_accepted (hzero : bodyW body 1 = 0) (halign : bodyW body 0 % 4 = 0)
    (hend : bodyW body 0 + (body.length - 8) ≤ userSize) :
    Posted s (nsaWriteUser s task.val ticket.toNat body) task (recordOf ticket.toNat 0 2 0 0 0) ∧
      (nsaWriteUser s task.val ticket.toNat body).mem = memPut s.mem (userBase + bodyW body 0) (body.drop 8) := by
  rw [nsaWriteUser_eq (code := 0) (by simp [hzero, halign, hend]), if_pos rfl]
  exact ⟨posted_reply_accepted .., rfl⟩

theorem nsaWriteUser_refused {code : Nat} (hcode : (if bodyW body 1 ≠ 0 then 5
      else if bodyW body 0 % 4 ≠ 0 || userSize < bodyW body 0 + (body.drop 8).length then 6 else 0) = code) (h : code ≠ 0) :
    Posted s (nsaWriteUser s task.val ticket.toNat body) task (recordOf ticket.toNat 0 2 2 code 0) ∧
      (nsaWriteUser s task.val ticket.toNat body).mem = s.mem := by
  rw [nsaWriteUser_eq hcode, if_neg h]
  exact ⟨posted_reply_refused _ _ _ _ _ h, rfl⟩

/-- What READ_USER asks of an offset, a length and a destination (R231). -/
def readUserFits (off len dest : Nat) : Prop :=
  off % 4 = 0 ∧ len % 4 = 0 ∧ 4 ≤ len ∧ len ≤ 32768 ∧ off + len ≤ userSize ∧ dest % 4 = 0 ∧ 0x8000 ≤ dest ∧
    dest + len ≤ 0x10000

theorem readUserFits_iff (off len dest : Nat) : readUserFits off len dest ↔
    (off % 4 ≠ 0 || len % 4 ≠ 0 || len < 4 || 32768 < len || userSize < off + len || dest % 4 ≠ 0 || dest < 0x8000 ||
      0x10000 < dest + len) = false := by
  simp only [readUserFits, Bool.or_eq_false_iff, decide_eq_false_iff_not, not_not, Nat.not_lt, and_assoc]

theorem nsaReadUser_done (hzero : bodyW body 3 = 0) (hfits : readUserFits (bodyW body 0) (bodyW body 1) (bodyW body 2)) :
    (nsaReadUser s task.val ticket.toNat body).mem = s.mem ∧
      Posted s (nsaReadUser s task.val ticket.toNat body) task
        { (recordOf ticket.toNat 0 3 1 0 (bodyW body 1)) with
          dest := bodyW body 2, bytes := memBytes s.mem (0xE1000000 + bodyW body 0) (bodyW body 1) } := by
  rw [nsaReadUser, if_neg (not_not.2 hzero), if_neg (ne_true_of_eq_false ((readUserFits_iff ..).1 hfits))]
  exact ⟨rfl, posted_addPost ..⟩

theorem nsaReadUser_refused_words (hzero : bodyW body 3 ≠ 0) :
    Posted s (nsaReadUser s task.val ticket.toNat body) task (recordOf ticket.toNat 0 3 2 5 0) ∧
      (nsaReadUser s task.val ticket.toNat body).mem = s.mem := by
  rw [nsaReadUser, if_pos hzero]
  exact ⟨posted_reply_refused _ _ _ _ _ (by decide), rfl⟩

theorem nsaReadUser_refused_range (hzero : bodyW body 3 = 0)
    (hfits : ¬ readUserFits (bodyW body 0) (bodyW body 1) (bodyW body 2)) :
    Posted s (nsaReadUser s task.val ticket.toNat body) task (recordOf ticket.toNat 0 3 2 6 0) ∧
      (nsaReadUser s task.val ticket.toNat body).mem = s.mem := by
  rw [readUserFits_iff, Bool.not_eq_false] at hfits
  rw [nsaReadUser, if_neg (not_not.2 hzero), if_pos hfits]
  exact ⟨posted_reply_refused _ _ _ _ _ (by decide), rfl⟩

theorem nsaMask_accepted (hok : maskRangeOk (bodyW body 0) (bodyW body 1) (body.length / 4 - 2) = true) :
    Posted s (nsaMask s task.val ticket.toNat body) task (recordOf ticket.toNat 0 4 0 0 0) ∧
      (nsaMask s task.val ticket.toNat body).nsa.mask = s.nsa.mask ∧
      (nsaMask s task.val ticket.toNat body).nsa.pendMask =
        s.nsa.pendMask ++ [(nowNs s, bodyW body 0, maskBits ((bodyWords body).drop 2))] := by
  simp only [nsaMask, hok, if_true]
  exact ⟨posted_reply_accepted .., rfl, rfl⟩

theorem nsaMask_refused (hok : maskRangeOk (bodyW body 0) (bodyW body 1) (body.length / 4 - 2) = false) :
    Posted s (nsaMask s task.val ticket.toNat body) task (recordOf ticket.toNat 0 4 2 6 0) ∧
      (nsaMask s task.val ticket.toNat body).nsa = s.nsa := by
  simp only [nsaMask, hok, Bool.false_eq_true, if_false]
  exact ⟨posted_reply_refused _ _ _ _ _ (by decide), rfl⟩

/-! ### Calls to the loop engine (R119, R125, R226) -/

theorem posted_lpeReply_accepted (s : State) (task : Fin 16) (ticket fn : Nat) :
    Posted s (lpeReply s task.val ticket fn 0) task (recordOf ticket 2 fn 0 0 0) := posted_reply_accepted ..

/-- A refusal of the loop engine is posted with its code, is shown, and changes no loop and no group. -/
theorem lpeReply_refused (s : State) (task : Fin 16) (ticket fn : Nat) {code : Nat} (h : code ≠ 0) :
    Posted s (lpeReply s task.val ticket fn code) task (recordOf ticket 2 fn 2 code 0) ∧
      (lpeReply s task.val ticket fn code).lpe = s.lpe ∧
      getF (lpeReply s task.val ticket fn code) F.LPE_EVENTS_REFUSED = 1 := by
  rw [lpeReply, if_neg h]
  exact ⟨posted_reply_refused s task ticket 2 fn h, rfl, getF_setF_same _ _ _ ⟨by decide, by decide⟩⟩

theorem alGet?_loops_showPeak_modLoop (s : State) (i : Nat) (f : Loop → Loop) :
    alGet? (showPeak (modLoop s i f)).lpe.loops i = some (f ((alGet? s.lpe.loops i).getD Loop.blank)) :=
  (alGet?_alPut ..).trans (if_pos rfl)

theorem lpeLoop_accepted (hcode : loopRefuse s (bodyW body 0) (bodyW body 1) ((bodyWords body).drop 2) = 0) :
    Posted s (lpeLoop s task.val ticket.toNat body) task (recordOf ticket.toNat 2 0 0 0 0) ∧
      ∃ l, alGet? (lpeLoop s task.val ticket.toNat body).lpe.loops (bodyW body 0) = some l ∧
        l.pendDesc = some (tickNow s, (bodyWords body).drop 2) ∧ l.pendMode = none := by
  simp only [lpeLoop, hcode, if_true]
  exact ⟨posted_lpeReply_accepted .., _, alGet?_loops_showPeak_modLoop .., rfl, rfl⟩

theorem lpeLoop_refused (hcode : loopRefuse s (bodyW body 0) (bodyW body 1) ((bodyWords body).drop 2) ≠ 0) :
    lpeLoop s task.val ticket.toNat body =
      lpeReply s task.val ticket.toNat 0 (loopRefuse s (bodyW body 0) (bodyW body 1) ((bodyWords body).drop 2)) := by
  simp only [lpeLoop, hcode, if_false]

theorem lpeGroup_accepted (hcode : groupRefuse s (bodyW body 0) (bodyW body 1) ((bodyWords body).drop 2) = 0) :
    Posted s (lpeGroup s task.val ticket.toNat body) task (recordOf ticket.toNat 2 1 0 0 0) ∧
      ∃ g, alGet? (lpeGroup s task.val ticket.toNat body).lpe.groups (bodyW body 0) = some g ∧
        g.pend = some (tickNow s, lw ((bodyWords body).drop 2) 0) := by
  simp only [lpeGroup, hcode, if_true]
  exact ⟨posted_lpeReply_accepted .., _, (alGet?_alPut ..).trans (if_pos rfl), rfl⟩

theorem lpeGroup_refused (hcode : groupRefuse s (bodyW body 0) (bodyW body 1) ((bodyWords body).drop 2) ≠ 0) :
    lpeGroup s task.val ticket.toNat body =
      lpeReply s task.val ticket.toNat 1 (groupRefuse s (bodyW body 0) (bodyW body 1) ((bodyWords body).drop 2)) := by
  simp only [lpeGroup, hcode, if_false]

theorem lpeMode_accepted (hcode : modeRefuse s (bodyW body 0) (bodyW body 1) = 0) :
    Posted s (lpeMode s task.val ticket.toNat body) task (recordOf ticket.toNat 2 2 0 0 0) ∧
      ∃ l, alGet? (lpeMode s task.val ticket.toNat body).lpe.loops (bodyW body 0) = some l ∧
        l.pendMode = some (tickNow s, bodyW body 1) := by
  simp only [lpeMode, hcode, if_true]
  exact ⟨posted_lpeReply_accepted .., _, alGet?_loops_showPeak_modLoop .., rfl⟩

theorem lpeMode_refused (hcode : modeRefuse s (bodyW body 0) (bodyW body 1) ≠ 0) :
    lpeMode s task.val ticket.toNat body =
      lpeReply s task.val ticket.toNat 2 (modeRefuse s (bodyW body 0) (bodyW body 1)) := by
  simp only [lpeMode, hcode, if_false]

/-! ### Metering records (R156, R157) -/

/-- A record accepted now waits, and CFG_PENDING shows it. -/
def recordQueued (s : State) (kind ix : Nat) (w : List Nat) : State :=
  setF { s with mtr := { s.mtr with pend := s.mtr.pend ++ [(nowNs s, kind, ix, w)], serial := s.mtr.serial + 1 } }
    F.MTR_STATUS_CFG_PENDING 1

theorem mtrConfig_accepted
    (hcode : mtrRefuse s (bodyW body 0 / 65536) (bodyW body 0 % 65536) (bodyW body 1) ((bodyWords body).drop 2) = 0) :
    Posted s (mtrConfig s task.val ticket.toNat body) task (recordOf ticket.toNat 3 0 0 0 0) ∧
      getF (mtrConfig s task.val ticket.toNat body) F.MTR_STATUS_CFG_PENDING = 1 ∧
      (mtrConfig s task.val ticket.toNat body).mtr.pend =
        s.mtr.pend ++ [(nowNs s, bodyW body 0 / 65536, bodyW body 0 % 65536, (bodyWords body).drop 2)] := by
  have heq : mtrConfig s task.val ticket.toNat body = reply (forwardBody
      (recordQueued s (bodyW body 0 / 65536) (bodyW body 0 % 65536) ((bodyWords body).drop 2)) 0x09 (configAt s) body)
      task.val ticket.toNat 3 0 0 := by
    simp only [mtrConfig, mtrSubmit, hcode, ne_eq, not_true_eq_false, if_false]
    rfl
  have hforward := MessagesOnly.after_forwardBody
    (.refl (recordQueued s (bodyW body 0 / 65536) (bodyW body 0 % 65536) ((bodyWords body).drop 2))) 0x09 (configAt s) body
  rw [heq]
  exact ⟨(posted_reply_accepted ..).congr hforward.tasks.symm rfl,
    (hforward.getF _).trans (getF_setF_same _ _ _ ⟨by decide, by decide⟩), (congrArg Mtr.pend hforward.mtr :)⟩

theorem mtrConfig_refused {c : Nat}
    (hcode : mtrRefuse s (bodyW body 0 / 65536) (bodyW body 0 % 65536) (bodyW body 1) ((bodyWords body).drop 2) = c)
    (h : c ≠ 0) :
    Posted s (mtrConfig s task.val ticket.toNat body) task (recordOf ticket.toNat 3 0 2 c 0) ∧
      (mtrConfig s task.val ticket.toNat body).mtr = s.mtr ∧
      getF (mtrConfig s task.val ticket.toNat body) F.MTR_EVENTS_CFG_REFUSED = 1 := by
  simp only [mtrConfig, mtrSubmit, hcode, h, ne_eq, not_false_eq_true, if_true]
  exact ⟨posted_reply_refused (setF s F.MTR_EVENTS_CFG_REFUSED 1) task ticket.toNat 3 0 h, rfl,
    getF_setF_same _ _ _ ⟨by decide, by decide⟩⟩

/-! ### Check-value units (R321 to R324, R336) -/

theorem regsOnly_pipCheck (s : State) (n : Nat) (data : List Byte) : RegsOnly s (pipCheck s n data).1 := by
  unfold pipCheck
  dsimp only
  split
  · exact .refl s
  split
  · exact .refl s
  split
  · split <;> exact .refl s
  split <;> exact .refl s

theorem regsOnly_showChk (s : State) : RegsOnly s (showChk s) := .refl s

/-- The job of a unit, before what CHK_STATUS mirrors is shown. -/
def chkShown (s : State) (n res : Nat) (mis : Bool) : State :=
  let s := if mis then setFi s F.CHK_STAT_MISMATCH n 1 else s
  setFi (setFi (setFi s F.CHK_RES_LO_RES n res) F.CHK_RES_HI_RES n (res / 2 ^ 32)) F.CHK_STAT_DONE n 1

theorem chkJob_eq (s : State) (n : Nat) (data : List Byte) (expect : Nat) {res : Nat} {mis : Bool}
    (hres : crcOf (chkParams s n) data = res)
    (hmis : (getFi s F.CHK_CFG_CMP_EN n = 1 && res != expect % 2 ^ getFi s F.CHK_CFG_WIDTH n) = mis) :
    ∃ rep skip, chkJob s n data expect =
      (showChk (chkShown (pipCheck s n data).1 n res mis), res, bNat mis + 2 * bNat rep + 4 * bNat skip) := by
  subst hres hmis
  rcases hpip : pipCheck s n data with ⟨t, rep, skip⟩
  refine ⟨rep, skip, ?_⟩
  simp only [chkJob, hpip]
  rfl

theorem regsOnly_chkShown (s : State) (n res : Nat) (mis : Bool) : RegsOnly s (showChk (chkShown s n res mis)) := by
  have hmis : RegsOnly s (if mis then setFi s F.CHK_STAT_MISMATCH n 1 else s) :=
    .after_ite (.after_setFi (.refl s)) (.refl s)
  exact (RegsOnly.after_setFi (.after_setFi (.after_setFi hmis))).trans (regsOnly_showChk _)

/-- A field of a unit lies outside the register of the mirrors. -/
theorem getFi_showChk (s : State) (f : Fld) (n : Nat) (h : f.at n ≠ F.CHK_STATUS_MISMATCH.addr) :
    getFi (showChk s) f n = getFi s f n :=
  (getFi_setFi_ne _ F.CHK_STATUS_BUSY f 0 n _ h).trans (getFi_setFi_ne _ F.CHK_STATUS_MISMATCH f 0 n _ h)

/-- A unit shows the end of its job and the check value (R322). -/
theorem chkShown_shows (s : State) (n res : Nat) (mis : Bool) :
    getFi (showChk (chkShown s n res mis)) F.CHK_STAT_DONE n = 1 ∧
      getFi (showChk (chkShown s n res mis)) F.CHK_RES_LO_RES n = res % 2 ^ 32 ∧
      getFi (showChk (chkShown s n res mis)) F.CHK_RES_HI_RES n = res / 2 ^ 32 % 2 ^ 32 := by
  have hstat : F.CHK_STAT_DONE.at n = 0xF00A013C + 0x40 * n := rfl
  have hlo : F.CHK_RES_LO_RES.at n = 0xF00A0134 + 0x40 * n := rfl
  have hhi : F.CHK_RES_HI_RES.at n = 0xF00A0138 + 0x40 * n := rfl
  have hstatus : F.CHK_STATUS_MISMATCH.addr = 0xF00A0004 := rfl
  refine ⟨?done, ?lo, ?hi⟩ <;> rw [getFi_showChk _ _ _ (by omega), chkShown]
  case done => exact getFi_setFi_same _ _ _ _ ⟨by decide, by decide⟩
  case lo =>
    rw [getFi_setFi_ne _ _ _ _ _ _ (by omega), getFi_setFi_ne _ _ _ _ _ _ (by omega)]
    exact getFi_setFi_same _ _ _ _ ⟨by decide, by decide⟩
  case hi =>
    rw [getFi_setFi_ne _ _ _ _ _ _ (by omega)]
    exact getFi_setFi_same _ _ _ _ ⟨by decide, by decide⟩

/-- What RUN asks of a unit (R321): a width it can run with, PROG, and in a pair one of the first six. -/
def unitUsable (s : State) (n : Nat) : Prop :=
  chkWidthOk s n = true ∧ getFi s F.CHK_CFG_PROG n ≠ 0 ∧ (isPair s = false ∨ n < 6)

theorem unitUsable_iff (s : State) (n : Nat) : unitUsable s n ↔
    (!chkWidthOk s n || getFi s F.CHK_CFG_PROG n = 0 || (isPair s && 6 ≤ n)) = false := by
  simp only [unitUsable, Bool.or_eq_false_iff, Bool.and_eq_false_iff, Bool.not_eq_false', decide_eq_false_iff_not, Nat.not_le,
    and_assoc, ne_eq]

theorem chkRun_refused_unit (hunit : ¬ unitUsable s (bodyW body 0 % 8)) :
    chkRun s task.val ticket.toNat body = reply s task.val ticket.toNat 4 0 1 := by
  rw [unitUsable_iff, Bool.not_eq_false] at hunit
  rw [chkRun, if_pos hunit]

theorem chkRun_refused_words (hunit : unitUsable s (bodyW body 0 % 8)) (hwords : ¬ (bodyW body 0 < 8 ∧ bodyW body 1 = 0)) :
    chkRun s task.val ticket.toNat body = reply s task.val ticket.toNat 4 0 2 := by
  have hbad : (8 ≤ bodyW body 0 || bodyW body 1 ≠ 0) = true := by
    simp only [Bool.or_eq_true, decide_eq_true_eq]
    omega
  rw [chkRun, if_neg (ne_true_of_eq_false ((unitUsable_iff ..).1 hunit)), if_pos hbad]

/-- RUN of a usable unit is done at once: the unit shows its check value, and the record carries it (R324). -/
theorem chkRun_done {n res : Nat} (hn : bodyW body 0 % 8 = n) (hres : crcOf (chkParams s n) (body.drop 16) = res)
    (hunit : unitUsable s n) (hlow : bodyW body 0 < 8) (hzero : bodyW body 1 = 0) :
    getFi (chkRun s task.val ticket.toNat body) F.CHK_STAT_DONE n = 1 ∧
      getFi (chkRun s task.val ticket.toNat body) F.CHK_RES_LO_RES n = res % 2 ^ 32 ∧
      getFi (chkRun s task.val ticket.toNat body) F.CHK_RES_HI_RES n = res / 2 ^ 32 % 2 ^ 32 ∧
      ∃ code, (code % 2 = 1 ↔ getFi s F.CHK_CFG_CMP_EN n = 1 ∧
          res ≠ (bodyW body 2 + bodyW body 3 * 2 ^ 32) % 2 ^ getFi s F.CHK_CFG_WIDTH n) ∧
        Posted s (chkRun s task.val ticket.toNat body) task (recordOf ticket.toNat 4 0 1 code res) := by
  have hgood : ¬ (8 ≤ bodyW body 0 || bodyW body 1 ≠ 0) = true := by simp [hzero, Nat.not_le.2 hlow]
  obtain ⟨rep, skip, hjob⟩ := chkJob_eq s n (body.drop 16) (bodyW body 2 + bodyW body 3 * 2 ^ 32) hres rfl
  generalize hmis : (getFi s F.CHK_CFG_CMP_EN n = 1 &&
    res != (bodyW body 2 + bodyW body 3 * 2 ^ 32) % 2 ^ getFi s F.CHK_CFG_WIDTH n : Bool) = mis at hjob
  have heq : chkRun s task.val ticket.toNat body = addPost (showChk (chkShown (pipCheck s n (body.drop 16)).1 n res mis)) task.val
      (recordOf ticket.toNat 4 0 1 (bNat mis + 2 * bNat rep + 4 * bNat skip) res) := by
    rw [chkRun, hn, if_neg (ne_true_of_eq_false ((unitUsable_iff ..).1 hunit)), if_neg hgood, hjob]
  have hregs := (regsOnly_pipCheck s n (body.drop 16)).trans (regsOnly_chkShown _ n res mis)
  obtain ⟨hdone, hlo, hhi⟩ := chkShown_shows (pipCheck s n (body.drop 16)).1 n res mis
  have hodd : (bNat mis + 2 * bNat rep + 4 * bNat skip) % 2 = 1 ↔ mis = true := by
    have hlowest : (bNat mis + 2 * bNat rep + 4 * bNat skip) % 2 = bNat mis % 2 := by omega
    rw [hlowest]
    cases mis <;> decide
  rw [heq, getFi_addPost, getFi_addPost, getFi_addPost]
  refine ⟨hdone, hlo, hhi, _, hodd.trans ?_, (posted_addPost ..).congr hregs.tasks.symm rfl⟩
  rw [← hmis]
  simp

/-! ### Calls to the session engine (R317, R318) -/

/-- A datagram of a session put into the transmit queue under its next SEQ. -/
def datagramQueued (s : State) (n : Nat) (payload : List Byte) : State :=
  let x := sesOf s n
  let s := noteTx (putSes s n { x with txSeq := x.txSeq + 1 }) x.subId x.epoch (x.txSeq + 1)
  { s with ses := { s.ses with txq := s.ses.txq ++ [(n, x.subId, x.epoch, x.txSeq + 1, payload)] } }

/-- SEND by its code: 1 for a session that is not ADMITTED, 2 for a word out of range. -/
theorem sesSendCall_eq {n code : Nat} (hn : bodyW body 0 % 4096 = n) (hcode : (if (sesOf s n).state ≠ ssADMITTED then 1
      else if 4096 ≤ bodyW body 0 || bodyW body 1 ≠ 0 then 2 else 0) = code) :
    sesSendCall s task.val ticket.toNat body =
      if code ≠ 0 || !holds s then reply s task.val ticket.toNat 5 0 code
      else if 256 ≤ s.ses.txq.length then
        setF (bump (reply s task.val ticket.toNat 5 0 code) F.SES_CNT_TXQ_FULL_COUNT) F.SES_EVENTS_TXQ_FULL 1
      else datagramQueued (reply s task.val ticket.toNat 5 0 code) n (body.drop 8) := by
  subst hn hcode
  rfl

theorem sesSendCall_refused {code : Nat} (hcode : (if (sesOf s (bodyW body 0 % 4096)).state ≠ ssADMITTED then 1
      else if 4096 ≤ bodyW body 0 || bodyW body 1 ≠ 0 then 2 else 0) = code) (h : code ≠ 0) :
    Posted s (sesSendCall s task.val ticket.toNat body) task (recordOf ticket.toNat 5 0 2 code 0) ∧
      (sesSendCall s task.val ticket.toNat body).ses = s.ses := by
  rw [sesSendCall_eq rfl hcode, if_pos (by simp [h])]
  exact ⟨posted_reply_refused _ _ _ _ _ h, rfl⟩

/-- SEND to an admitted session: the holder of the token queues the datagram, or counts it where the queue is full. -/
theorem sesSendCall_accepted {x : Session} (hx : sesOf s (bodyW body 0 % 4096) = x) (hlow : bodyW body 0 < 4096)
    (hzero : bodyW body 1 = 0) (hstate : x.state = ssADMITTED) :
    Posted s (sesSendCall s task.val ticket.toNat body) task (recordOf ticket.toNat 5 0 0 0 0) ∧
      (holds s = true → s.ses.txq.length < 256 → (sesSendCall s task.val ticket.toNat body).ses.txq =
        s.ses.txq ++ [(bodyW body 0, x.subId, x.epoch, x.txSeq + 1, body.drop 8)]) ∧
      (holds s = true → 256 ≤ s.ses.txq.length → (sesSendCall s task.val ticket.toNat body).ses = s.ses ∧
        getF (sesSendCall s task.val ticket.toNat body) F.SES_CNT_TXQ_FULL_COUNT =
          (getF s F.SES_CNT_TXQ_FULL_COUNT + 1) % 2 ^ 32) ∧
      (holds s = false → (sesSendCall s task.val ticket.toNat body).ses = s.ses) := by
  have hn : bodyW body 0 % 4096 = bodyW body 0 := Nat.mod_eq_of_lt hlow
  rw [hn] at hx
  subst hx
  have hposted := posted_reply_accepted s task ticket.toNat 5 0
  have heq := sesSendCall_eq (s := s) (task := task) (ticket := ticket) (code := 0) hn
    (by simp [hstate, hzero, Nat.not_le.2 hlow])
  rw [heq]
  by_cases hholds : holds s = true
  · by_cases hfull : 256 ≤ s.ses.txq.length
    · rw [if_neg (by simp [hholds]), if_pos hfull]
      have hcount : getF (setF (bump (reply s task.val ticket.toNat 5 0 0) F.SES_CNT_TXQ_FULL_COUNT) F.SES_EVENTS_TXQ_FULL 1)
          F.SES_CNT_TXQ_FULL_COUNT = (getF s F.SES_CNT_TXQ_FULL_COUNT + 1) % 2 ^ 32 :=
        (getF_setF_ne _ _ _ _ (by decide)).trans (getF_bump_same _ ⟨by decide, by decide⟩)
      exact ⟨hposted.congr rfl rfl, fun _ hroom => absurd hroom (Nat.not_lt.2 hfull), fun _ _ => ⟨rfl, hcount⟩,
        fun _ => rfl⟩
    · rw [if_neg (by simp [hholds]), if_neg hfull]
      exact ⟨hposted.congr rfl rfl, fun _ _ => rfl, fun _ h => absurd h hfull, fun h => absurd hholds (by simp [h])⟩
  · rw [if_pos (by simp [hholds])]
    exact ⟨hposted, fun h => absurd h hholds, fun h => absurd h hholds, fun _ => rfl⟩

theorem sesReadCall_done (hlow : bodyW body 0 < 4096) (hstart : 0x8000 ≤ bodyW body 1) (hend : bodyW body 1 ≤ 0xFFC0)
    (halign : bodyW body 1 % 64 = 0) :
    Posted s (sesReadCall s task.val ticket.toNat body) task
        { (recordOf ticket.toNat 5 1 1 0 0) with dest := bodyW body 1, read := some (bodyW body 0) } ∧
      (sesReadCall s task.val ticket.toNat body).ses = s.ses := by
  rw [sesReadCall, if_neg (Nat.not_le.2 hlow), if_neg (by simp [halign, Nat.not_lt.2 hstart, Nat.not_lt.2 hend])]
  exact ⟨posted_addPost .., rfl⟩

theorem sesReadCall_refused_session (hhigh : 4096 ≤ bodyW body 0) :
    sesReadCall s task.val ticket.toNat body = reply s task.val ticket.toNat 5 1 1 := by
  rw [sesReadCall, if_pos hhigh]

theorem sesReadCall_refused_dest (hlow : bodyW body 0 < 4096)
    (hdest : bodyW body 1 < 0x8000 ∨ 0xFFC0 < bodyW body 1 ∨ bodyW body 1 % 64 ≠ 0) :
    sesReadCall s task.val ticket.toNat body = reply s task.val ticket.toNat 5 1 2 := by
  rw [sesReadCall, if_neg (Nat.not_le.2 hlow), if_pos (by simpa [or_assoc] using hdest)]

end

/-! ### Every call is answered -/

/-- Settles O47: call by call, what is taken and what is refused. -/
theorem engineCallsAccepted : Obligations.EngineCallsAccepted := by
  unfold Obligations.EngineCallsAccepted
  intro task ticket body s hrun w ws d rec_ refuses
  have hanswers {c : Instr} {u : State} {engine fn code : Nat} (hcode : code ≠ 0) {keeps : State → Prop}
      (hexec : exec c s = .next u) (hv : u = reply s task.val ticket.toNat engine fn code)
      (hkeeps : keeps (reply s task.val ticket.toNat engine fn code)) : refuses c engine fn code keeps :=
    ⟨_, hv ▸ hexec, posted_reply_refused _ _ _ _ _ hcode, hkeeps⟩
  refine ⟨?installed, ?installRefused, ?study, ?studyRefused, ?written, ?writeWords, ?writeRange, ?readUser, ?mask, ?loop,
    ?loopRefused, ?group, ?groupRefused, ?mode, ?modeRefused, ?metering, ?check, ?send, ?read, ?readSession, ?readDest⟩
  case installed => exact fun h => ⟨_, exec_nsaInstall task ticket body hrun, nsaInstall_accepted h⟩
  case installRefused => exact fun h => ⟨_, exec_nsaInstall task ticket body hrun, nsaInstall_refused h⟩
  case study => exact fun h => ⟨_, exec_nsaStudy task ticket body hrun, nsaStudy_accepted h⟩
  case studyRefused => exact fun h => ⟨_, exec_nsaStudy task ticket body hrun, nsaStudy_refused h⟩
  case written =>
    intro hzero halign hend
    obtain ⟨hposted, hmem⟩ := nsaWriteUser_accepted (s := s) (task := task) (ticket := ticket) hzero halign hend
    refine ⟨_, exec_nsaWriteUser task ticket body hrun, hposted, fun a => ?_⟩
    rw [hmem]
    exact memRead_memPut_drop ..
  case writeWords =>
    exact fun h => ⟨_, exec_nsaWriteUser task ticket body hrun, nsaWriteUser_refused (if_pos h) (by decide)⟩
  case writeRange =>
    intro hzero hrange
    change w 0 % 4 ≠ 0 ∨ userSize < w 0 + (body.length - 8) at hrange
    have hbad : (w 0 % 4 ≠ 0 || userSize < w 0 + (body.drop 8).length) = true := by simpa using hrange
    exact ⟨_, exec_nsaWriteUser task ticket body hrun,
      nsaWriteUser_refused ((if_neg (not_not.2 hzero)).trans (if_pos hbad)) (by decide)⟩
  case readUser =>
    exact ⟨fun hzero hok => ⟨_, exec_nsaReadUser task ticket body hrun, nsaReadUser_done hzero hok⟩,
      fun hwords => ⟨_, exec_nsaReadUser task ticket body hrun, nsaReadUser_refused_words hwords⟩,
      fun hzero hok => ⟨_, exec_nsaReadUser task ticket body hrun, nsaReadUser_refused_range hzero hok⟩⟩
  case mask =>
    exact ⟨fun h => ⟨_, exec_nsaMask task ticket body hrun, nsaMask_accepted h⟩,
      fun h => ⟨_, exec_nsaMask task ticket body hrun, nsaMask_refused h⟩⟩
  case loop => exact fun h => ⟨_, exec_lpeLoop task ticket body hrun, lpeLoop_accepted h⟩
  case loopRefused =>
    exact fun h => ⟨_, (exec_lpeLoop task ticket body hrun).trans (congrArg _ (lpeLoop_refused h)),
      lpeReply_refused _ _ _ _ h⟩
  case group => exact fun h => ⟨_, exec_lpeGroup task ticket body hrun, lpeGroup_accepted h⟩
  case groupRefused =>
    exact fun h => ⟨_, (exec_lpeGroup task ticket body hrun).trans (congrArg _ (lpeGroup_refused h)),
      lpeReply_refused _ _ _ _ h⟩
  case mode => exact fun h => ⟨_, exec_lpeMode task ticket body hrun, lpeMode_accepted h⟩
  case modeRefused =>
    exact fun h => ⟨_, (exec_lpeMode task ticket body hrun).trans (congrArg _ (lpeMode_refused h)),
      lpeReply_refused _ _ _ _ h⟩
  case metering =>
    exact ⟨fun h => ⟨_, exec_mtrConfig task ticket body hrun, mtrConfig_accepted h⟩,
      fun h => ⟨_, exec_mtrConfig task ticket body hrun, mtrConfig_refused rfl h⟩⟩
  case check =>
    refine ⟨fun hfit hlow hzero => ⟨_, exec_chkRun task ticket body hrun, chkRun_done rfl rfl hfit hlow hzero⟩,
      fun hfit => ?_, fun hfit => ?_⟩
    · by_cases hwords : w 0 < 8 ∧ w 1 = 0
      · exact .inl hwords
      · exact .inr (hanswers (by decide) (exec_chkRun task ticket body hrun) (chkRun_refused_words hfit hwords) rfl)
    · exact hanswers (by decide) (exec_chkRun task ticket body hrun) (chkRun_refused_unit hfit) rfl
  case send =>
    refine ⟨fun hlow hzero hstate => ⟨_, exec_sesSend task ticket body hrun, sesSendCall_accepted rfl hlow hzero hstate⟩,
      fun hstate => ⟨_, exec_sesSend task ticket body hrun, sesSendCall_refused (if_pos hstate) (by decide)⟩,
      fun hstate hwords => ⟨_, exec_sesSend task ticket body hrun, sesSendCall_refused ?_ (by decide)⟩⟩
    exact (if_neg (not_not.2 hstate)).trans (if_pos (by simpa using hwords))
  case read =>
    exact fun hlow hstart hend halign => ⟨_, exec_sesRead task ticket body hrun, sesReadCall_done hlow hstart hend halign⟩
  case readSession =>
    exact fun h => hanswers (by decide) (exec_sesRead task ticket body hrun) (sesReadCall_refused_session h) rfl
  case readDest =>
    exact fun hlow h => hanswers (by decide) (exec_sesRead task ticket body hrun) (sesReadCall_refused_dest hlow h) rfl

end Sys2Proof.Machine
end

section
/-!
PROOFS. What the parts of a tick's arrival and of an exchange leave alone (01 R20 R24 R27, 10 R244 R246 R259 R266).
-/
namespace Sys2Proof.Machine

/-! ### The program, its forces and its registers -/

/-- The clock, the running program with its slot and a pending exchange, and the forces. -/
def scanFields (s : State) := (s.tim, s.prog, s.exch, s.cfg, s.forces, s.forcesEff, s.red.forcesAt)

/-- `t` comes from `s` by a part of a tick that leaves those fields and the registers from SCN_CTRL to SCN_EVENTS alone. -/
structure ScanFrame (s t : State) : Prop where
  fields : scanFields t = scanFields s
  regs : ∀ a, R.SCN_CTRL ≤ a → a ≤ R.SCN_EVENTS → getReg t a = getReg s a

namespace ScanFrame

variable {s t u : State}

theorem refl (s : State) : ScanFrame s s := ⟨rfl, fun _ _ _ => rfl⟩

theorem trans (h : ScanFrame s t) (g : ScanFrame t u) : ScanFrame s u :=
  ⟨g.fields.trans h.fields, fun a hlo hhi => (g.regs a hlo hhi).trans (h.regs a hlo hhi)⟩

theorem tim (h : ScanFrame s t) : t.tim = s.tim := (congrArg (·.1) h.fields :)
theorem forces (h : ScanFrame s t) : t.forces = s.forces := (congrArg (·.2.2.2.2.1) h.fields :)
theorem forcesEff (h : ScanFrame s t) : t.forcesEff = s.forcesEff := (congrArg (·.2.2.2.2.2.1) h.fields :)
theorem forcesAt (h : ScanFrame s t) : t.red.forcesAt = s.red.forcesAt := (congrArg (·.2.2.2.2.2.2) h.fields :)

theorem getF (h : ScanFrame s t) {f : Fld} (hlo : R.SCN_CTRL ≤ f.addr) (hhi : f.addr ≤ R.SCN_EVENTS) :
    Machine.getF t f = Machine.getF s f := getF_of_getReg (h.regs _ hlo hhi)

/-- A part that sets no register and none of the fields. -/
theorem after_others (h : ScanFrame s t) (hfields : scanFields u = scanFields t) (hregs : u.regs = t.regs) : ScanFrame s u :=
  h.trans ⟨hfields, fun a _ _ => getReg_congr hregs a⟩

theorem after_setReg {a : Nat} {v : Word} (h : ScanFrame s t) (ha : a < R.SCN_CTRL ∨ R.SCN_EVENTS < a) :
    ScanFrame s (setReg t a v) :=
  h.trans ⟨rfl, fun _ hlo hhi => getReg_setReg_ne _ _ _ _ fun e => by omega⟩

theorem after_setF {f : Fld} {v : Nat} (h : ScanFrame s t) (hf : f.addr < R.SCN_CTRL ∨ R.SCN_EVENTS < f.addr) :
    ScanFrame s (setF t f v) := h.after_setReg hf

/-- An element of a register array that starts above those registers lies above them, whatever its index. -/
theorem after_setAbove {f : Fld} {i v : Nat} (h : ScanFrame s t) (hf : R.SCN_EVENTS < f.addr) : ScanFrame s (setFi t f i v) :=
  h.after_setReg (.inr (Nat.lt_of_lt_of_le hf (Nat.le_add_right _ _)))

theorem after_modTask {n : Fin 16} {f : Task → Task} (h : ScanFrame s t) : ScanFrame s (modTask t n f) := h.after_others rfl rfl

theorem after_modCore {c : Fin 6} {f : Core → Core} (h : ScanFrame s t) : ScanFrame s (modCore t c f) := h.after_others rfl rfl

theorem after_dpo {x : Dpo} (h : ScanFrame s t) : ScanFrame s { t with dpo := x } := h.after_others rfl rfl

theorem after_qhc {x : Qhc} (h : ScanFrame s t) : ScanFrame s { t with qhc := x } := h.after_others rfl rfl

theorem after_send {m : OutMsg} (h : ScanFrame s t) : ScanFrame s (send t m) := h.after_others rfl rfl

theorem after_ite {c : Prop} [Decidable c] (ht : ScanFrame s t) (hu : ScanFrame s u) : ScanFrame s (if c then t else u) := by
  split <;> assumption

theorem after_forAll {α : Type} {l : List α} {f : State → α → State} (h : ScanFrame s t)
    (hf : ∀ v x, ScanFrame s v → ScanFrame s (f v x)) : ScanFrame s (forAll t l f) := forAll_keeps (fun v x _ => hf v x) h

/-! #### Events and messages (R284, R334, R443) -/

theorem after_evrSubmit (h : ScanFrame s t) (r : EvrRec) : ScanFrame s (evrSubmit t r) := by
  unfold evrSubmit
  exact .after_ite (.after_setF (h.after_others rfl rfl) (.inr (by decide)))
    (.after_setF (h.after_setAbove (by decide)) (.inr (by decide)))

theorem after_ev (h : ScanFrame s t) (b e v : Nat) (l : List Nat) : ScanFrame s (ev t b e v l) := h.after_evrSubmit _

theorem after_evBit {f : Fld} (h : ScanFrame s t) (hf : R.SCN_EVENTS < f.addr) (v : Nat) (l : List Nat) :
    ScanFrame s (evBit t f v l) := .after_ev (h.after_setF (.inr hf)) ..

theorem after_furovSend (h : ScanFrame s t) (b : FurovBody) : ScanFrame s (furovSend t b) := by
  unfold furovSend
  exact .after_ite (.after_send (h.after_others rfl rfl)) h

theorem after_digestUnit (h : ScanFrame s t) (a b c : Nat) (l : List Byte) : ScanFrame s (digestUnit t a b c l) := by
  unfold digestUnit
  refine .after_ite (.after_furovSend ?_ _) h
  exact h.after_others rfl rfl

/-- A message of the host channel differs from what was there in the channel and the trace of messages at most. -/
theorem after_channel (h : ScanFrame s t) (g : { u with qhc := t.qhc, sent := t.sent } = t) : ScanFrame s u :=
  h.after_others (congrArg scanFields g :) (congrArg State.regs g :)

theorem after_toPcie (h : ScanFrame s t) (typ flags st id : Nat) (p : List Byte) : ScanFrame s (toPcie t typ flags st id p) :=
  h.after_qhc.after_channel (fillOutBox_only _)

theorem after_emitUnsol (h : ScanFrame s t) (id typ : Nat) (p : List Byte) : ScanFrame s (emitUnsol t id typ p) := by
  unfold emitUnsol
  split
  · exact .after_ite (h.after_send.after_toPcie ..) h.after_send
  · exact .after_ite (h.after_toPcie ..) h

theorem after_unsol (h : ScanFrame s t) (typ key : Nat) (p : List Byte) : ScanFrame s (unsol t typ key p) :=
  .after_ite h (.after_emitUnsol h.after_qhc ..)

theorem after_qhcDone (h : ScanFrame s t) (kind code value : Nat) : ScanFrame s (qhcDone t kind code value) :=
  .after_ite h (h.after_unsol ..)

theorem after_pumpEvents (h : ScanFrame s t) : ScanFrame s (pumpEvents t) := by
  refine .after_ite h ?_
  split
  · exact h.after_qhc.after_unsol ..
  · exact h

theorem after_qhcPump (h : ScanFrame s t) : ScanFrame s (qhcPump t) := by
  refine .after_ite h.after_pumpEvents ?_
  split
  · exact h.after_pumpEvents.after_unsol ..
  · exact h.after_pumpEvents

/-! #### The committed state and the decision table (R20, R24, R112) -/

theorem after_queueState (h : ScanFrame s t) (r : NetState) : ScanFrame s (queueState t r) := by
  unfold queueState
  refine .after_qhcPump (.after_others (.after_ite ?_ h) rfl rfl)
  exact .after_setF (h.after_setF (.inr (by decide))) (.inr (by decide))

theorem after_switchState (h : ScanFrame s t) : ScanFrame s (switchState t) := by
  unfold switchState
  split
  · exact h
  · refine .after_ite h (.after_queueState ?_ _)
    exact h.after_others rfl rfl

theorem after_dpoOutcome (h : ScanFrame s t) (j o : Nat) : ScanFrame s (dpoOutcome t j o) := by
  have hshown : ScanFrame s
      (setF { t with dpo := { t.dpo with ended := some (j, o), due := none } } F.DPO_STATUS_LAST_OUTCOME o) :=
    h.after_dpo.after_setF (.inl (by decide))
  unfold dpoOutcome
  dsimp only
  split
  · next f hf => exact hshown.after_setF (.inl (outcomeBit_addr hf ▸ by decide))
  · exact hshown

theorem after_dpoAbort (h : ScanFrame s t) (j : Job) (o i e : Nat) : ScanFrame s (dpoAbort t j o i e) := by
  have hplan (d : List Nat) (b : List Byte) : ScanFrame s (holdPlan t d b) := .after_ite h h.after_dpo
  have htold (u : State) (hu : ScanFrame s u) (j : Nat) (r : Bool) : ScanFrame s (dispatchTold u j o i e r) :=
    .after_ite (hu.after_furovSend _) hu
  unfold dpoAbort
  split
  · refine htold _ (.after_setF (.after_dpo (.after_dpoOutcome (.after_setF ?_ ?_) _ _)) ?_) _ _
    · exact (hplan _ _).after_setF (.inl (by decide))
    · exact .inl (by decide)
    · exact .inl (by decide)
  · exact h

theorem after_tableInForce (h : ScanFrame s t) (x : DecTable) : ScanFrame s (tableInForce t x) := by
  unfold tableInForce
  refine .after_setF (.after_setReg (.after_setReg (.after_dpo ?_) (.inl (by decide))) (.inl (by decide))) (.inl (by decide))
  split
  · split
    · exact h
    · exact h.after_ev ..
  · exact h

theorem after_tableKept (h : ScanFrame s t) (o : Nat) : ScanFrame s (tableKept t o) :=
  have hcounted : ScanFrame s (bump t F.DPO_CNT_KEPT_COUNT) := h.after_setF (.inl (by decide))
  .after_ite hcounted (hcounted.after_ev ..)

theorem after_settleJob (h : ScanFrame s t) : ScanFrame s (settleJob t) := by
  unfold settleJob
  split
  · exact h.after_dpoAbort ..
  · split
    · exact h.after_dpoOutcome ..
    · exact h

theorem after_writePlan (h : ScanFrame s t) : ScanFrame s (writePlan t) := by
  unfold writePlan
  split
  · exact h.after_others rfl rfl
  · exact h

theorem after_settleEnded (h : ScanFrame s t) (j : Nat) : ScanFrame s (settleEnded t j) := by
  unfold settleEnded
  split
  · refine .after_ite ?_ (h.after_dpo.after_tableKept _)
    split
    · exact h.after_dpo.after_tableInForce _
    · exact h.after_dpo
  · exact h

theorem after_settleNow (h : ScanFrame s t) (j : Nat) : ScanFrame s (settleNow t j) :=
  settleNow_eq t j ▸ h.after_settleJob.after_writePlan.after_settleEnded j

theorem after_digestTable (h : ScanFrame s t) (j : Nat) : ScanFrame s (digestTable t j) := by
  unfold digestTable
  split
  · exact h.after_digestUnit ..
  · exact h

theorem after_settleLate (h : ScanFrame s t) : ScanFrame s (settleLate t) := by
  unfold settleLate
  split
  · exact (h.after_dpo.after_settleNow _).after_digestTable _
  · exact h

theorem after_settleTable (h : ScanFrame s t) : ScanFrame s (settleTable t) := by
  have hlate : ScanFrame s (if roleOf t = roSTANDBY then t else settleLate t) := .after_ite h h.after_settleLate
  exact .after_ite (.after_ite hlate.after_dpo (hlate.after_settleNow _)) hlate

/-! #### Outputs (R118, R404) -/

theorem after_emitTag (h : ScanFrame s t) (tag : Nat) (v : Int) : ScanFrame s (emitTag t tag v) := by
  unfold emitTag
  dsimp only
  split <;> exact h.after_others rfl rfl

theorem after_lpeEmit (h : ScanFrame s t) (n : Nat) : ScanFrame s (lpeEmit t n) := by
  unfold lpeEmit
  refine .after_ite h (.after_digestUnit (.after_forAll ?_ fun _ _ hv => hv.after_emitTag _ _) ..)
  exact h.after_others rfl rfl

theorem after_showFault (h : ScanFrame s t) : ScanFrame s (showFault t) := by
  have hshown (v : Nat) : ScanFrame s (setF t F.FIO_STATUS_FAULT v) := h.after_setF (.inr (by decide))
  unfold showFault
  exact .after_ite ((hshown _).after_evBit (by decide) ..) (.after_ite ((hshown _).after_ev ..) (hshown _))

theorem after_driveOutputs (h : ScanFrame s t) : ScanFrame s (driveOutputs t) := by
  have hshown (v : Nat) : ScanFrame s (setF t F.FIO_DO_VALUE v) := h.after_setF (.inr (by decide))
  have hdriven (v : Nat) : ScanFrame s (if emits (setF t F.FIO_DO_VALUE v)
      then { setF t F.FIO_DO_VALUE v with fio := { (setF t F.FIO_DO_VALUE v).fio with emitted := v } }
      else setF t F.FIO_DO_VALUE v) :=
    .after_ite ((hshown v).after_others rfl rfl) (hshown v)
  unfold driveOutputs
  refine .after_ite (hdriven _) (.after_showFault ?_)
  exact (hdriven _).after_others rfl rfl

/-! #### The sample of the inputs (R242, R247, R386, R395) -/

theorem after_setInTag (h : ScanFrame s t) (tag v : Nat) : ScanFrame s (setInTag t tag v) := by
  unfold setInTag
  split
  · exact .after_ite h (h.after_others rfl rfl)
  · exact h

theorem after_takeField (h : ScanFrame s t) (d : List Byte) (f : FieldBind) : ScanFrame s (takeField t d f) := by
  unfold takeField
  split
  · exact h.after_setInTag ..
  · exact .after_setInTag (t := (takeFree t).2) (h.after_others rfl rfl) ..

theorem after_sampleField (h : ScanFrame s t) : ScanFrame s (sampleField t) := by
  refine h.after_forAll fun v e hv => ?_
  split
  · exact hv.after_setInTag ..
  · exact hv

theorem after_sampleMessages (h : ScanFrame s t) : ScanFrame s (sampleMessages t) := by
  refine h.after_forAll fun v e hv => ?_
  split
  case h_1 => exact hv.after_setInTag ..
  case h_2 => exact hv.after_setInTag ..
  case h_3 =>
    split
    · exact hv.after_takeField ..
    · exact hv
  case h_4 => exact hv

theorem after_sampleAges (h : ScanFrame s t) (period : Nat) : ScanFrame s (sampleAges t period) := by
  refine h.after_forAll fun v e hv => ?_
  split
  · exact hv.after_setInTag ..
  · exact hv

theorem after_samplePolls (h : ScanFrame s t) (n : Nat) : ScanFrame s (samplePolls t n) := by
  refine h.after_forAll fun v e hv => ?_
  split
  next m _ =>
    have hread (c : Prop) [Decidable c] (l : List FieldBind) (d : List Byte) :
        ScanFrame s (if c then forAll v l fun s f => takeField s d f else v) :=
      .after_ite (hv.after_forAll fun _ _ hw => hw.after_takeField ..) hv
    refine .after_ite hv (.after_setInTag ?_ ..)
    exact (hread ..).after_others rfl rfl
  · exact hv

/-! #### Item 2 of the tick (R227, R246, R287) -/

theorem after_postTask (h : ScanFrame s t) (n : Nat) : ScanFrame s (postTask t n) := by
  unfold postTask
  refine .after_ite h (.after_forAll (.after_modTask (h.after_others rfl rfl)) fun v p hv => ?_)
  exact .after_ite (hv.after_others rfl rfl) (.after_ite hv (hv.after_others rfl rfl))

theorem after_createScan (h : ScanFrame s t) (r : TaskRec) : ScanFrame s (createScan t r) := by
  unfold createScan
  dsimp only
  split
  · exact h
  · exact .after_ite h (.after_ite (h.after_setAbove (by decide))
      (.after_modTask (.after_setAbove (h.after_setAbove (by decide)) (by decide))))

theorem after_freezeTask (h : ScanFrame s t) (r : TaskRec) : ScanFrame s (freezeTask t r) :=
  .after_createScan (.after_postTask (.after_ite h (h.after_sampleAges _)) _) r

theorem after_beginPeriods (h : ScanFrame s t) (due : List TaskRec) : ScanFrame s (beginPeriods t due) := by
  have hsampled : ScanFrame s (sampleInputs t due) :=
    .after_ite h (h.after_sampleMessages.after_forAll fun _ r hv => hv.after_samplePolls _)
  exact hsampled.after_forAll fun _ r hv => .after_ite ((hv.after_freezeTask r).after_furovSend _) (hv.after_freezeTask r)

/-! #### Scheduling (R244) -/

theorem after_saveRunning (h : ScanFrame s t) (c : Fin 6) : ScanFrame s (saveRunning t c) := by
  unfold saveRunning
  split
  · exact h
  · exact .after_modCore (.after_ite (.after_setAbove h.after_modTask (by decide)) h.after_modTask)

theorem after_resumeScan (h : ScanFrame s t) (c : Fin 6) (n : Nat) : ScanFrame s (resumeScan t c n) := by
  unfold resumeScan
  split
  · exact h
  · exact .after_modCore (.after_setAbove (.after_modTask h) (by decide))

theorem after_schedule (h : ScanFrame s t) (c : Fin 6) : ScanFrame s (schedule t c) := by
  unfold schedule
  refine .after_ite h ?_
  split
  · exact h
  · exact h.after_resumeScan c _
  · exact .after_ite h (.after_resumeScan (.after_setF (h.after_saveRunning c) (.inr (by decide))) c _)

theorem after_item4 (h : ScanFrame s t) : ScanFrame s (item4 t) :=
  .after_ite h (h.after_forAll fun _ c hv => hv.after_schedule c)

end ScanFrame

end Sys2Proof.Machine
end

section
/-!
PROOFS. The force commands (10 R258 R259 R269): what a command on the entry of SCN_FORCE_SEL shows and changes, and the tick at
which the accepted forces take effect.
-/
namespace Sys2Proof.Machine

/-! ### A change of the table (R258) -/

/-- A change of the table, with its event and the counts that show it, is of the table alone; nothing takes effect yet. -/
theorem applyForce_spec (s : State) (i : Nat) (f : Option Force) :
    (applyForce s i f).forces = changeForce s.forces i f ∧ (applyForce s i f).forcesEff = s.forcesEff :=
  ⟨(congrArg State.forces (ev_only _ blkSCN 0x80 2 _) :), (congrArg State.forcesEff (ev_only _ blkSCN 0x80 2 _) :)⟩

/-- The outcome of a command is shown, and forwarded where it is accepted; the tables stay as the command left them. -/
theorem commandShown_spec {u : State} {r : State × Nat}
    (h : ∃ op i body, u = forwardForce (showForceRes r) op i body r.2) :
    u.forces = r.1.forces ∧ u.forcesEff = r.1.forcesEff ∧ getF u F.SCN_FORCE_RES_CODE = r.2 % 2 ^ 4 := by
  obtain ⟨op, i, body, rfl⟩ := h
  have hsent : MessagesOnly (showForceRes r) (forwardForce (showForceRes r) op i body r.2) :=
    .after_ite (.after_forwardBody (.refl _) ..) (.refl _)
  exact ⟨(congrArg State.forces hsent :), (congrArg State.forcesEff hsent :),
    (hsent.getF _).trans (getF_setF_same _ _ _ ⟨by decide, by decide⟩)⟩

/-- The codes of R258 end at 6. -/
theorem forceCode_le (s : State) (i : Nat) (f : Force) (reserved : Bool) : forceCode s i f reserved ≤ 6 := by
  unfold forceCode
  dsimp only
  repeat' split
  all_goals decide

/-! ### The commands (R258, R269) -/

/-- SCN_FORCE_CMD takes each of its commands, unless the latest one is still being processed. -/
theorem forceCmdWrite_of_idle {s : State} (hidle : flag s F.SCN_FORCE_RES_BUSY = false) :
    forceCmdWrite s 1 = forceRead s ∧ forceCmdWrite s 2 = forceSetReg s ∧ forceCmdWrite s 3 = forceClearReg s := by
  have htakes {v : Word} (hv : v.toNat &&& 0xFFFFFFFC = 0) : Takes s R.SCN_FORCE_CMD v :=
    takes_of_unlocked s (r := ⟨0x50, 0x0, 1, [⟨1, 0, .wo, 0⟩]⟩) (by decide) (by decide) hv
  refine ⟨?read, ?set, ?clear⟩
  all_goals
    rw [forceCmdWrite, checkedWrite_takes _ _ _ _ (htakes (by decide)), hidle]
    rfl

section
variable {s : State} (hidle : flag s F.SCN_FORCE_RES_BUSY = false)
include hidle

theorem exec_forceRead : exec .forceRead s = .next (forceRead s) :=
  congrArg Host.Outcome.next (forceCmdWrite_of_idle hidle).1
theorem exec_forceSet : exec .forceSet s = .next (forceSetReg s) :=
  congrArg Host.Outcome.next (forceCmdWrite_of_idle hidle).2.1
theorem exec_forceClear : exec .forceClear s = .next (forceClearReg s) :=
  congrArg Host.Outcome.next (forceCmdWrite_of_idle hidle).2.2

end

/-- READ shows the entry in the registers, each field in its width. -/
theorem forceRead_spec {s : State} {e : Force} (he : forceEntry s (getF s F.SCN_FORCE_SEL_INDEX) = e) :
    getF (forceRead s) F.SCN_FORCE_ENT_ENABLE = bNat e.enable ∧ getF (forceRead s) F.SCN_FORCE_ENT_KIND = e.kind % 2 ∧
      getF (forceRead s) F.SCN_FORCE_ENT_TARGET = e.target % 2 ^ 16 ∧
      get64 (forceRead s) R.SCN_FORCE_VAL_LO R.SCN_FORCE_VAL_HI = e.value % 2 ^ 64 ∧ (forceRead s).forces = s.forces := by
  have hbit : bNat e.enable % 2 ^ 1 = bNat e.enable := by cases e.enable <;> rfl
  unfold forceRead
  simp only [he]
  refine ⟨?enable, ?kind, ?target, get64_set64 _ _ (by decide), rfl⟩
  all_goals rw [getF_set64_ne _ _ _ (by decide) (by decide)]
  case enable =>
    rw [getF_setF_apart _ F.SCN_FORCE_ENT_TARGET F.SCN_FORCE_ENT_ENABLE _ ⟨by decide, by decide⟩ rfl (.inr (by decide)),
      getF_setF_apart _ F.SCN_FORCE_ENT_KIND F.SCN_FORCE_ENT_ENABLE _ ⟨by decide, by decide⟩ rfl (.inr (by decide))]
    exact (getF_setF_same _ _ _ ⟨by decide, by decide⟩).trans hbit
  case kind =>
    rw [getF_setF_apart _ F.SCN_FORCE_ENT_TARGET F.SCN_FORCE_ENT_KIND _ ⟨by decide, by decide⟩ rfl (.inr (by decide))]
    exact getF_setF_same _ _ _ ⟨by decide, by decide⟩
  case target => exact getF_setF_same _ _ _ ⟨by decide, by decide⟩

/-- SET of an entry: accepted where it has no code, else refused with it. -/
theorem forceSetReg_spec {s : State} {i : Nat} {f : Force} (hi : getF s F.SCN_FORCE_SEL_INDEX = i) (hf : regForce s = f) :
    (forceCode s i f false = 0 → (forceSetReg s).forces = alPut s.forces i f ∧
      getF (forceSetReg s) F.SCN_FORCE_RES_CODE = 0 ∧ (forceSetReg s).forcesEff = s.forcesEff) ∧
    (forceCode s i f false ≠ 0 → (forceSetReg s).forces = s.forces ∧
      getF (forceSetReg s) F.SCN_FORCE_RES_CODE = forceCode s i f false) := by
  subst hi hf
  obtain ⟨hforces, heff, hshown⟩ := commandShown_spec (u := forceSetReg s)
    (r := forceSet s (getF s F.SCN_FORCE_SEL_INDEX) (regForce s) false) ⟨_, _, _, rfl⟩
  rw [hforces, heff, hshown, forceSet]
  constructor
  · intro hcode
    obtain ⟨hset, hkept⟩ := applyForce_spec s (getF s F.SCN_FORCE_SEL_INDEX) (some (regForce s))
    rw [if_pos hcode]
    exact ⟨hset, rfl, hkept⟩
  · intro hcode
    rw [if_neg hcode]
    exact ⟨rfl, Nat.mod_eq_of_lt (Nat.lt_of_le_of_lt (forceCode_le ..) (by decide))⟩

/-- CLEAR of an entry: accepted where it is enabled, else refused with code 5. -/
theorem forceClearReg_spec {s : State} {i : Nat} (hi : getF s F.SCN_FORCE_SEL_INDEX = i) :
    ((forceEntry s i).enable = true → (forceClearReg s).forces = alDel s.forces i ∧
      getF (forceClearReg s) F.SCN_FORCE_RES_CODE = 0 ∧ (forceClearReg s).forcesEff = s.forcesEff) ∧
    ((forceEntry s i).enable = false → (forceClearReg s).forces = s.forces ∧
      getF (forceClearReg s) F.SCN_FORCE_RES_CODE = 5) := by
  subst hi
  obtain ⟨hforces, heff, hshown⟩ := commandShown_spec (u := forceClearReg s)
    (r := forceClear s (getF s F.SCN_FORCE_SEL_INDEX)) ⟨_, _, _, rfl⟩
  rw [hforces, heff, hshown, forceClear]
  constructor
  · intro henabled
    obtain ⟨hcleared, hkept⟩ := applyForce_spec s (getF s F.SCN_FORCE_SEL_INDEX) none
    rw [if_pos henabled]
    exact ⟨hcleared, rfl, hkept⟩
  · intro hdisabled
    rw [if_neg (ne_true_of_eq_false hdisabled)]
    exact ⟨rfl, rfl⟩

/-! ### The tick after an acceptance (R259) -/

/-- TB1 stands at its next tick, within the 48 bits of its seconds (R338); the forces are as they were. -/
theorem toTick_spec (s : State) : nowNs (toTick s) = (tickNow s + 1) * 250000 % (2 ^ 48 * 1000000000) ∧
    (toTick s).forces = s.forces ∧ (toTick s).red = s.red := by
  have hshown (t : State) : RegsOnly t (showTim t) := by
    unfold showTim
    have hres (v : Nat) : RegsOnly t (setF (set64 t R.TIM_TB1_RES_LO R.TIM_TB1_RES_HI (uNat 64 (t.tim.d1 / tbUnit)))
        F.TIM_STATUS_SLEWING v) := .refl t
    exact .after_ite (hres _).after_setF (hres _)
  have hbefore : s.tim.tb1 ≤ (tickNow s + 1) * tickNs * tbUnit := by
    have hunit : s.tim.tb1 < (nowNs s + 1) * tbUnit := Nat.lt_mul_of_div_lt (Nat.lt_succ_self _) (by decide)
    have htick : nowNs s < (tickNow s + 1) * tickNs := Nat.lt_mul_of_div_lt (Nat.lt_succ_self _) (by decide)
    exact (hunit.trans_le (Nat.mul_le_mul_right _ htick)).le
  have htb1 : (toTick s).tim.tb1 = (s.tim.tb1 + ((tickNow s + 1) * tickNs * tbUnit - s.tim.tb1)) % tbTurn :=
    (congrArg (·.tim.tb1) (hshown _) :)
  refine ⟨?_, (congrArg State.forces (hshown _) :), (congrArg State.red (hshown _) :)⟩
  rw [nowNs, htb1, Nat.add_sub_cancel' hbefore, tbTurn, Nat.mul_mod_mul_right, tbNs]
  exact Nat.mul_div_cancel _ (by decide)

/-- Where no change of the active module waits, the accepted forces take effect and show. -/
theorem switchForces_spec {s : State} (h : s.red.forcesAt = []) : (switchForces s).forcesEff = s.forces ∧
    getF (switchForces s) F.SCN_STATUS_FORCED = bNat (s.forces.any fun e => e.2.enable) ∧ (switchForces s).tim = s.tim := by
  have hbit (b : Bool) : bNat b % 2 ^ 1 = bNat b := by cases b <;> rfl
  simp only [switchForces, h, List.filter_nil, List.foldl_nil]
  exact ⟨rfl, (getF_setF_same _ _ _ ⟨by decide, by decide⟩).trans (hbit _), rfl⟩

/-- A tick arrives with the accepted forces in effect and shown, at its time. -/
theorem arrive_spec {s : State} (h : s.red.forcesAt = []) : (arrive s).forcesEff = s.forces ∧
    flag (arrive s) F.SCN_STATUS_FORCED = s.forces.any (fun e => e.2.enable) ∧ nowNs (arrive s) = nowNs s := by
  have hsettled : ScanFrame s (settleTable (switchState s)) := (ScanFrame.refl s).after_switchState.after_settleTable
  obtain ⟨heff, hforced, htim⟩ := switchForces_spec (hsettled.forcesAt.trans h)
  have hout (t : State) : ScanFrame t (driveOutputs (if executes t && t.runState then lpeEmit t (tickNow t) else t)) :=
    .after_driveOutputs (.after_ite (.after_lpeEmit (.refl t) _) (.refl t))
  have hdriven : ScanFrame (switchForces (settleTable (switchState s))) (arrive s) := hout _
  have hflag (b : Bool) : (bNat b != 0) = b := by cases b <;> rfl
  refine ⟨hdriven.forcesEff.trans (heff.trans hsettled.forces), ?_, nowNs_congr (hdriven.tim.trans (htim.trans hsettled.tim))⟩
  rw [flag, hdriven.getF (by decide) (by decide), hforced, hsettled.forces, hflag]

theorem exec_forceApply {s : State} (hstage : s.boot.stage ≠ 0) (hdone : tickDone s = true) (hwaits : switchWaits s = true) :
    exec .forceApply s = .next (arrive (toTick s)) := by
  change execForceApply s = _
  simp [execForceApply, hwaits, reachTick, hstage, hdone]

/-! ### The statement -/

/-- Settles O45: the commands by what each shows and changes; FORCE_APPLY by the arrival of the next tick, whose other parts
leave the forces alone. -/
theorem forceCommands : Obligations.ForceCommands := by
  unfold Obligations.ForceCommands
  intro s i f e
  refine ⟨fun hidle => ⟨?read, ?set, ?setRefused, ?clear, ?clearRefused⟩, ?apply⟩
  case read => exact ⟨_, exec_forceRead hidle, forceRead_spec rfl⟩
  case set => exact fun hcode => ⟨_, exec_forceSet hidle, (forceSetReg_spec rfl rfl).1 hcode⟩
  case setRefused => exact fun hcode => ⟨_, exec_forceSet hidle, (forceSetReg_spec rfl rfl).2 hcode⟩
  case clear => exact fun henabled => ⟨_, exec_forceClear hidle, (forceClearReg_spec rfl).1 henabled⟩
  case clearRefused => exact fun hdisabled => ⟨_, exec_forceClear hidle, (forceClearReg_spec rfl).2 hdisabled⟩
  case apply =>
    intro hstage hdone hwaits hnone
    obtain ⟨htime, hforces, hred⟩ := toTick_spec s
    have hnone : (toTick s).red.forcesAt = [] := (congrArg Red.forcesAt hred).trans hnone
    obtain ⟨heff, hforced, hnow⟩ := arrive_spec hnone
    rw [hforces] at heff hforced
    exact ⟨_, exec_forceApply hstage hdone hwaits, heff, hforced, hnow.trans htime⟩

end Sys2Proof.Machine
end

section
/-!
PROOFS. What leaves TB1 alone in an exchange (01 R27, 10 R246 R250 R252 R267): the ends of periods, the emissions, the calls
accepted and the program installed.
-/
namespace Sys2Proof.Machine

/-- The job of a check unit sets registers alone. -/
theorem regsOnly_chkJob (s : State) (n : Nat) (data : List Byte) (expect : Nat) : RegsOnly s (chkJob s n data expect).1 := by
  obtain ⟨rep, skip, hjob⟩ := chkJob_eq s n data expect rfl rfl
  rw [hjob]
  exact (regsOnly_pipCheck s n data).trans (regsOnly_chkShown ..)

/-- The clocks are the same. -/
structure SameTime (s t : State) : Prop where
  tim : t.tim = s.tim

namespace SameTime

variable {s t u : State}

theorem refl (s : State) : SameTime s s := ⟨rfl⟩

/-- A part that sets no clock. -/
theorem after (h : SameTime s t) (g : u.tim = t.tim) : SameTime s u := ⟨g.trans h.tim⟩

theorem after_ite {c : Prop} [Decidable c] (ht : SameTime s t) (hu : SameTime s u) : SameTime s (if c then t else u) := by
  split <;> assumption

theorem after_forAll {α : Type} {l : List α} {f : State → α → State} (h : SameTime s t)
    (hf : ∀ v x, SameTime s v → SameTime s (f v x)) : SameTime s (forAll t l f) := forAll_keeps (fun v x _ => hf v x) h

theorem after_setFi {f : Fld} {i v : Nat} (h : SameTime s t) : SameTime s (setFi t f i v) := h.after rfl

theorem after_setF {f : Fld} {v : Nat} (h : SameTime s t) : SameTime s (setF t f v) := h.after rfl

theorem after_modTask {n : Fin 16} {f : Task → Task} (h : SameTime s t) : SameTime s (modTask t n f) := h.after rfl

theorem after_modCore {c : Fin 6} {f : Core → Core} (h : SameTime s t) : SameTime s (modCore t c f) := h.after rfl

theorem after_ser {x : Ser} (h : SameTime s t) : SameTime s { t with ser := x } := h.after rfl

theorem after_modLoop {i : Nat} {f : Loop → Loop} (h : SameTime s t) : SameTime s (modLoop t i f) := h.after rfl

theorem after_modGroup {g : Nat} {f : LoopGroup → LoopGroup} (h : SameTime s t) : SameTime s (modGroup t g f) := h.after rfl

theorem after_ev (h : SameTime s t) (b e v : Nat) (l : List Nat) : SameTime s (ev t b e v l) :=
  h.after (ScanFrame.after_ev (.refl t) b e v l).tim

theorem after_evBit (h : SameTime s t) (f : Fld) (v : Nat) (l : List Nat) : SameTime s (evBit t f v l) :=
  .after_ev h.after_setF ..

theorem after_evBitTask (h : SameTime s t) (f : Fld) (v n : Nat) (l : List Nat) : SameTime s (evBitTask t f v n l) :=
  h.after (congrArg State.tim (evBitTask_only t f v n l) :)

/-! ### The end of a period (R186, R250 to R252, R289) -/

theorem after_undoScan (h : SameTime s t) (n : Nat) : SameTime s (undoScan t n) := by
  unfold undoScan
  split
  · exact h
  · exact h.after (congrArg State.tim (restoreLines_only t _) :)

theorem after_endScan (h : SameTime s t) (n : Nat) : SameTime s (endScan t n) := by
  unfold endScan
  refine .after ?_ (ScanFrame.after_schedule (.refl _) _).tim
  exact .after_ite (.after_modCore (.after_modTask h)) (.after_modTask h)

theorem after_applyPolicy (h : SameTime s t) (n : Nat) : SameTime s (applyPolicy t n) := by
  have hcounted : SameTime s (bumpSat t F.SCN_TASK_STAT_ERR_RUN n 1) := h.after_setFi
  unfold applyPolicy
  exact .after_ite (.after_endScan (.after_evBitTask hcounted.after_setFi.after_setF ..) _)
    (.after_endScan hcounted.after_setFi _)

theorem after_abortScan (h : SameTime s t) (n : Nat) : SameTime s (abortScan t n) := by
  have hcounted : SameTime s (bump (undoScan t n) F.SCN_CNT_PROG_ERR_COUNT) := (h.after_undoScan n).after_setFi
  exact .after_applyPolicy (hcounted.after_evBitTask ..) _

theorem after_overrun (h : SameTime s t) (r : TaskRec) (sc : Scan) : SameTime s (overrun t r sc) := by
  have hovr : SameTime s (bump (bumpBy t F.SCN_TASK_OVR_VALUE r.task 1) F.SCN_CNT_OVERRUN_COUNT) := h.after_setFi.after_setFi
  have hshown : SameTime s (if sc.late = 0 then evBitTask (bump (bumpBy t F.SCN_TASK_OVR_VALUE r.task 1)
      F.SCN_CNT_OVERRUN_COUNT) F.SCN_EVENTS_OVERRUN 4 r.task [] else t) := .after_ite (hovr.after_evBitTask ..) h
  exact .after_ite (hshown.after_abortScan _) (.after_setFi (.after_setFi hshown.after_modTask))

theorem after_endPeriod (h : SameTime s t) (r : TaskRec) : SameTime s (endPeriod t r) := by
  have hdigest (c : Prop) [Decidable c] (b : List Byte) (i : Nat) :
      SameTime s (if c then digestUnit t 0 r.task i b else t) :=
    .after_ite (h.after (ScanFrame.after_digestUnit (.refl t) ..).tim) h
  unfold endPeriod
  refine .after_modTask ?_
  split
  · exact .after_overrun (hdigest ..) ..
  · exact hdigest ..

/-! ### The emission of frames (R380, R384, R387, R395) -/

theorem after_busErr (h : SameTime s t) (a : Nat) : SameTime s (busErr t a) := h.after (congrArg State.tim (busErr_only t a) :)

theorem after_dramPut (h : SameTime s t) (a : Nat) (b : List Byte) : SameTime s (dramPut t a b) :=
  .after_ite (h.after rfl) (h.after_busErr _)

theorem after_ackDone (h : SameTime s t) (ch : Nat) : SameTime s (ackDone t ch) := .after_ite (h.after_busErr _) h.after_setFi

theorem after_canSkipBad (h : SameTime s t) (n : Fin 4) (k : Nat) : SameTime s (canSkipBad t n k) := by
  induction k generalizing t with
  | zero => exact h
  | succ k ih =>
    have hcompleted : SameTime s (canComplete t n txFLUSHED none) := .after_setFi (h.after_dramPut ..)
    unfold canSkipBad
    exact .after_ite (ih hcompleted) h

theorem after_queueSlot (h : SameTime s t) (ch : Nat) (b : List Byte) : SameTime s (queueSlot t ch b) := by
  have hput (a i : Nat) : SameTime s (setFi (dramPut t a b) (ringOf ch).txPut (ringOf ch).n i) :=
    (h.after_dramPut a b).after_setFi
  unfold queueSlot
  dsimp only
  split
  · exact (hput ..).after_canSkipBad ..
  · exact hput ..

theorem after_queueCan (h : SameTime s t) (p : Program) (ix : Nat) (c : CanTxRec) : SameTime s (queueCan t p ix c) := by
  have hacked : SameTime s (ackDone t c.ch) := h.after_ackDone _
  have hskipped (x : CanCopy) (l : List Nat) : SameTime s (ev { ackDone t c.ch with ser :=
      { (ackDone t c.ch).ser with canTx := alPut (ackDone t c.ch).ser.canTx ix x } } blkCAN 0x80 3 l) :=
    .after_ev (.after_ser hacked) ..
  unfold queueCan
  refine .after_ite h (.after_ite hacked (.after_ite ?_ ?_))
  · split
    · exact .after_ite hacked (hskipped ..)
    · exact hskipped ..
  · exact .after_ser (hacked.after_queueSlot ..)

theorem after_queuePoll (h : SameTime s t) (p : Program) (ix : Nat) (m : MbPollRec) : SameTime s (queuePoll t p ix m) := by
  unfold queuePoll
  exact .after_ite (h.after_ackDone _) (.after_ser ((h.after_ackDone _).after_queueSlot ..))

theorem after_queueFrames (h : SameTime s t) (n : Nat) : SameTime s (queueFrames t n) := by
  unfold queueFrames
  split
  · exact h
  · refine .after_ite h (h.after_forAll fun v e hv => ?_)
    split
    · exact .after_ite (hv.after_queueCan ..) hv
    · exact .after_ite (hv.after_queuePoll ..) hv
    · exact hv

/-! ### The calls accepted (R226, R231) -/

theorem after_reply (h : SameTime s t) (n ticket engine fn code : Nat) : SameTime s (reply t n ticket engine fn code) :=
  h.after rfl

theorem after_lpeReply (h : SameTime s t) (n ticket fn code : Nat) : SameTime s (lpeReply t n ticket fn code) :=
  .after_ite (h.after_reply ..) (.after_setF (h.after_reply ..))

section
variable (h : SameTime s t) (n ticket : Nat) (b : List Byte)
include h

theorem after_nsaInstall : SameTime s (nsaInstall t n ticket b) := by
  unfold nsaInstall
  refine .after_ite ?_ (.after_ite (.after_setF (h.after_reply ..)) (h.after_reply ..))
  exact h.after rfl

theorem after_nsaStudy : SameTime s (nsaStudy t n ticket b) := by
  unfold nsaStudy
  refine .after_ite (h.after_reply ..) (.after_setF ?_)
  exact h.after rfl

theorem after_nsaWriteUser : SameTime s (nsaWriteUser t n ticket b) := by
  unfold nsaWriteUser
  refine .after_ite ?_ (h.after_reply ..)
  exact h.after rfl

theorem after_nsaReadUser : SameTime s (nsaReadUser t n ticket b) := by
  unfold nsaReadUser
  exact .after_ite (h.after_reply ..) (.after_ite (h.after_reply ..) h.after_modTask)

theorem after_nsaMask : SameTime s (nsaMask t n ticket b) := by
  unfold nsaMask
  refine .after_ite ?_ (h.after_reply ..)
  exact h.after rfl

theorem after_lpeLoop : SameTime s (lpeLoop t n ticket b) := by
  unfold lpeLoop
  exact .after_ite (.after_setF (.after_modLoop (h.after_lpeReply ..))) (h.after_lpeReply ..)

theorem after_lpeGroup : SameTime s (lpeGroup t n ticket b) := by
  unfold lpeGroup
  exact .after_ite (.after_modGroup (h.after_lpeReply ..)) (h.after_lpeReply ..)

theorem after_lpeMode : SameTime s (lpeMode t n ticket b) := by
  unfold lpeMode
  exact .after_ite (.after_setF (.after_modLoop (h.after_lpeReply ..))) (h.after_lpeReply ..)

theorem after_mtrConfig : SameTime s (mtrConfig t n ticket b) := by
  have hsubmitted (acc kind ix w1 : Nat) (w : List Nat) : SameTime s (mtrSubmit t acc kind ix w1 w).1 := by
    unfold mtrSubmit
    dsimp only
    split <;> exact h.after rfl
  unfold mtrConfig
  refine .after_ite (.after_reply (hsubmitted ..) ..) (.after_reply ?_ ..)
  exact (hsubmitted ..).after (congrArg State.tim (MessagesOnly.after_forwardBody (.refl _) ..) :)

theorem after_chkRun : SameTime s (chkRun t n ticket b) := by
  unfold chkRun
  refine .after_ite (h.after_reply ..) (.after_ite (h.after_reply ..) ?_)
  have hjob := regsOnly_chkJob t (bodyW b 0 % 8) (b.drop 16) (bodyW b 2 + bodyW b 3 * 2 ^ 32)
  generalize chkJob t (bodyW b 0 % 8) (b.drop 16) (bodyW b 2 + bodyW b 3 * 2 ^ 32) = x at hjob ⊢
  exact .after_modTask (h.after (congrArg State.tim hjob :))

theorem after_sesSendCall : SameTime s (sesSendCall t n ticket b) := by
  unfold sesSendCall
  refine .after_ite (h.after_reply ..) (.after_ite (.after_setF (.after_setF (h.after_reply ..))) ?_)
  exact h.after rfl

theorem after_sesReadCall : SameTime s (sesReadCall t n ticket b) := by
  unfold sesReadCall
  exact .after_ite (h.after_reply ..) (.after_ite (h.after_reply ..) h.after_modTask)

end

theorem after_callEffect (h : SameTime s t) (n : Nat) (c : Call) : SameTime s (callEffect t n c) := by
  unfold callEffect
  split
  case h_1 => exact h.after_nsaInstall ..
  case h_2 => exact h.after_nsaStudy ..
  case h_3 => exact h.after_nsaWriteUser ..
  case h_4 => exact h.after_nsaReadUser ..
  case h_5 => exact h.after_nsaMask ..
  case h_6 => exact h.after_lpeLoop ..
  case h_7 => exact h.after_lpeGroup ..
  case h_8 => exact h.after_lpeMode ..
  case h_9 => exact h.after_mtrConfig ..
  case h_10 => exact h.after_chkRun ..
  case h_11 => exact h.after_sesSendCall ..
  case h_12 => exact h.after_sesReadCall ..
  case h_13 => exact h

theorem after_acceptCalls (h : SameTime s t) (n : Nat) : SameTime s (acceptCalls t n) :=
  .after_ite h.after_modTask (h.after_modTask.after_forAll fun _ c hv => hv.after_callEffect n c)

/-! ### Item 1 (R25, R174, R226) -/

theorem after_emitTask (h : SameTime s t) (n : Nat) : SameTime s (emitTask t n) := by
  unfold emitTask
  refine .after_ite h (.after_modTask ?_)
  exact h.after rfl

theorem after_applyShared (h : SameTime s t) (n : Nat) : SameTime s (applyShared t n) := by
  unfold applyShared
  refine .after_modTask ?_
  exact h.after rfl

theorem after_driveOutputs (h : SameTime s t) : SameTime s (driveOutputs t) :=
  h.after (ScanFrame.after_driveOutputs (.refl t)).tim

theorem after_item1 (h : SameTime s t) (due : List TaskRec) : SameTime s (item1 t due) := by
  have hbound : SameTime s { t with fio := { t.fio with unbound := true } } := h.after rfl
  have hdriven := (hbound.after_forAll (l := due.map (·.task)) fun _ n hv => hv.after_emitTask n).after_driveOutputs
  have hqueued := hdriven.after_forAll (l := due.map (·.task)) fun _ n hv => hv.after_queueFrames n
  exact (hqueued.after_forAll fun _ n hv => hv.after_applyShared n).after_forAll fun _ n hv => hv.after_acceptCalls n

/-! ### The forces and the program of an exchange (R242, R263, R267) -/

theorem after_instEvents (h : SameTime s t) (old new : Program) : SameTime s (instEvents t old new) :=
  .after_forAll (h.after_forAll fun _ _ hv => .after_ite (hv.after_ev ..) hv) fun _ _ hv => .after_ite hv (hv.after_ev ..)

theorem after_reconcileForces (h : SameTime s t) (old new : Program) : SameTime s (reconcileForces t old new) :=
  have hkept (a b : List (Nat × Force)) :
      SameTime s (showForced (showForceCnt { t with forces := a, forcesEff := b })) := h.after rfl
  (hkept ..).after_forAll fun _ _ hv => hv.after_evBit ..

end SameTime

end Sys2Proof.Machine
end

section
/-!
PROOFS. The program exchange (10 R266 R267): its instant, in the order of its steps, and the limit of the standby's answer.
-/
namespace Sys2Proof.Machine

/-! ### A program installed (R242, R263, R267) -/

theorem regsOnly_showTask {s t : State} (h : RegsOnly s t) (p : Program) (n : Nat) : RegsOnly s (showTask t p n) := by
  unfold showTask
  split <;> exact .after_setFi (.after_setReg h)

theorem regsOnly_showChkUnit {s t : State} (h : RegsOnly s t) (c : ChkUnitRec) : RegsOnly s (showChkUnit t c) := by
  have hput {v : State} (hv : RegsOnly s v) (lo hi : Fld) (x : Nat) :
      RegsOnly s (setFi (setFi v lo c.unit x) hi c.unit (x / 2 ^ 32)) := hv.after_setFi.after_setFi
  have hcfg : RegsOnly s (setFi (setReg t (F.CHK_CFG_WIDTH.at c.unit) (BitVec.ofNat 32 c.cfg)) F.CHK_STAT_PIP_VALID c.unit 0) :=
    h.after_setReg.after_setFi
  exact hput (hput (hput (hput hcfg ..) ..) ..) ..

/-- What the runtime takes from a record of the I/O map at its load. -/
def showIoRec (s : State) (r : IoRec) : State :=
  match r with
  | .diFilter a b c d => [a, b, c, d].zipIdx.foldl (fun s e => setFi s F.FIO_FILT_FILT e.2 e.1) s
  | .gates g => setReg s R.CLK_GATE_PERI (getReg s R.CLK_GATE_PERI ||| BitVec.ofNat 32 g)
  | _ => s

theorem regsOnly_showIoRec {s t : State} (h : RegsOnly s t) (r : IoRec) : RegsOnly s (showIoRec t r) := by
  unfold showIoRec
  split
  · exact h.after_forAll (f := fun s (e : Nat × Nat) => setFi s F.FIO_FILT_FILT e.2 e.1) fun _ _ hv => hv.after_setFi
  · exact h.after_setReg
  · exact h

theorem regsOnly_showProgram (s : State) (p : Program) (slot : Nat) : RegsOnly s (showProgram s p slot) := by
  have hserial : RegsOnly s
      (setF (setF (setF s F.SCN_PROG_SERIAL_SERIAL p.serial) F.SCN_STATUS_PROG_SLOT slot) F.SCN_STATUS_RUN 1) :=
    (RegsOnly.refl s).after_setF.after_setF.after_setF
  have htasks := (hserial.after_forAll (l := List.range 16) fun _ n hv => regsOnly_showTask hv p n).after_setF
    (f := F.SCN_STATUS_HALTED_ANY) (v := 0)
  exact (htasks.after_forAll (l := p.iomap) fun _ r hv => regsOnly_showIoRec hv r).after_forAll fun _ c hv =>
    regsOnly_showChkUnit hv c

theorem scanFields_setRetain (s : State) (kept : List Host.Cell) : scanFields (setRetain s kept) = scanFields s := by
  unfold setRetain
  split <;> rfl

/-- The program installed runs, with its retained directory; the clock, a pending exchange and the forces are kept. -/
theorem scanFields_installProgram (s : State) (p : Program) (slot : Nat) (inst : Mem) :
    scanFields (installProgram s p slot inst) =
      scanFields { s with prog := some p, cfg := { s.cfg with retDir := p.insts.filter isRetained } } := by
  have hevents (t : State) (before : List (Nat × Nat)) : ScanFrame t (clashEvents t before) :=
    (ScanFrame.refl t).after_forAll fun _ _ hv => hv.after_ev ..
  have hshown (t : State) : scanFields (showProgram t p slot) = scanFields t :=
    (congrArg scanFields (regsOnly_showProgram t p slot) :)
  unfold installProgram
  dsimp only
  rw [(hevents ..).fields, hshown, scanFields_setRetain]
  rfl

/-! ### The steps of an exchange (R266) -/

/-- Item 1 under the old program, the late scans aborted, and the forces reconciled (R266 steps 1, 2 and 4). -/
def oldProgramEnded (s : State) (x : Exchange) (old : Program) : State :=
  let due := tasksUp old
  let s := item1 (forAll s due endPeriod) due
  let s := forAll s due fun s r => if (scanOf s r.task).isSome then abortScan s r.task else s
  reconcileForces (instEvents s old x.prog) old x.prog

/-- The new program with its slot in the place of the old one (R266 step 3, R267). -/
def newProgramInstalled (s : State) (x : Exchange) (old : Program) : State :=
  let s := { s with outImg := remapOut old x.prog s.outImg, inImg := [], exch := none,
                    tasks := s.tasks.map fun (k : Task) =>
                      ({ k with image := remapOut old x.prog k.image, nextInfo := 8 } : Task) }
  installProgram { s with cfg := { s.cfg with progSlot := x.slot } } x.prog x.slot (exchangeInst old x.prog s.inst)

/-- The exchange shown, with its event. -/
def exchangeShown (s : State) (x : Exchange) (old : Program) : State :=
  evBit (setF (setF s F.SCN_EXCH_STATE 2) F.SCN_STATUS_EXCH_PENDING 0) F.SCN_EVENTS_EXCH_DONE 2 [old.serial, x.prog.serial]

/-- The exchange told to the host, and items 2 and 4 under the new program (R266 steps 5 and 6). -/
def newProgramStarted (s : State) (x : Exchange) : State :=
  let s := sampleField (qhcDone s 2 0 (nowNs s))
  let new := tasksUp x.prog
  item4 (if roleOf s = roSTANDBY then { s with red := { s.red with inputDue := new.map (·.task) } } else beginPeriods s new)

theorem exchangeAt_eq (s : State) (x : Exchange) (old : Program) : exchangeAt s x old =
    newProgramStarted (exchangeShown (newProgramInstalled (oldProgramEnded s x old) x old) x old) x := rfl

theorem sameTime_oldProgramEnded (s : State) (x : Exchange) (old : Program) : SameTime s (oldProgramEnded s x old) :=
  have hended := (SameTime.refl s).after_forAll (l := tasksUp old) fun _ r hv => hv.after_endPeriod r
  have haborted := (hended.after_item1 (tasksUp old)).after_forAll (l := tasksUp old) fun _ _ hv =>
    .after_ite (hv.after_abortScan _) hv
  (haborted.after_instEvents old x.prog).after_reconcileForces old x.prog

theorem newProgramInstalled_spec (s : State) (x : Exchange) (old : Program) :
    (newProgramInstalled s x old).prog = some x.prog ∧ (newProgramInstalled s x old).exch = none ∧
      (newProgramInstalled s x old).cfg.progSlot = x.slot ∧ (newProgramInstalled s x old).tim = s.tim := by
  have hfields : scanFields (newProgramInstalled s x old) = _ := scanFields_installProgram ..
  simp only [scanFields, Prod.mk.injEq] at hfields
  obtain ⟨htim, hprog, hexch, hcfg, -, -, -⟩ := hfields
  exact ⟨hprog, hexch, congrArg Settings.progSlot hcfg, htim⟩

/-- The exchange shows as completed, with the program and the clock as they were. -/
theorem exchangeShown_spec (s : State) (x : Exchange) (old : Program) :
    scanFields (exchangeShown s x old) = scanFields s ∧ getF (exchangeShown s x old) F.SCN_EXCH_STATE = 2 ∧
      getF (exchangeShown s x old) F.SCN_EVENTS_EXCH_DONE = 1 := by
  refine ⟨?fields, ?state, getF_evBit_same _ _ _ ⟨by decide, by decide⟩ rfl (by decide)⟩
  case fields => exact (ScanFrame.after_ev (.refl _) ..).fields
  case state =>
    rw [exchangeShown, getF_evBit_of_ne _ _ _ (by decide) (by decide), getF_setF_ne _ _ _ _ (by decide)]
    exact getF_setF_same _ _ _ ⟨by decide, by decide⟩

theorem scanFrame_newProgramStarted (s : State) (x : Exchange) : ScanFrame s (newProgramStarted s x) := by
  have hsampled : ScanFrame s (sampleField (qhcDone s 2 0 (nowNs s))) := ((ScanFrame.refl s).after_qhcDone ..).after_sampleField
  unfold newProgramStarted
  refine .after_item4 (.after_ite ?_ (hsampled.after_beginPeriods _))
  exact hsampled.after_others rfl rfl

/-- An exchange puts the new program in its slot and shows as completed, at the same time. -/
theorem exchangeAt_spec (s : State) (x : Exchange) (old : Program) :
    (exchangeAt s x old).prog = some x.prog ∧ (exchangeAt s x old).exch = none ∧ (exchangeAt s x old).cfg.progSlot = x.slot ∧
      getF (exchangeAt s x old) F.SCN_EXCH_STATE = 2 ∧ getF (exchangeAt s x old) F.SCN_EVENTS_EXCH_DONE = 1 ∧
      nowNs (exchangeAt s x old) = nowNs s := by
  have hended := sameTime_oldProgramEnded s x old
  obtain ⟨hprog, hexch, hslot, htim⟩ := newProgramInstalled_spec (oldProgramEnded s x old) x old
  obtain ⟨hkept, hstate, hdone⟩ := exchangeShown_spec (newProgramInstalled (oldProgramEnded s x old) x old) x old
  have hshown : ScanFrame _ (exchangeAt s x old) := exchangeAt_eq s x old ▸ scanFrame_newProgramStarted ..
  have hfields := hshown.fields.trans hkept
  simp only [scanFields, Prod.mk.injEq] at hfields
  obtain ⟨htime, hrun, hpending, hcfg, -, -, -⟩ := hfields
  exact ⟨hrun.trans hprog, hpending.trans hexch, (congrArg Settings.progSlot hcfg).trans hslot,
    (hshown.getF (by decide) (by decide)).trans hstate, (hshown.getF (by decide) (by decide)).trans hdone,
    nowNs_congr (htime.trans (htim.trans hended.tim))⟩

theorem exec_exchangeInstant {s : State} {x : Exchange} {old : Program} (hdone : tickDone s = false) (hexch : s.exch = some x)
    (hprog : s.prog = some old) (hrun : s.runState = true) (hex : executes s = true) (hat : atExchange s = true) :
    exec .exchangeInstant s = .next (exchangeAt s x old) := by
  change execExchangeInstant s = _
  simp [execExchangeInstant, reachTick_of_underWay hdone, hexch, hprog, running, hrun, hex, hat]

/-! ### The limit of the standby's answer (R266) -/

theorem exec_exchangeConfirmTimeout {s : State} {x : Exchange} (hexch : s.exch = some x) (hopen : x.confirmed = false)
    (hlimit : x.accepted + 50 * netNs s ≤ nowNs s) :
    exec .exchangeConfirmTimeout s = .next (exchRefused { s with exch := none } 5) := by
  change execExchangeConfirmTimeout s = _
  simp [execExchangeConfirmTimeout, hexch, hopen, hlimit]

/-- A refused exchange sets its event and leaves the program. -/
theorem exchRefused_event (s : State) (code : Nat) :
    getF (exchRefused s code) F.SCN_EVENTS_EXCH_REFUSED = 1 ∧ (exchRefused s code).prog = s.prog := by
  refine ⟨getF_evBit_same _ _ _ ⟨by decide, by decide⟩ rfl (by decide), ?_⟩
  have hshown : RegsOnly s (if (setF s F.SCN_EXCH_REFUSE code).exch.isSome then setF s F.SCN_EXCH_REFUSE code
      else setF (setF (setF s F.SCN_EXCH_REFUSE code) F.SCN_EXCH_STATE 3) F.SCN_STATUS_EXCH_PENDING 0) :=
    .after_ite (.after_setF (.refl s)) (.after_setF (.after_setF (.after_setF (.refl s))))
  exact (congrArg State.prog (evBit_only _ F.SCN_EVENTS_EXCH_REFUSED 3 [code]) :).trans (congrArg State.prog hshown :)

/-! ### The statement -/

/-- Settles O46: the instant X by the steps of the exchange, of which those after the new program is shown leave it alone; the
limit by the refusal of the exchange. -/
theorem programExchange : Obligations.ProgramExchange := by
  unfold Obligations.ProgramExchange
  constructor
  · intro s x old hdone hexch hprog hrun hex hat
    exact ⟨_, exec_exchangeInstant hdone hexch hprog hrun hex hat, exchangeAt_spec s x old⟩
  · intro s x hexch hopen hlimit
    obtain ⟨hgone, hcode⟩ := exchRefused_spec { s with exch := none } (code := 5) (by decide)
    obtain ⟨hevent, hprog⟩ := exchRefused_event { s with exch := none } 5
    exact ⟨_, exec_exchangeConfirmTimeout hexch hopen hlimit, hgone, hcode, hevent, hprog⟩

end Sys2Proof.Machine
end
